-- ==== Sys2Proof/Word.lean ====
section
/-! DEFINITION. The word types of the block. A register or a message is bits; a count, an index or an address that is never
masked is a Nat. -/

namespace Sys2Proof

/-- A byte of memory, of a message or of an image. -/
abbrev Byte := BitVec 8

/-- A 64-byte mailbox message (spec/02_captain_and_mailboxes.md R34). -/
abbrev Msg := BitVec 512

/-- A 128-byte command descriptor (spec/02_captain_and_mailboxes.md R59). -/
abbrev Desc := BitVec 1024

/-- A 64-bit register value. -/
abbrev Word64 := BitVec 64

end Sys2Proof
end

