-- ==== Sys2Proof/Syntax.lean ====
section
/-! DEFINITION. The commands the block takes, as data: one constructor per row of spec/opcode_table.json, and the types of
their operands. -/

namespace Sys2Proof

/-- The two independent computers of the package (R13, R14). -/
inductive HalfId where
  /-- Half A. -/
  | a
  /-- Half B. -/
  | b
  deriving DecidableEq, Repr, Inhabited

/-- The device modes (R24). -/
inductive DevMode where
  /-- Chain on the primary half, the other half warm standby. -/
  | dual
  /-- Chain duplicated on both halves and compared. -/
  | mirror
  /-- One half only. -/
  | solo
  deriving DecidableEq, Repr, Inhabited

/-- What chooses among the transactions that wait at it (R345): the DRAM controller of a stack, a tile-cache slice, or the network. -/
inductive QTarget where
  /-- The DRAM controller of stack 0 or 1. -/
  | dram (stack : Nat)
  /-- A tile-cache slice. -/
  | slice (n : Nat)
  /-- The network. -/
  | network
  deriving DecidableEq, Repr, Inhabited

/-- Fill of the real-time ports' buffers, scaled to 0 to 255 (Table of R347). -/
structure RtFill where
  /-- Fullest receiver's line buffer (camera ingest). -/
  camera : Nat := 0
  /-- Fullest MAC receive FIFO (Ethernet receive). -/
  ether : Nat := 0
  /-- Shared miss buffer of both real-time pairs. -/
  cores : Nat := 0
  /-- Input prefetch buffer of the fusion engine. -/
  fusion : Nat := 255
  deriving DecidableEq, Repr, Inhabited

/-- A turn at a target: which target, and the levels of the real-time ports' buffers then (R345, R347). -/
structure QTurn where
  /-- The target. -/
  target : QTarget
  /-- The buffers' levels. -/
  fill : RtFill := {}
  deriving DecidableEq, Repr

/-- A departure from an Ethernet port (R405, R408). -/
structure Departure where
  /-- The port. -/
  port : Nat
  /-- The time in ps at which the frame crosses the port's reference plane. -/
  t : Nat
  deriving DecidableEq, Repr

/-- Who makes an access to the control space or to an aperture (R23, R33, R370). -/
inductive Agent where
  /-- Application core n of the half, acting for a client. -/
  | core (n client : Nat)
  /-- Real-time pair n, acting for its bound client. -/
  | pair (n : Nat)
  /-- A tool on the management bus, by its bus address. -/
  | tool (addr : Nat)
  deriving DecidableEq, Repr

/-- A copy that arrives over the Tether from the peer's board (R340). -/
structure RemoteCopy where
  /-- The remote client that sent it. -/
  client : Nat
  /-- The window it names. -/
  window : Nat
  /-- Its rows: byte offset in the window, and bytes. -/
  rows : List (Nat × List Byte)
  deriving DecidableEq, Repr

/-- One element of a warm-up's output beside the known output (R88): the written code and, in an MX format, its block's scale byte;
the reference as the known output stores it; and the FP32 code of the reference's magnitude M. -/
structure WarmElem where
  /-- Format code of the output. -/
  fmt : Nat
  /-- The element that the engine wrote. -/
  y : Nat
  /-- Scale byte of the block in which it was written. -/
  yScale : Nat := 127
  /-- The reference element. -/
  r : Nat
  /-- Stored scale byte of the reference block. -/
  rScale : Nat := 127
  /-- FP32 code of the sum of the absolute values of the products that make up the reference. -/
  mag : Nat
  deriving DecidableEq, Repr

/-- A signal that arrives over the Tether (R311). -/
structure RemoteSignal where
  /-- The remote client that sent it. -/
  client : Nat
  /-- The inbound slot it names. -/
  slot : Nat
  /-- The value it fills. -/
  value : BitVec 64
  deriving DecidableEq, Repr

/-- The far side's answer that arrives over the Tether (R311, R340). -/
structure RemoteAnswer where
  /-- The command answered. -/
  cmd : Nat
  /-- Its status. -/
  status : Nat
  /-- RETRY_AFTER on ST_BUSY. -/
  retry : Nat
  deriving DecidableEq, Repr

/-- Where a corrected error lies (R327, R333). -/
inductive CorrSite where
  /-- A DRAM block, with the DQ pin corrected. -/
  | dram (stack frame block pin : Nat)
  /-- A word of a tile-cache line. -/
  | cache (slice line word : Nat)
  /-- An engine's scratch. -/
  | scratch (engine : Nat)
  /-- The fusion store (3), planning store (4), line buffers (5) or Tensor Page Table (6), by its WHERE code. -/
  | store (where' loc : Nat)
  deriving DecidableEq, Repr

/-- What finds an uncorrectable DRAM block (R329, R330). -/
inductive UeReader where
  /-- A running command reads the block at a virtual address. -/
  | command (cmd va : Nat)
  /-- The controller reads back a block of its health list after it was written. -/
  | readBack (stack frame block : Nat)
  deriving DecidableEq, Repr

/-- What a scrubber finds (R326, R329). -/
inductive Scrub where
  /-- No error. -/
  | clean
  /-- An error corrected on a DQ pin. -/
  | corrected (pin : Nat)
  /-- An uncorrectable block. -/
  | uncorrectable
  deriving DecidableEq, Repr

/-- Where an uncorrectable SRAM error lies (R113, R196, R253, R281, R332). -/
inductive SramSite where
  /-- A clean line of the general cache. -/
  | cleanLine (slice : Nat)
  /-- A dirty line of the general cache, by the context and virtual address it holds. -/
  | dirtyLine (slice ctx va : Nat)
  /-- A line staged for a command. -/
  | staged (slice cmd : Nat)
  /-- A Tensor Page Table entry. -/
  | tptEntry (slice : Nat)
  /-- A sync word. -/
  | syncWord (slice page word : Nat)
  /-- An engine's scratch. -/
  | scratch (engine : Nat)
  /-- A hot-row directory entry, by context and row address. -/
  | hotRow (slice ctx va : Nat)
  /-- The fusion session's copy of its parameter block. -/
  | fuseParams
  /-- A track entry of the fusion store. -/
  | track (id : Nat)
  /-- The planner's tree or queue. -/
  | planTree
  /-- The minimum-risk family, or with `copy` the committed plan copy. -/
  | planFamily (copy : Bool)
  deriving DecidableEq, Repr


/-- Where an aperture access goes: an application core's system or client aperture, or a real-time pair's window or TCM (R363,
R370). -/
inductive Aperture where
  /-- The system aperture of a core: context 0. -/
  | system (core : Nat)
  /-- The client aperture of a core: the context of its NVCTX. -/
  | client (core : Nat)
  /-- The window of a pair onto its bound context. -/
  | window (pair : Nat)
  /-- A pair's tightly coupled memory. -/
  | tcm (pair : Nat)
  /-- Any address of a core's physical map, by itself. -/
  | coreMap (core : Nat)
  /-- Any address of a pair's map, by itself. -/
  | pairMap (pair : Nat)
  deriving DecidableEq, Repr

/-- What an endpoint behind the root port sends (R3, R426). -/
inductive EndpointReq where
  /-- A DMA write into pages that the operating system mapped for the function: context, virtual address, data. -/
  | write (ctx va : Nat) (data : List Byte)
  /-- A DMA read of such pages. -/
  | read (ctx va len : Nat)
  /-- DMA outside the function's mapped pages. -/
  | outside (addr : Nat)
  /-- A malformed TLP. -/
  | malformed
  /-- An unexpected completion. -/
  | unexpected
  deriving DecidableEq, Repr

/-- A capture as it ends at its receiver or at the flow that assembles it (R201 to R203). -/
structure Capture where
  /-- Source ID 0x00 to 0x07, or 0x20 to 0x3F. -/
  source : Nat
  /-- CSI-2: [3:0] virtual channel, [9:4] data type; Ethernet: the format code of SELECT. -/
  select : Nat
  /-- Synchronised time of the Frame Start; for a flow, ingress timestamp of the first packet with the port's asymmetry applied. -/
  time : Nat
  /-- RTP timestamp or IEEE 1722 presentation time. -/
  mediaTs : Nat
  /-- Pixels per line of CSI-2 data. -/
  w : Nat
  /-- Lines of CSI-2 data. -/
  h : Nat
  /-- Data in wire order. -/
  data : List Byte
  /-- Packet headers with an uncorrectable ECC error. -/
  ecc : Nat
  /-- Payloads that failed their CRC. -/
  crc : Nat
  /-- Frame End is missing. -/
  cut : Bool
  deriving DecidableEq, Repr

/-- What every gPTP message brings (R402, R405, R407). -/
structure Ptp where
  /-- Ingress port. -/
  port : Nat
  /-- Source MAC address. -/
  src : Nat
  /-- Domain number. -/
  domain : Nat
  /-- sequenceId. -/
  seq : Nat
  /-- The message is well formed. -/
  ok : Bool
  /-- Time in ps, on the half's synchronised clock, at which it crossed the port's reference plane. -/
  t : Nat
  deriving DecidableEq, Repr

/-- A Pdelay message (R407). -/
inductive Pdelay where
  /-- Pdelay_Req. -/
  | req
  /-- Pdelay_Resp, with the request's receipt time at the peer in ps. -/
  | resp (t2 : Nat)
  /-- Pdelay_Resp_Follow_Up, with the response's departure time at the peer in ps. -/
  | followUp (t3 : Nat)
  deriving DecidableEq, Repr

/-- An instruction that a tool shifts into a half's TAP (R485). -/
inductive TapOp where
  /-- IDCODE. -/
  | idcode
  /-- BYPASS. -/
  | bypass
  /-- SAMPLE/PRELOAD. -/
  | sample
  /-- EXTEST. -/
  | extest
  /-- Instruction trace, performance counters, engine and unit status, and the Captain's event trace. -/
  | observe
  /-- Halts or resumes the Captain. -/
  | captain (halt : Bool)
  /-- Halts or resumes an application core. -/
  | core (n : Nat) (halt : Bool)
  /-- Halts or resumes a real-time pair. -/
  | pair (n : Nat) (halt : Bool)
  /-- Reads n bytes of a context's memory. -/
  | read (ctx va n : Nat)
  /-- Writes bytes of a context's memory. -/
  | write (ctx va : Nat) (data : List Byte)
  /-- Reads the control space. -/
  | load (off size : Nat)
  /-- Writes the control space. -/
  | store (off size v : Nat)
  /-- A Nirlevan private instruction. -/
  | priv
  deriving DecidableEq, Repr

/-- The commands the block takes, one constructor per row of the spec's opcode table; each docstring gives the row and its
rule. -/
inductive Instr where
  /-- MBX_OWNER_CLAIM (R35): A store of MBX_OWNER with VALID = 1 to a FREE slot makes the slot OWNED by the written client ID; the store is ignored in any other state. -/
  | mbxOwnerClaim (h : HalfId) (ag : Agent) (slot : Nat) (client : BitVec 8)
  /-- MBX_OWNER_RELEASE (R35): A store of MBX_OWNER with VALID = 0 frees an OWNED or DONE slot and clears MBX_IN and MBX_OUT; the store is ignored while the slot is POSTED or ACKED. -/
  | mbxOwnerRelease (h : HalfId) (ag : Agent) (slot : Nat)
  /-- MBX_IN_WRITE (R34): A write to MBX_IN stores inbound message words while the slot is OWNED or DONE, and is ignored otherwise. -/
  | mbxInWrite (h : HalfId) (ag : Agent) (slot : Nat) (wide : Bool) (word : Nat) (v : BitVec 64)
  /-- MESSAGE_ACKNOWLEDGE (R42): The Captain takes a posted message within 100 µs, moves the slot to ACKED and raises the interrupt if IRQ_ACK is set. -/
  | messageAcknowledge (h : HalfId)
  /-- SYS_NOP (R49): The Captain completes the message with ST_OK and a payload of zeros. -/
  | sysNop (h : HalfId) (slot : Nat)
  /-- SYS_IDENTIFY (R4): The Captain returns the identification record of its half. -/
  | sysIdentify (h : HalfId) (slot : Nat)
  /-- SYS_STATUS (R49): The Captain returns the mode, chain half, power states, lifecycle state and frame number as of one instant. -/
  | sysStatus (h : HalfId) (slot : Nat)
  /-- CLIENT_REGISTER (R50): The Captain creates a client with context and queue quotas and returns the lowest free client ID. -/
  | clientRegister (h : HalfId) (slot : Nat)
  /-- CLIENT_RELEASE (R288): The Captain tears down every context of the client, frees its slots and unbinds its doorbells. -/
  | clientRelease (h : HalfId) (slot : Nat)
  /-- CTX_CREATE (R286): The Captain creates a context of the requested tier and returns its CONTEXT_ID. -/
  | ctxCreate (h : HalfId) (slot : Nat)
  /-- CTX_DESTROY (R297): The Captain tears down the named context and discards its in-flight commands. -/
  | ctxDestroy (h : HalfId) (slot : Nat)
  /-- QUEUE_CREATE (R52): The Captain checks the ring pages and creates a queue in the named context. -/
  | queueCreate (h : HalfId) (slot : Nat)
  /-- QUEUE_DESTROY (R53): The Captain stops fetching from the queue, discards its in-flight commands, unbinds its direct doorbell and removes it. -/
  | queueDestroy (h : HalfId) (slot : Nat)
  /-- QUEUE_BIND_DOORBELL (R53): The Captain binds one of the client's doorbells directly to one queue. -/
  | queueBindDoorbell (h : HalfId) (slot : Nat)
  /-- TPT_MAP (R321): The Captain checks every map record and then maps, shares or remaps the pages whole or not at all. -/
  | tptMap (h : HalfId) (slot : Nat)
  /-- TPT_UNMAP (R321): The Captain checks the records and unmaps the pages, invalidating translations and hot-row entries and faulting contexts that were using them. -/
  | tptUnmap (h : HalfId) (slot : Nat)
  /-- CLIENT_COUNTERS (R300): The Captain returns the four job counters of a client with their snapshot time. -/
  | clientCounters (h : HalfId) (slot : Nat)
  /-- OVL_SUBMIT (R521): The Captain verifies an overlay, or a slot removal, in long or chunked form and holds it for application at a frame boundary. -/
  | ovlSubmit (h : HalfId) (slot : Nat)
  /-- OVERLAY_CONFIRM_RECEIVE (R522): The other half's Captain checks a forwarded overlay and its confirmation or rejection arrives back at the receiving half. -/
  | overlayConfirmReceive (h : HalfId)
  /-- OVL_STATUS (R527): The Captain returns the active, held and stored overlay masks and the details of one slot. -/
  | ovlStatus (h : HalfId) (slot : Nat)
  /-- UPD_STAGE (R529): The Captain writes an image into the inactive A/B slot of its kind and verifies it. -/
  | updStage (h : HalfId) (slot : Nat)
  /-- UPD_ACTIVATE (R530): The Captain makes the inactive slot of an image kind active, taking effect as the kind requires. -/
  | updActivate (h : HalfId) (slot : Nat)
  /-- ENG_RETIRE (R119): The system client requests retirement of an engine, which takes effect at the next frame boundary. -/
  | engRetire (h : HalfId) (slot : Nat)
  /-- MAP_OUT (R334): The Captain maps out or restores a tile-cache slice, or maps out a pseudo-channel. -/
  | mapOut (h : HalfId) (slot : Nat)
  /-- EVACUATE (R435): The Captain copies regions, overlays and optionally the chain to the admitted Tether peer. -/
  | evacuate (h : HalfId) (slot : Nat) (receiver : Bool) (gm : Option (BitVec 64)) (copied : Nat)
  /-- EVACUATE_ACCEPT_RECEIVE (R435): The peer's ACCEPT arrives after its checkpoint has committed, and the sender sends COMMIT before the boundary. -/
  | evacuateAcceptReceive (h : HalfId)
  /-- EVACUATE_COMMIT_RECEIVE (R436): COMMIT arrives at the peer, which opens its actuator gates at the boundary. -/
  | evacuateCommitReceive (h : HalfId) (overlays : List (List Byte)) (commit : Bool)
  /-- SAF_MODE_REQUEST (R461): The Captain requests a change to DUAL, MIRROR or SOLO, which takes effect at a frame boundary. -/
  | safModeRequest (h : HalfId) (slot : Nat)
  /-- SAF_STATUS (R462): The Captain returns Umpire verdicts, engine masks, checkpoint frames and fault counts. -/
  | safStatus (h : HalfId) (slot : Nat)
  /-- SAF_SELFTEST_STATUS (R459): The Captain returns self-test pass, forced and missed-interval status for each element. -/
  | safSelftestStatus (h : HalfId) (slot : Nat)
  /-- SEC_ATTEST (R479): The security block returns a chunk of a signed attestation report or of the certificate, making a new report when the nonce is new. -/
  | secAttest (h : HalfId) (slot : Nat)
  /-- SEC_LIFECYCLE (R482): The security block checks a signed lifecycle request and applies it on the named halves at a frame boundary. -/
  | secLifecycle (h : HalfId) (slot : Nat)
  /-- SEC_DEBUG_AUTH (R486): The security block checks a signed debug request and opens the named debug level for DURATION_S. -/
  | secDebugAuth (h : HalfId) (slot : Nat)
  /-- SEC_DEBUG_END (R488): The named halves return to debug level NONE, and a half leaving INVASIVE is reset. -/
  | secDebugEnd (h : HalfId) (slot : Nat)
  /-- PWR_STATE_REQUEST (R495): The Captain moves its half to RUN, DIM, DOZE, HIBERNATE or OFF. -/
  | pwrStateRequest (h : HalfId) (slot : Nat)
  /-- HIBERNATE_HOLD_EXPIRY (R497): After the 5 ms hold, the cores stop, the last slot is freed, the stacks enter self-refresh and the domains switch off. -/
  | hibernateHoldExpiry (h : HalfId)
  /-- PWR_CAP_SET (R501): The Captain sets the sustained device power cap on both halves at the next frame boundary. -/
  | pwrCapSet (h : HalfId) (slot : Nat)
  /-- THM_COOLANT_REPORT (R510): The coolant inlet temperature is supplied and applied to both halves. -/
  | thmCoolantReport (h : HalfId) (slot : Nat)
  /-- TIM_STATUS (R422): The Captain returns the clock state, offset, rate, grandmaster and free-run words of one instant. -/
  | timStatus (h : HalfId) (slot : Nat)
  /-- TIM_PORT_ASYM (R406): The Captain sets a port's delay asymmetry in picoseconds. -/
  | timPortAsym (h : HalfId) (slot : Nat)
  /-- PTN_LIST (R430): The Captain copies the partner table, or describes the next non-empty entry. -/
  | ptnList (h : HalfId) (slot : Nat)
  /-- PTN_RELEASE (R432): The Captain lifts a partner's quarantine. -/
  | ptnRelease (h : HalfId) (slot : Nat)
  /-- LNK_RETRAIN (R390): The Captain retrains a UCIe module, the Handoff link or the Tether. -/
  | lnkRetrain (h : HalfId) (slot : Nat)
  /-- LOG_READ (R431): The Captain copies entries of the violation, memory error or link event log. -/
  | logRead (h : HalfId) (slot : Nat)
  /-- DIAG_RUN (R463): The Captain runs a named diagnostic and returns pass or fail. -/
  | diagRun (h : HalfId) (slot : Nat) (pass : Bool)
  /-- DOORBELL_STORE (R58): A 64-bit store to a queue doorbell advances the queue's tail after the ownership, binding and occupancy checks. -/
  | doorbellStore (h : HalfId) (ag : Agent) (d : Nat) (v : BitVec 64)
  /-- DESCRIPTOR_FETCH (R55): The part reserves a completion entry, fetches the next descriptor of a queue and advances CMD_HEAD. -/
  | descriptorFetch (h : HalfId) (queue : Nat)
  /-- REGISTER_WRITE (R23): A store to a control-space register that has no row of its own, including W1C and enable registers, is applied, ignored, or dropped and logged. -/
  | registerWrite (h : HalfId) (ag : Agent) (off size v : Nat)
  /-- QOS_REGISTER_WRITE (R358): A store to a QOS_ field is applied at once or at the next window, or is ignored and logged when it breaks a range, order, lock or bound. -/
  | qosRegisterWrite (h : HalfId) (ag : Agent) (off size v : Nat)
  /-- THM_CLUSTER_MHZ_WRITE (R506): The operating system sets a cluster's requested frequency. -/
  | thmClusterMhzWrite (h : HalfId) (ag : Agent) (cluster : Nat) (mhz : BitVec 16)
  /-- TIM_SYNC_LOAD (R421): A load of TIM_SYNC returns synchronised time and latches the local counter into TIM_LOCAL_LATCH. -/
  | timSyncLoad (h : HalfId) (ag : Agent) (size : Nat) (high : Bool)
  /-- REMOTE_CONTROL_ACCESS (R18): An application core access to the other half's control space travels over the Handoff link, or errs and is logged when that half is unreachable. -/
  | remoteControlAccess (h : HalfId) (core client off size : Nat) (store : Option Nat)
  /-- NVCTX_WRITE (R365): A write of NVCTX selects the context reached through the client aperture, or is ignored and logged for a nonexistent context. -/
  | nvctxWrite (h : HalfId) (core : Nat) (v : BitVec 64)
  /-- NVCLASS_WRITE (R365): A write of NVCLASS sets the core's class label, or is ignored and logged outside the permitted mask. -/
  | nvclassWrite (h : HalfId) (core : Nat) (v : BitVec 64)
  /-- APERTURE_LOAD (R366): A core load through an aperture is translated and returns data or raises an access fault. -/
  | apertureLoad (h : HalfId) (ap : Aperture) (addr size : Nat)
  /-- APERTURE_STORE (R366): A core store through an aperture is translated and performed, dropped and logged, or faulted. -/
  | apertureStore (h : HalfId) (ap : Aperture) (addr size v : Nat)
  /-- GEMM (R102): An engine computes ALPHA × (A × B) + BETA × D with the epilogue into staged output. -/
  | gemm (h : HalfId) (cmd : Nat)
  /-- ELEMENTWISE (R106): The vector unit applies an element-wise function to its inputs. -/
  | elementwise (h : HalfId) (cmd : Nat)
  /-- REDUCE (R106): The vector unit reduces SRC0 over AXIS. -/
  | reduce (h : HalfId) (cmd : Nat)
  /-- NORM (R106): The vector unit applies layer or RMS normalisation over AXIS. -/
  | norm (h : HalfId) (cmd : Nat)
  /-- SOFTMAX (R106): The vector unit computes the softmax over AXIS with temperature PARAM0. -/
  | softmax (h : HalfId) (cmd : Nat)
  /-- CONVERT (R106): The engine rewrites SRC0 in DST's format and layout. -/
  | convert (h : HalfId) (cmd : Nat)
  /-- WARMUP (R443): An engine runs the warm-up pattern and sends its output to its Umpire. -/
  | warmup (h : HalfId) (n : Nat)
  /-- QUICK_WARMUP_SLICE (R124): The Quick lane engine runs a slice of its warm-up in a gap between quick-lane commands. -/
  | quickWarmupSlice (h : HalfId)
  /-- QUICK_WARMUP_FORCE (R124): If the Quick lane warm-up is unfinished 1.75 ms after the boundary, its remaining slices are forced back to back. -/
  | quickWarmupForce (h : HalfId)
  /-- WARMUP_DEADLINE_KILL (R292): A NORMAL or BACKGROUND command still running 200 µs after a boundary is killed so the warm-up can run. -/
  | warmupDeadlineKill (h : HalfId)
  /-- CONV (R137): An engine expands the input image stripe by stripe and computes a grouped, strided, dilated, padded convolution with epilogue. -/
  | conv (h : HalfId) (cmd : Nat)
  /-- POOL_MAX (R140): An engine writes the maximum over each pooling window per channel. -/
  | poolMax (h : HalfId) (cmd : Nat)
  /-- POOL_AVG (R141): An engine writes the mean over each pooling window per channel. -/
  | poolAvg (h : HalfId) (cmd : Nat)
  /-- KV_POOL_INIT (R153): The page logic registers a KV pool and reads its free map. -/
  | kvPoolInit (h : HalfId) (cmd : Nat)
  /-- KV_POOL_DESTROY (R174): The page logic deregisters a pool once no command holds a lock on one of its sequences. -/
  | kvPoolDestroy (h : HalfId) (cmd : Nat)
  /-- KV_APPEND (R163): The page logic converts and appends keys and values to a sequence, evicting first when EVICT is set. -/
  | kvAppend (h : HalfId) (cmd : Nat)
  /-- KV_PIN (R174): The page logic sets or clears the pin of the live slots in a position range. -/
  | kvPin (h : HalfId) (cmd : Nat)
  /-- KV_EVICT (R173): The page logic evicts a sequence down to a target number of live tokens. -/
  | kvEvict (h : HalfId) (cmd : Nat)
  /-- KV_COMPACT (R174): The page logic rewrites the live slots of a page-list range into the fewest pages. -/
  | kvCompact (h : HalfId) (cmd : Nat)
  /-- KV_RELEASE (R174): The page logic frees every page of a sequence and resets its counters. -/
  | kvRelease (h : HalfId) (cmd : Nat)
  /-- ATTEND (R169): An engine attends the selected pages of a sequence and writes O and optional statistics and selection. -/
  | attend (h : HalfId) (cmd : Nat)
  /-- ATTEND_BWD (R176): An engine recomputes attention probabilities and writes dQ, dK and dV. -/
  | attendBwd (h : HalfId) (cmd : Nat)
  /-- GATHER (R184): The gather logic writes one table row per index, optionally weighted. -/
  | gather (h : HalfId) (cmd : Nat)
  /-- BAG_SUM (R184): The gather logic writes the weighted sum of table rows over each bag. -/
  | bagSum (h : HalfId) (cmd : Nat)
  /-- BAG_MEAN (R189): The gather logic writes the sum over each bag divided by its contributing count. -/
  | bagMean (h : HalfId) (cmd : Nat)
  /-- BAG_MAX (R187): The gather logic writes the element-wise maximum over each bag. -/
  | bagMax (h : HalfId) (cmd : Nat)
  /-- HOT_LOAD (R191): The gather logic admits the named rows to the hot-row directory. -/
  | hotLoad (h : HalfId) (cmd : Nat)
  /-- INGEST_BIND (R205): The input pipeline binds a source to a capture ring or creates a memory stream. -/
  | ingestBind (h : HalfId) (cmd : Nat)
  /-- INGEST_UNBIND (R204): The input pipeline removes a binding once none of its entries is pinned. -/
  | ingestUnbind (h : HalfId) (cmd : Nat)
  /-- BATCH (R210): The input pipeline decodes, crops, colour-converts and normalises a batch of samples into a staged tensor. -/
  | batch (h : HalfId) (cmd : Nat)
  /-- DECODE_COMPLETE (R225): A hardware decode finishes, its slot is converted and the path's rolling mean is updated. -/
  | decodeComplete (h : HalfId) (cmd slot : Nat)
  /-- SAMPLE_BUDGET_EXPIRY (R225): A hardware decode that reaches its per-sample budget is aborted and its slot becomes defective. -/
  | sampleBudgetExpiry (h : HalfId) (cmd slot : Nat)
  /-- BATCH_BUDGET_EXPIRY (R230): When BUDGET_US expires, unfinished slots become defective and the batch commits with ST_TIMEOUT. -/
  | batchBudgetExpiry (h : HalfId) (cmd : Nat)
  /-- SWDEC_ATTACH (R222): The decode service attaches its request ring and slots to the half. -/
  | swdecAttach (h : HalfId) (cmd : Nat)
  /-- SWDEC_RETURN (R223): The decode service hands back a software decode result, which the part checks and converts into its slot. -/
  | swdecReturn (h : HalfId) (cmd : Nat)
  /-- SWDEC_DETACH (R223): The decode service detaches, and every outstanding request becomes defective. -/
  | swdecDetach (h : HalfId) (cmd : Nat)
  /-- SWDEC_DEADLINE_EXPIRY (R223): A software request that reaches its DEADLINE makes its slot defective with reason 0x05. -/
  | swdecDeadlineExpiry (h : HalfId) (entry : Nat)
  /-- FUSE_OPEN (R233): The fusion engine creates the half's session and writes the grid as unknown. -/
  | fuseOpen (h : HalfId) (cmd : Nat)
  /-- FUSE_CLOSE (R232): The fusion engine ends the session and empties the track table. -/
  | fuseClose (h : HalfId) (cmd : Nat)
  /-- FUSE_STEP (R241): The fusion engine folds object lists and a scan into the tracks, estimates ego-motion, writes one output and updates the grid. -/
  | fuseStep (h : HalfId) (cmd : Nat)
  /-- PLAN_OPEN (R259): The planning engine creates the half's planning session. -/
  | planOpen (h : HalfId) (cmd : Nat)
  /-- PLAN_CLOSE (R258): The planning engine ends the session and empties its tree and store. -/
  | planClose (h : HalfId) (cmd : Nat)
  /-- PLAN_STEP (R267): The planning engine repairs and grows the tree, refines candidates and commits one plan record. -/
  | planStep (h : HalfId) (cmd : Nat)
  /-- COPY (R338): The copy unit copies rows within the context. -/
  | copy (h : HalfId) (cmd : Nat)
  /-- COPY_OUT (R340): The copy unit sends rows into a far window across the Handoff link or the Tether. -/
  | copyOut (h : HalfId) (cmd : Nat)
  /-- REMOTE_COPY_RECEIVE (R340): The far side checks an incoming copy against its window, stages it, commits it and answers. -/
  | remoteCopyReceive (h : HalfId) (tether : Option RemoteCopy)
  /-- REMOTE_ANSWER_RECEIVE (R340): The far side's answer to a COPY_OUT or SIGNAL_REMOTE arrives, and the sender writes its completion record. -/
  | remoteAnswerReceive (h : HalfId) (tether : Option RemoteAnswer)
  /-- WINDOW_BIND (R339): The copy unit binds a local window for a remote source client on a link. -/
  | windowBind (h : HalfId) (cmd : Nat)
  /-- WINDOW_UNBIND (R339): The copy unit releases a local window. -/
  | windowUnbind (h : HalfId) (cmd : Nat)
  /-- FILL (R305): A sync command fills an empty word with VALUE, or waits while it is full. -/
  | fill (h : HalfId) (cmd : Nat)
  /-- DRAIN (R305): A sync command empties a full word and returns its value, or waits while it is empty. -/
  | drain (h : HalfId) (cmd : Nat)
  /-- WAIT_FULL (R305): A sync command waits until the word is full and returns its value. -/
  | waitFull (h : HalfId) (cmd : Nat)
  /-- WAIT_EMPTY (R305): A sync command waits until the word is empty. -/
  | waitEmpty (h : HalfId) (cmd : Nat)
  /-- PEEK (R305): A sync command returns the word's value and state without waiting. -/
  | peek (h : HalfId) (cmd : Nat)
  /-- SIGNAL_REMOTE (R311): A sync command sends a FILL to an inbound slot across a link, ordered behind earlier copies. -/
  | signalRemote (h : HalfId) (cmd : Nat)
  /-- REMOTE_SIGNAL_RECEIVE (R311): The far side checks an incoming signal against its slot binding and fills the word or arrives at the huddle. -/
  | remoteSignalReceive (h : HalfId) (tether : Option RemoteSignal)
  /-- REMOTE_BIND (R309): A sync command binds a local inbound slot to a sync word or a huddle key. -/
  | remoteBind (h : HalfId) (cmd : Nat)
  /-- REMOTE_UNBIND (R309): A sync command releases a local inbound slot. -/
  | remoteUnbind (h : HalfId) (cmd : Nat)
  /-- HUDDLE_OPEN (R312): A sync command waits until every participant in MASK has arrived, then commits. -/
  | huddleOpen (h : HalfId) (cmd : Nat)
  /-- HUDDLE_ARRIVE (R313): A sync command records the arrival of a core participant at a huddle. -/
  | huddleArrive (h : HalfId) (cmd : Nat)
  /-- COMMAND_COMMIT (R109): A command's staged outputs and POST_OP become visible in one step and its completion record is written. -/
  | commandCommit (h : HalfId) (cmd : Nat)
  /-- PREEMPTION (R293): The scheduler kills the most recently started command of the lowest pre-emptable tier to free an engine for CHAIN or REALTIME work. -/
  | preemption (h : HalfId)
  /-- BUDGET_EXPIRY (R107): A command whose budget expires before commit completes with ST_TIMEOUT and commits nothing. -/
  | budgetExpiry (h : HalfId) (cmd : Nat)
  /-- UNIT_WATCHDOG_EXPIRY (R512): A unit that writes no record within twice its command's budget plus 10 ms is given a subsystem reset. -/
  | unitWatchdogExpiry (h : HalfId) (cmd : Nat)
  /-- ENGINE_RESET_COMPLETE (R113): An engine reset finishes within 500 µs and the engine reruns its warm-up before taking work. -/
  | engineResetComplete (h : HalfId) (n : Nat)
  /-- FRAME_BOUNDARY (R32): The half's synchronised time crosses k × frame period, and boundary actions run. -/
  | frameBoundary (h : HalfId)
  /-- CHECKPOINT_RECEIVE (R25): The standby accepts a checkpoint as committed when its closing record arrives intact. -/
  | checkpointReceive (h : HalfId)
  /-- UMPIRE_VERDICT (R443): The Umpire compares an engine's warm-up output against the known output within tolerance and gives its verdict. -/
  | umpireVerdict (h : HalfId) (n : Nat) (out : List WarmElem)
  /-- SUBSTITUTE_RECEIVE (R450): The standby's Umpire receives SUBSTITUTE and its Captain restores from checkpoint k−2. -/
  | substituteReceive (h : HalfId)
  /-- GATE_CLOSED_RECEIVE (R442): GATE_CLOSED from the other half lets this half open its chain gates at the next control tick. -/
  | gateClosedReceive (h : HalfId)
  /-- COMPARE_RECORD_RECEIVE (R451): In MIRROR, the Umpires judge a pair of compare records against the comparison bands. -/
  | compareRecordReceive (h : HalfId)
  /-- COMPARE_RECORD_TIMEOUT (R451): A compare record missing 2 ms after the later commit counts as a mismatch. -/
  | compareRecordTimeout (h : HalfId)
  /-- CAPTAIN_HEARTBEAT_LOSS (R440): MBX_HEARTBEAT not incremented for 3 ms is a half fault. -/
  | captainHeartbeatLoss (h : HalfId) (falls : Bool)
  /-- REFCLK_FAILURE (R440): A reference clock that is absent or outside ±1,000 ppm is a half fault. -/
  | refclkFailure (h : HalfId) (falls : Bool)
  /-- SUPPLY_OUT_OF_WINDOW (R440): A switched-domain supply outside its window is a half fault. -/
  | supplyOutOfWindow (h : HalfId) (falls : Bool)
  /-- JUNCTION_OVERTEMP (R440): Both sensors of a pair above 118 °C for 10 ms is a half fault. -/
  | junctionOvertemp (h : HalfId) (falls : Bool)
  /-- HBM_OVERTEMP (R440): An HBM stack above 100 °C for 10 ms is a half fault. -/
  | hbmOvertemp (h : HalfId) (falls : Bool)
  /-- CAPTAIN_MEMORY_UE (R440): An uncorrectable error in the Captain's memory is a half fault. -/
  | captainMemoryUe (h : HalfId) (falls : Bool)
  /-- UMPIRE_SELF_FAILURE (R455): An Umpire lockstep disagreement, SRAM error or oscillator failure asserts KILL in hardware. -/
  | umpireSelfFailure (h : HalfId)
  /-- PAIR_LOCKSTEP_DISAGREE (R373): A real-time pair whose checkers disagree stops, closes its gate and tells the Umpire. -/
  | pairLockstepDisagree (h : HalfId) (pair : Nat) (falls : Bool)
  /-- UMPIRE_HEARTBEAT_RECEIVE (R441): A peer Umpire heartbeat arrives on the Handoff link or the management bus. -/
  | umpireHeartbeatReceive (h : HalfId) (bus : Bool)
  /-- PEER_LOSS (R441): No peer heartbeat on either path for 3 ms treats the other half as faulted. -/
  | peerLoss (h : HalfId)
  /-- FAULT_RECEIVE (R454): FAULT from the other half starts takeover, deadline mode and discard of dependent work. -/
  | faultReceive (h : HalfId)
  /-- GATE_PERMIT_EXPIRY (R442): A gate permit not refreshed for 2 ms closes the gate in hardware. -/
  | gatePermitExpiry (h : HalfId)
  /-- SELFTEST_SLICE (R457): A periodic self-test slice runs on an element when it ends before the element's next release. -/
  | selftestSlice (h : HalfId) (e : Nat) (ok : Bool) (pair : Nat) (falls : Bool)
  /-- SELFTEST_INTERVAL_MISSED (R458): An interval ending without a complete pass is missed, and after 10 misses the test is forced. -/
  | selftestIntervalMissed (h : HalfId) (e : Nat)
  /-- CALIBRATION_SLICE (R535): A live calibration slice trims a clock, sensor offset, pseudo-channel or module. -/
  | calibrationSlice (h : HalfId) (item target : Nat) (result : BitVec 64)
  /-- MEMORY_UE_DETECTED (R329): A read of an uncorrectable block logs the error and fails the consuming command with ST_DATA_LOST. -/
  | memoryUeDetected (h : HalfId) (by' : UeReader)
  /-- CORRECTED_ERROR (R327): A corrected error returns corrected data and rewrites the location, and repeats disable lines, retire frames or map out elements. -/
  | correctedError (h : HalfId) (site : CorrSite)
  /-- SRAM_UNCORRECTABLE (R332): An uncorrectable SRAM error is handled according to where it lies. -/
  | sramUncorrectable (h : HalfId) (site : SramSite)
  /-- SCRUB_READ (R326): A scrubber reads, corrects and rewrites a location, logging uncorrectable blocks. -/
  | scrubRead (h : HalfId) (stack frame block : Nat) (found : Scrub)
  /-- QOS_WINDOW_END (R355): At the end of each window, SERVED_BLOCKS is copied and classes that missed their guarantee are flagged. -/
  | qosWindowEnd (h : HalfId) (busy : BitVec 8)
  /-- PORT_TRANSACTION_REQUEST (R352): A master port issues a transaction or holds it when its class limit is reached. -/
  | portTransactionRequest (h : HalfId) (port blocks : Nat) (turn : QTurn) (cmd core : Option Nat)
  /-- PORT_TRANSACTION_COMPLETE (R352): A completion lowers the port's outstanding count and releases held transactions in order. -/
  | portTransactionComplete (h : HalfId) (turn : QTurn)
  /-- CAPTURE_WRITE (R208): A sensor capture is written to its ring's data slot and descriptor, then PRODUCED advances, or it is dropped when the entry is unconsumed. -/
  | captureWrite (h : HalfId) (c : Capture)
  /-- FORWARDED_CAPTURE_RECEIVE (R396): The receiving half writes a forwarded capture into its binding for the duplicated source. -/
  | forwardedCaptureReceive (h : HalfId)
  /-- ARRIVAL_MARK (R201): A PCIe endpoint's write to the mark address is captured as a timestamped arrival mark. -/
  | arrivalMark (h : HalfId)
  /-- PCIE_ENDPOINT_DMA (R426): DMA by an endpoint behind the root port is served in its mapped pages, or refused as a violation. -/
  | pcieEndpointDma (h : HalfId) (fn : BitVec 48) (req : EndpointReq)
  /-- SITE_DIE_WRITE (R382): A generic site die's write lands in a site window, or is dropped and logged. -/
  | siteDieWrite (h : HalfId) (ctx va : Nat) (data : List Byte)
  /-- SITE_DIE_FILL (R382): A generic site die fills a sync word in a window, ordered behind its earlier writes. -/
  | siteDieFill (h : HalfId) (ctx va : Nat) (v : BitVec 64)
  /-- ETH_RECEIVE_FRAME (R402): The MAC timestamps a received frame and passes it to gPTP, a flow, the bridge or a receive ring. -/
  | ethReceiveFrame (h : HalfId) (port : Nat) (frame : List Byte) (fcs : Bool) (t : Nat)
  /-- MAC_TRANSMIT (R401): The MAC reads the next owned transmit descriptor and sends the frame, or drops it at a closed gate. -/
  | macTransmit (h : HalfId) (port ring t : Nat)
  /-- GPTP_SYNC_RECEIVE (R415): A Sync on the slave port yields an offset measurement that adjusts the clock's rate, or is relayed as a bridge. -/
  | gptpSyncReceive (h : HalfId) (m : Ptp) (twoStep : Bool) (origin : Nat) (corr : Int)
  /-- GPTP_ANNOUNCE_RECEIVE (R418): An Announce feeds the best master clock algorithm and may change the grandmaster. -/
  | gptpAnnounceReceive (h : HalfId) (m : Ptp) (vec : Nat) (gm : BitVec 64) (steps : Nat)
  /-- GPTP_PDELAY_RECEIVE (R407): A Pdelay message is answered or used to measure the port's mean link delay. -/
  | gptpPdelayReceive (h : HalfId) (m : Ptp) (k : Pdelay)
  /-- GPTP_SYNC_TRANSMIT (R408): A master port sends a one-step Sync with its egress timestamp written as it departs. -/
  | gptpSyncTransmit (h : HalfId) (out : Departure)
  /-- SYNC_RECEIPT_TIMEOUT (R417): syncReceiptTimeout on the slave port loses the source and the clock free-runs. -/
  | syncReceiptTimeout (h : HalfId)
  /-- ANNOUNCE_RECEIPT_TIMEOUT (R418): announceReceiptTimeout lets the BMCA choose another slave port and grandmaster. -/
  | announceReceiptTimeout (h : HalfId) (port : Nat)
  /-- TIME_EXCHANGE (R416): Every 1 ms the follower half exchanges time with the lead over SAFETY and adjusts its rate. -/
  | timeExchange (h : HalfId) (ps : Int)
  /-- FOLLOWER_EXCHANGE_TIMEOUT (R417): No successful exchange for 3 ms makes the follower free-run. -/
  | followerExchangeTimeout (h : HalfId)
  /-- START_WAIT_EXPIRY (R414): START_WAIT passes without a clock step, letting the half report ready. -/
  | startWaitExpiry (h : HalfId)
  /-- HALF_READY (R414): A half reports ready once booted and its clock has stepped or START_WAIT has passed. -/
  | halfReady (h : HalfId)
  /-- MTIME_COMPARE (R371): A real-time pair takes its timer interrupt when mtime reaches mtimecmp. -/
  | mtimeCompare (h : HalfId) (pair : Nat) (cmp : BitVec 64)
  /-- MBX_HEARTBEAT_TICK (R34): The Captain increments MBX_HEARTBEAT every 1 ms. -/
  | mbxHeartbeatTick (h : HalfId)
  /-- FLIT_CRC_ERROR (R384): A flit that fails its CRC is discarded and replayed, and eight failed replays start a retrain. -/
  | flitCrcError (h : HalfId) (link : Nat) (again : Bool)
  /-- LANE_FAULT_DETECTED (R385): A lane with errors in 3 of 8 consecutive 1 ms intervals is faulty and a retrain starts. -/
  | laneFaultDetected (h : HalfId) (link lane : Nat) (rx bad : Bool)
  /-- SIDEBAND_LOSS (R389): Loss of a site's sideband starts a retrain of its link. -/
  | sidebandLoss (h : HalfId) (link : Nat)
  /-- RETRAIN_COMPLETE (R386): A retrain ends with the best width that the good lanes allow, or fails and after three failures leaves the link DOWN. -/
  | retrainComplete (h : HalfId) (link : Nat) (ok : Bool) (rate : Nat) (bad : List Nat) (die : List Byte)
  /-- TETHER_LINK_UP (R434): The Tether trains and each end sends its identity record and attestation report. -/
  | tetherLinkUp (h : HalfId) (rate : Nat) (bad : List Nat)
  /-- TETHER_IDENTITY_RECEIVE (R434): The peer's identity and report are checked and the peer is admitted as entry 11. -/
  | tetherIdentityReceive (h : HalfId) (serial : BitVec 64) (half : Nat) (report : List Byte)
  /-- PARTNER_ABSENT_TIMEOUT (R423): A partner with no sign of presence for its kind's period becomes ABSENT. -/
  | partnerAbsentTimeout (h : HalfId) (n : Nat)
  /-- QUARANTINE_RELEASE_TIMEOUT (R427): A quarantine ends automatically at RELEASE_TIME. -/
  | quarantineReleaseTimeout (h : HalfId) (n : Nat)
  /-- MGMT_ALERT_RESPONSE (R551): A tool's read of the alert response address releases MGMT_ALERT_N. -/
  | mgmtAlertResponse (h : HalfId)
  /-- TAP_INSTRUCTION (R485): A TAP instruction acts within the reach of the open debug level. -/
  | tapInstruction (h : HalfId) (op : TapOp)
  /-- POWER_SAMPLE (R500): Every 1 ms the half measures its power and holds it within its budget by lowering or restoring clocks. -/
  | powerSample (h : HalfId) (power : BitVec 16)
  /-- FORCED_DIM_RELEASE (R505): FORCED_DIM clears after the budget has exceeded power by 20 % for 1 s. -/
  | forcedDimRelease (h : HalfId)
  /-- THERMAL_LIMIT_UPDATE (R503): Every 10 ms the thermal limits and the slew-limited budget are recomputed. -/
  | thermalLimitUpdate (h : HalfId)
  /-- THETA_ESTIMATE (R502): Every 10 s the half updates its thermal resistance estimates. -/
  | thetaEstimate (h : HalfId) (p tj tm tin : Int)
  /-- THETA_PROBE (R502): After 600 s without a usable interval, the budget is raised by 15 W for 10 s. -/
  | thetaProbe (h : HalfId)
  /-- TEMPERATURE_SAMPLE (R507): Every 1 ms each hot-spot sensor and stack sensor is read and the temperature responses are applied. -/
  | temperatureSample (h : HalfId) (pairs : List (BitVec 16 × BitVec 16)) (stks : List (BitVec 16))
  /-- COOLANT_REPORT_TIMEOUT (R510): No coolant report for 3 s sets the stale event and T_IN to +65 °C. -/
  | coolantReportTimeout (h : HalfId)
  /-- DOMAIN_POWER_GOOD (R494): A switched domain reports power-good and its resets are released. -/
  | domainPowerGood (h : HalfId) (d : Nat)
  /-- WAKE_PIN (R498): WAKE_x held high for 1 ms wakes a half in HIBERNATE or OFF. -/
  | wakePin (h : HalfId)
  /-- WAKE_TIMER_EXPIRY (R498): Expiry of WAKE_AFTER_MS wakes a half in HIBERNATE or OFF. -/
  | wakeTimerExpiry (h : HalfId)
  /-- PEER_WAKE (R498): A pulse on the peer wake line wakes a half in HIBERNATE or OFF. -/
  | peerWake (h : HalfId)
  /-- DEVICE_POWER_ON (R544): The rise of PWR_OK starts device power-on, and each half releases KILL and boots. -/
  | devicePowerOn (lifeA umpA lifeB umpB : Bool)
  /-- PWR_OK_FALL (R546): PWR_OK low for more than 10 µs stops both halves at once. -/
  | pwrOkFall
  /-- HALF_RESET_ASSERT (R549): RST_x_N low for 1 µs or longer holds the half in reset. -/
  | halfResetAssert (h : HalfId)
  /-- HALF_RESET_RELEASE (R549): The rising edge of RST_x_N boots the half from step 1 of the boot chain. -/
  | halfResetRelease (h : HalfId) (lifeOk umpOk : Bool)
  /-- FIELD_DEBUG_TIME_SAVE (R483): Every 60 s in FIELD-DEBUG, the remaining time is written to MRAM. -/
  | fieldDebugTimeSave (h : HalfId)
  /-- FIELD_DEBUG_EXPIRY (R483): When FIELD-DEBUG time runs out, both halves return to FIELD at the next frame boundary. -/
  | fieldDebugExpiry (h : HalfId)
  /-- DEBUG_LEVEL_EXPIRY (R488): An open debug level ends when DURATION_S runs out, and INVASIVE ends with a half reset. -/
  | debugLevelExpiry (h : HalfId)
  /-- UPLOAD_STAGE_IDLE_TIMEOUT (R481): An upload stage idle for 10 s is emptied. -/
  | uploadStageIdleTimeout (h : HalfId)
  /-- TRANSFER_STAGE_IDLE_TIMEOUT (R520): A transfer stage idle for 10 s is emptied. -/
  | transferStageIdleTimeout (h : HalfId)
  /-- ATTEST_BUCKET_REFILL (R480): The attestation bucket regains one report each second, up to 16. -/
  | attestBucketRefill (h : HalfId)
  /-- TREE_GENERATION_COMPLETE (R469): The background generation of the next level-1 signing tree finishes. -/
  | treeGenerationComplete (h : HalfId)
  /-- KEYGEN_COMPLETE (R482): A half finishes generating its device key in MANUFACTURE. -/
  | keygenComplete (h : HalfId)
  /-- ETH_LINK_CHANGE (R417): An Ethernet port's link goes up or down, updating LINK_UP and losing the gPTP source when it was the slave port. -/
  | ethLinkChange (h : HalfId) (port : Nat) (up : Bool)
  /-- ROOT_PORT_LINK_DOWN (R423): The PCIe root-port link goes down or its endpoint is surprise-removed, and the function's partner entry becomes ABSENT. -/
  | rootPortLinkDown (h : HalfId) (fn : Option (BitVec 48))
  /-- TETHER_LINK_DOWN (R423): The Tether link goes down, the peer becomes ABSENT and remote operations on the Tether complete with ST_DISCARDED. -/
  | tetherLinkDown (h : HalfId)
  /-- GPTP_FOLLOW_UP_RECEIVE (R407): A Follow_Up from a two-step master completes the Sync measurement and feeds the clock. -/
  | gptpFollowUpReceive (h : HalfId) (m : Ptp) (origin : Nat) (corr : Int)
  /-- PDELAY_REQ_TRANSMIT (R407): Each gPTP port sends a Pdelay_Req at its logPdelayReqInterval. -/
  | pdelayReqTransmit (h : HalfId) (port t : Nat)
  /-- ANNOUNCE_TRANSMIT (R407): A master gPTP port sends an Announce at its logAnnounceInterval. -/
  | announceTransmit (h : HalfId) (port : Nat)
  /-- UMPIRE_HEARTBEAT_SEND (R441): Every 1 ms each Umpire sends its heartbeat on the Handoff SAFETY channel and the management bus. -/
  | umpireHeartbeatSend (h : HalfId)
  /-- GATE_PERMIT_REFRESH (R442): The Umpire refreshes the permit of each open actuator gate at least every 1 ms. -/
  | gatePermitRefresh (h : HalfId)
  /-- SUBSYSTEM_RESET_COMPLETE (R512): A subsystem reset ends within 10 ms and the subsystem resumes, cluster cores restarting in the core monitor. -/
  | subsystemResetComplete (h : HalfId) (code : Nat)
  /-- FRAME_MOVE_COMPLETE (R331): The Captain finishes copying a retired frame, repoints its mappings, logs the retirement and releases commands waiting at translation. -/
  | frameMoveComplete (h : HalfId)
  /-- LINK_RECOVERY_CAUSE_CLEAR (R350): Deadline-mode cause 4 clears 1 ms after a retrain completes. -/
  | linkRecoveryCauseClear (h : HalfId)
  /-- BRIDGE_FRAME_RECEIVE (R409): A bridged Ethernet frame arrives from the other half over the Handoff BULK channel and is forwarded to this half's bridge ports or stack. -/
  | bridgeFrameReceive (h : HalfId)
  /-- MGMT_BUS_FRAMING_ERROR (R426): A management-bus framing error is NAKed on the bus and counted against the tool as class 0x09. -/
  | mgmtBusFramingError (h : HalfId) (tool : Nat)
  deriving DecidableEq, Repr

end Sys2Proof
end

