-- ==== Sys2Proof/Config.lean ====
section
/-! DEFINITION. What the spec leaves open, as opaque constants: nothing in Lean can evaluate them, so a statement about them
holds whatever the hardware does (log 3, 8, 10 to 13). A first argument called seed is the half's counter of free values, so
that each use is a fresh value. -/

namespace Sys2Proof.Config

/-- A RETRY_AFTER that no rule gives, before the floor of 100 µs (spec/02_captain_and_mailboxes.md R41). -/
opaque retryAfter : (seed : Nat) → Nat

/-- The outbound PAYLOAD_LENGTH, which no rule gives (spec/02_captain_and_mailboxes.md R37). -/
opaque outLength : (seed : Nat) → Nat

/-- A value of `bits` bits on which the spec is silent. -/
opaque freeNat : (seed bits : Nat) → Nat

/-- A value of `bits` bits on which the spec is silent, one for each element of a command's work. -/
opaque elemNat : (seed elem bits : Nat) → Nat

/-- The place of term i in the order in which an accumulator takes its terms, which is not specified
(spec/03_arithmetic_formats.md R79). -/
opaque orderKey : (seed elem i : Nat) → Nat

/-- The version of a die's firmware, by its image kind, that an accepted base configuration image names
(spec/15_die_to_die_links.md R381). -/
opaque dieVersion : (base : List (BitVec 8)) → (kind : Nat) → Nat

/-- The hash that indexes the frequency sketch of the hot-row directory (spec/07_gather_engine.md R191). -/
opaque hotHash : (ctx va frame : Nat) → Nat

/-- The fixed hash by which a 256-byte block of physical address is homed, as a place among the slices in service
(spec/12_memory_system.md R314). -/
opaque homePlace : (block256 : Nat) → (slices : List Nat) → Nat

/-- The set of a slice's general cache in which a 64-byte block of physical address lies (spec/12_memory_system.md R316). -/
opaque cacheSet : (slice block : Nat) → Nat

/-- The place, among the slices in service, of entry i of an admitted row (spec/07_gather_engine.md R190). -/
opaque hotSlice : (ctx va i : Nat) → Nat

/-- What the header of a JPEG picture says (spec/08_input_pipeline.md R214, R219). -/
structure JpegInfo where
  /-- The header breaks the syntax of ISO/IEC 10918-1. -/
  bad : Bool
  /-- Second byte of the frame's SOF marker: 0xC0 is baseline sequential DCT, Huffman-coded. -/
  sof : Nat
  /-- Sample precision. -/
  precision : Nat
  /-- Width. -/
  w : Nat
  /-- Height. -/
  h : Nat
  /-- Sampling factors (horizontal, vertical) of each component. -/
  sampling : List (Nat × Nat)
  deriving DecidableEq, Repr, Inhabited

/-- What the parameter sets that apply to an H.265 access unit say (R214, R219, R220). -/
structure H265Info where
  /-- The access unit or its parameter sets break the syntax of ITU-T H.265. -/
  bad : Bool
  /-- The access unit is an IRAP picture. -/
  irap : Bool
  /-- Width. -/
  w : Nat
  /-- Height. -/
  h : Nat
  /-- chroma_format_idc: 0 is 4:0:0 and 1 is 4:2:0. -/
  chroma : Nat
  /-- general_profile_idc: 1 is Main and 2 is Main 10. -/
  profile : Nat
  /-- general_level_idc: 30 times the level. -/
  level : Nat
  /-- Bit depth. -/
  depth : Nat
  /-- sps_max_dec_pic_buffering_minus1 + 1. -/
  buffers : Nat
  deriving DecidableEq, Repr, Inhabited

/-- The header of a JPEG picture, parsed by ISO/IEC 10918-1. -/
opaque jpegHeader : List (BitVec 8) → JpegInfo

/-- The entropy-coded data of a JPEG picture break its syntax. -/
opaque jpegBad : List (BitVec 8) → Bool

/-- The code of a component of a JPEG picture at an index of its plane, in raster order at its own resolution. -/
opaque jpegCode : List (BitVec 8) → (comp idx : Nat) → Nat

/-- The headers that RFC 2435 makes from the payload headers of the first packet of an image (R202). -/
opaque jpegHeaders : List (BitVec 8) → List (BitVec 8)

/-- What the parameter sets say that apply to an access unit, those of the decode state's header among them. -/
opaque h265Header : (head au : List (BitVec 8)) → H265Info

/-- The slice data of an access unit break their syntax against the decode state's header and reference pictures. -/
opaque h265Bad : (head refs au : List (BitVec 8)) → Bool

/-- The code of a component of the picture that an access unit decodes to, at an index of its plane. -/
opaque h265Code : (head refs au : List (BitVec 8)) → (comp idx : Nat) → Nat

/-- The reference picture that decoding an access unit writes into the decode state: offsets and bytes (R227). -/
opaque h265Refs : (head refs au : List (BitVec 8)) → List (Nat × List (BitVec 8))

/-- The header of the decode state after an access unit (R227). -/
opaque h265Head : (head refs au : List (BitVec 8)) → List (BitVec 8)

/-- A decode state with this header references the byte at an offset (R227). -/
opaque h265Keeps : (head : List (BitVec 8)) → (off : Nat) → Bool

/-- Cosine of an FP32 angle in rad, as an FP32 code; no rule gives its exactness. -/
opaque cosFp : Nat → Nat

/-- Sine of an FP32 angle in rad, as an FP32 code. -/
opaque sinFp : Nat → Nat

/-- Angle of a vector given by the FP32 codes of its y and x components, as an FP32 code. -/
opaque atan2Fp : (y x : Nat) → Nat

/-- A state block predicted from one time to another under the constant-turn-rate-and-velocity model and written in the ego frame of
the later time, by the committed TOVs and the ego-motion of each step, the newest first (spec/09_fusion_engine.md R242). -/
opaque trackPredict : BitVec 544 → (since upto : Nat) → (tovs : List Nat) → (motions : List (BitVec 192)) → BitVec 544

/-- A state block after the unscented Kalman filter's update with a measurement of the sensor whose entry is given (R242). -/
opaque trackUpdate : BitVec 544 → (meas : BitVec 768) → (sensor : BitVec 512) → BitVec 544

/-- The state block of a track that a measurement starts (R242). -/
opaque trackBirth : (meas : BitVec 768) → (sensor : BitVec 512) → BitVec 544

/-- Probability of class k, an FP32 code, after a measurement that names a class with a confidence; none before a track's first
(R242). -/
opaque classProb : (old : List (BitVec 32)) → (cls conf k : Nat) → Nat

/-- Existence probability of a track, an FP32 code, after a measurement with an EXISTENCE; none before the track's first (R242). -/
opaque existHit : (old : Option (BitVec 32)) → (detection : Nat) → Nat

/-- Existence probability of a track after a list whose sensor should have seen it and did not (R237). -/
opaque existMiss : (old : BitVec 32) → Nat

/-- The motion of the ego frame over a step and its velocity at TOV, from the STATIC tracks, the measurements and the registration of
the scan against the stored one (spec/09_fusion_engine.md R247). -/
opaque egoMotion : (since upto : Nat) → (statics : List (BitVec 544)) → (meas : List (BitVec 768)) → (scan stored : List (BitVec 8)) →
  BitVec 256

/-- Inlier points of the registration of a scan against the stored one (R247). -/
opaque scanInliers : (scan stored : List (BitVec 8)) → Nat

/-- Displacement x and y, FP32 codes, over a time in ns at a held velocity and yaw rate (R247). -/
opaque egoArc : (v : BitVec 32) → (w : BitVec 32) → (dt : Nat) → Nat × Nat

/-- Sample of attempt `tries` of the planner's search: a number that draws it (spec/10_motion_planning.md R269). -/
opaque planDraw : (seed : BitVec 32) → (planSeq : BitVec 32) → (tries : Nat) → Nat

/-- A route point ahead of a plan point, by a draw: the FP32 codes of x and y (R267). -/
opaque routeAhead : (route : List (BitVec 128)) → (point : BitVec 256) → (draw : Nat) → Nat × Nat

/-- A position reachable from a plan point within the parameters, by a draw (R267). -/
opaque reachable : (param : BitVec 1024) → (point : BitVec 256) → (draw : Nat) → Nat × Nat

/-- Acceleration and curvature, FP32 codes, of the primitive from a plan point toward a position (R267). -/
opaque steer : (param : BitVec 1024) → (point : BitVec 256) → (target : Nat × Nat) → Nat × Nat

/-- The primitives that a number of iterations of trajectory optimisation make of a branch (R268). -/
opaque refine : (param : BitVec 1024) → (route : List (BitVec 128)) → (root : BitVec 256) → List (BitVec 64) → (iters : Nat) →
  List (BitVec 64)

/-- Route length, an FP32 code, that lies beyond a position (R268). -/
opaque routeLeft : (route : List (BitVec 128)) → (x y : Nat) → Nat

/-- V_LIMIT, an FP32 code, that the route gives a position (R261). -/
opaque routeLimit : (route : List (BitVec 128)) → (x y : Nat) → Nat

/-- Standard deviation, an FP32 code, of a state block's position along (0) or across (1) its box after a time in µs (R266). -/
opaque spread : BitVec 544 → (us axis : Nat) → Nat

/-- Clearance, an FP32 code in m, of a swept box from a list of boxes; a box is the FP32 codes of its fields (R268). -/
opaque clearance : (box : List Nat) → (others : List (List Nat)) → Nat

/-- Nirlevan's vendor identifier assigned by the PCI-SIG (spec/15_die_to_die_links.md R380). -/
opaque nirlevanVendor : Nat

/-- An attestation report with its certificate verifies (spec/19_security_debug_power.md R478). -/
opaque reportVerifies : List (BitVec 8) → Bool

/-- The half's own MAC address (spec/16_time_and_ethernet.md R409). -/
opaque ownMac : (half : Nat) → Nat

/-- What the half's own clock announces below priority1, clockClass and clockAccuracy (spec/16_time_and_ethernet.md R407). -/
opaque ownClock : (half : Nat) → Nat

/-- SHA-256 (spec/19_security_debug_power.md R466). -/
opaque sha256 : List (BitVec 8) → BitVec 256

/-- An HSS signature over a message verifies under a public key (R468). -/
opaque hssVerify : (key : BitVec 480) → (msg sig : List (BitVec 8)) → Bool

/-- An HSS public key or signature carries the type codes of Table — HSS parameters (R468). -/
opaque hssTypes : List (BitVec 8) → Bool

/-- Root public keys 0 and 1 in the security block's boot ROM (R466). -/
opaque rootKey : (n : Nat) → BitVec 480

/-- The device key that a half generates (R469, R482). -/
opaque deviceKey : (seed : Nat) → BitVec 480

/-- The HSS signature that a half's device key makes with a leaf, 3,284 bytes (R468, R469). -/
opaque hssSign : (key : BitVec 480) → (leaf : Nat) → List (BitVec 8) → List (BitVec 8)

/-- The records of a base configuration image: key and value (spec/21_configuration_and_update.md R516, R518). -/
opaque baseRecords : List (BitVec 8) → List (Nat × List (BitVec 8))

/-- The configuration mode that a base image names (R516), taken modulo six. -/
opaque baseMode : List (BitVec 8) → Nat

/-- The device mode that the base image and its active overlays name for power-on (spec/01_two_halves.md R28). -/
opaque bootMode : (records : List (Nat × List (BitVec 8))) → DevMode

/-- A key below its group is one that the group defines, and its value lies within the item's range (R518, R521). -/
opaque itemKnown : (key : Nat) → Bool

/-- The value of a known key lies within the item's range. -/
opaque itemInRange : (key : Nat) → (value : List (BitVec 8)) → Bool

/-- The control-loop state that a frame checkpoint carries, from the memory of the loop pair (spec/01_two_halves.md R25). -/
opaque loopState : (seed : Nat) → List (Nat × BitVec 8) → List (BitVec 8)

/-- The serial number that manufacture wrote (spec/00_scope.md R4), which the spec gives no value. -/
opaque serial : BitVec 64

end Sys2Proof.Config
end

