-- ==== Sys2Proof/Machine/State.lean ====
section
/-! DEFINITION. The machine's state as plain data: every register, table, queue, counter, mode and pin that the
spec gives the block, with its value at reset. Each field's docstring names the chapter of spec/ and the rule that
gives it; INVENTORY.md lists the same fields with their widths and reset values. -/

namespace Sys2Proof.Machine

/-- What the last access from outside that has an answer was answered; commands that have none leave it. (01 R18, R23, 19 R485) -/
inductive Resp where
  /-- no access yet, or a TAP instruction without effect -/
  | none
  /-- the store was accepted -/
  | ok
  /-- the load's data -/
  | data (v : Nat)
  /-- a bus error was returned to the core -/
  | busError
  /-- an access fault was returned to the core -/
  | accessFault
  /-- the store was dropped -/
  | dropped
  deriving DecidableEq, Repr, Inhabited

/-- Fields the Captain fills at boot for SYS_IDENTIFY. (00 R4) -/
structure Ident where
  /-- CAPTAIN_FW, running Captain firmware version. (00 R4) -/
  captainFw : BitVec 32 := 0
  /-- BASE_IMAGE, accepted base configuration image version. (00 R4) -/
  baseImage : BitVec 32 := 0
  deriving DecidableEq, Repr, Inhabited

/-- MBX_STATE of a mailbox slot. (02 R34, R35) -/
inductive SlotState where
  /-- 0 FREE -/
  | free
  /-- 1 OWNED -/
  | owned
  /-- 2 POSTED -/
  | posted
  /-- 3 ACKED -/
  | acked
  /-- 4 DONE -/
  | done
  deriving DecidableEq, Repr, Inhabited

/-- One mailbox slot. (02 R34) -/
structure Slot where
  /-- MBX_IN, the inbound message. (02 R34) -/
  inb : BitVec 512 := 0
  /-- MBX_OUT, the outbound message. (02 R34) -/
  outb : BitVec 512 := 0
  /-- MBX_OWNER_VALID. (02 R34) -/
  ownerValid : Bool := false
  /-- MBX_OWNER_CLIENT. (02 R34) -/
  ownerClient : BitVec 8 := 0
  /-- MBX_LAST_SEQ. (02 R34) -/
  lastSeq : BitVec 32 := 0
  /-- MBX_STATE. (02 R34) -/
  st : SlotState := .free
  /-- The slot was posted from DONE, so a repeat of OPCODE and SEQUENCE is a replay. (02 R45) -/
  fromDone : Bool := false
  /-- The application core that last rang MBX_DOORBELL of this slot. (14 R368, R375) -/
  core : Nat := 0
  /-- Bus address of the tool that last claimed or posted the slot. (17 R426) -/
  tool : Nat := 0
  /-- The Captain is executing the message and it waits for a boundary, a link or a boot (stays ACKED). (02 R44) -/
  started : Bool := false
  /-- The owner was released: the slot goes FREE once its message has completed. (02 R36) -/
  freeOnDone : Bool := false
  /-- A message marked long has started and waits for a frame boundary, so it does not count toward the four. (02 R44) -/
  waits : Bool := false
  /-- Local time of the doorbell that posted the message. (21 R522) -/
  rung : Nat := 0
  deriving DecidableEq, Repr, Inhabited

/-- The mailbox block. (02 R33, R34) -/
structure Mbx where
  /-- Mailbox slots 0-63. (02 R33) -/
  slots : List Slot := List.replicate 64 {}
  /-- MBX_IRQ_STATUS (W1C). (02 R34) -/
  irqStatus : BitVec 64 := 0
  /-- MBX_IRQ_ENABLE. (02 R34) -/
  irqEnable : BitVec 64 := 0
  /-- MBX_HEARTBEAT. (02 R34) -/
  heartbeat : BitVec 64 := 0
  /-- Slots POSTED and not yet taken, in the order their doorbells arrived. (02 R43) -/
  posted : List Nat := []
  /-- Slots ACKED and not finished, in the order the Captain took them. (02 R43) -/
  acked : List Nat := []
  /-- The half asserts MGMT_ALERT_N. (22 R551) -/
  alert : Bool := false
  /-- Requests answered with ST_BUSY whose RETRY_AFTER has not passed: (the request, local time from which it may be re-issued). (02 R64) -/
  holds : List (Nat × Nat) := []
  deriving DecidableEq, Repr, Inhabited

/-- One registered client. (02 R50, 11 R299) -/
structure Client where
  /-- Client ID 0-255. (02 R50) -/
  id : Nat := 0
  /-- MAX_CONTEXTS quota. (02 R50) -/
  maxCtx : Nat := 0
  /-- MAX_QUEUES quota. (02 R50) -/
  maxQ : Nat := 0
  /-- Jobs submitted. (11 R299) -/
  submitted : BitVec 64 := 0
  /-- Jobs completed. (11 R299) -/
  completed : BitVec 64 := 0
  /-- Jobs killed. (11 R299) -/
  killed : BitVec 64 := 0
  /-- Jobs discarded. (11 R299) -/
  discarded : BitVec 64 := 0
  /-- Core that last stored to the client's doorbell page. (14 R374) -/
  lastCore : Option Nat := none
  deriving DecidableEq, Repr, Inhabited

/-- One command queue. (02 R52, R54) -/
structure Queue where
  /-- QUEUE_ID. (02 R52) -/
  id : Nat := 0
  /-- Owning context. (02 R52) -/
  ctx : Nat := 0
  /-- CMD_RING_VA. (02 R52) -/
  cmdRing : Nat := 0
  /-- CPL_RING_VA. (02 R52) -/
  cplRing : Nat := 0
  /-- HEADER_VA. (02 R52) -/
  header : Nat := 0
  /-- LOG2_ENTRIES. (02 R52) -/
  log2 : Nat := 4
  /-- Free-running tail given by the last doorbell. (02 R54) -/
  tail : BitVec 32 := 0
  /-- CMD_HEAD, descriptors fetched. (02 R54) -/
  cmdHead : BitVec 32 := 0
  /-- Last value of CPL_HEAD that the part read. (02 R54, R556) -/
  cplHead : BitVec 32 := 0
  /-- Completion records written. (02 R62) -/
  written : BitVec 32 := 0
  /-- Direct doorbell bound to the queue. (02 R57) -/
  doorbell : Option Nat := none
  deriving DecidableEq, Repr, Inhabited

/-- ENG_STATE. (04 R114) -/
inductive EngState where
  /-- 0 OFF -/
  | off
  /-- 1 SPARE -/
  | spare
  /-- 2 ACTIVE -/
  | active
  /-- 3 QUICK -/
  | quick
  /-- 4 DRAINING -/
  | draining
  /-- 5 RESETTING -/
  | resetting
  /-- 6 RETIRED -/
  | retired
  deriving DecidableEq, Repr, Inhabited

/-- One tensor engine and its status window. (04 R90, R114) -/
structure Engine where
  /-- ENG_NUMBER; ENG_DIE is num / 9. (04 R114) -/
  num : Nat := 0
  /-- ENG_STATE. (04 R114) -/
  st : EngState := .off
  /-- ENG_SLOT, the microcode slot the engine runs. (04 R114) -/
  slotB : Bool := false
  /-- ENG_MICROCODE. (04 R114) -/
  microcode : BitVec 32 := 0
  /-- ENG_CLOCK_MHZ. (04 R114) -/
  clockMhz : BitVec 16 := 0
  /-- ENG_COMMITS. (04 R114) -/
  commits : BitVec 64 := 0
  /-- ENG_SLOW_FRAMES. (04 R114) -/
  slowFrames : BitVec 8 := 0
  /-- ENG_RELATIVE. (04 R114) -/
  relative : BitVec 16 := 0
  /-- ENG_LAST_DISAGREE. (04 R114) -/
  lastDisagree : BitVec 32 := 0
  /-- ENG_DISAGREE_VALID. (04 R114) -/
  disagreeValid : Bool := false
  /-- ENG_WARMUP, last verdict. (04 R114) -/
  warmup : BitVec 2 := 0
  /-- ENG_SCRATCH_UE. (04 R114) -/
  scratchUE : BitVec 32 := 0
  /-- ENG_SCRATCH_CE. (04 R114) -/
  scratchCE : BitVec 32 := 0
  /-- Dispatch credit in 1/1024. (11 R302) -/
  credit : Nat := 1024
  /-- ENG_RELATIVE has been measured since the half reset. (11 R301) -/
  measRelative : Bool := false
  /-- The warm-up of the current frame is issued and has not yet run. (11 R292) -/
  wantWarmup : Bool := false
  /-- A warm-up run or slice occupies the engine. (04 R124) -/
  warmRunning : Bool := false
  /-- The remaining Quick lane slices are forced. (04 R124) -/
  warmForced : Bool := false
  /-- Warm-up slices completed in the current frame (Quick lane). (04 R124) -/
  warmSlices : Nat := 0
  /-- The warm-up of the frame has run and awaits the verdict. (18 R443) -/
  warmDone : Bool := false
  /-- The engine has passed the warm-up of the current frame. (11 R292) -/
  passedFrame : Bool := false
  /-- State it returns to when its reset ends. (04 R113) -/
  back : EngState := .active
  /-- The engine reruns its warm-up after a reset or a microcode load before it takes work. (04 R113) -/
  rerunNext : Bool := false
  deriving DecidableEq, Repr, Inhabited

/-- One registered KV pool. (06 R153) -/
structure Pool where
  /-- Owning context. (06 R153) -/
  ctx : Nat := 0
  /-- Pool descriptor address that names it. (06 R153) -/
  va : Nat := 0
  /-- HDR_BASE_VA. (06 R151) -/
  hdr : Nat := 0
  /-- DATA_BASE_VA. (06 R151) -/
  data : Nat := 0
  /-- INDEX_BASE_VA. (06 R151) -/
  index : Nat := 0
  /-- FREE_MAP_VA. (06 R151) -/
  freeMap : Nat := 0
  /-- PAGES. (06 R151) -/
  pages : Nat := 0
  /-- HEAD_DIM. (06 R151) -/
  d : Nat := 0
  /-- K_FORMAT. (06 R151) -/
  kFmt : Nat := 0
  /-- V_FORMAT. (06 R151) -/
  vFmt : Nat := 0
  /-- Free count kept on-die. (06 R153) -/
  free : Nat := 0
  /-- Allocation state kept on-die: the pages that are in use. (06 R153) -/
  used : List Nat := []
  deriving DecidableEq, Repr, Inhabited

/-- One row admitted to the hot-row directory. (07 R190) -/
structure HotEntry where
  /-- Admitting context. (07 R190) -/
  ctx : Nat := 0
  /-- Virtual address of the table row. (07 R190) -/
  va : Nat := 0
  /-- The mapping (physical frame) of the row at admission. (07 R190) -/
  frame : Nat := 0
  /-- Row bytes including scale bytes; ceil(len/256) entries. (07 R190) -/
  len : Nat := 0
  /-- Virtual address of the row's scale bytes, of an MX table. (07 R193) -/
  sva : Nat := 0
  /-- Scale bytes of the row, of an MX table. (07 R193) -/
  slen : Nat := 0
  /-- Tile-cache slices that hold the data. (12 R315) -/
  slices : List Nat := []
  /-- Partition. (07 R192) -/
  part : Nat := 0
  /-- Hit since the clock sweep's last visit. (07 R191) -/
  hit : Bool := false
  deriving DecidableEq, Repr, Inhabited

/-- The hot-row directory. (07 R190) -/
structure HotDir where
  /-- Admitted rows in clock order, from the clock hand on. (07 R190, R194) -/
  entries : List HotEntry := []
  /-- Nonzero frequency counters by index. (07 R191) -/
  sketch : List (Nat × Nat) := []
  /-- Lookups since the counters were last halved. (07 R191) -/
  lookups : Nat := 0
  deriving DecidableEq, Repr, Inhabited

/-- One ingest binding. (08 R205) -/
structure Binding where
  /-- Binding number. (08 R204) -/
  num : Nat := 0
  /-- Owning context. (08 R205) -/
  ctx : Nat := 0
  /-- SOURCE. (08 R205) -/
  source : Nat := 0
  /-- RING_VA. (08 R205) -/
  ring : Nat := 0
  /-- DATA_VA. (08 R205) -/
  data : Nat := 0
  /-- SLOT_BYTES. (08 R206) -/
  slotBytes : Nat := 0
  /-- LOG2_ENTRIES. (08 R205) -/
  log2 : Nat := 0
  /-- SELECT. (08 R205) -/
  select : Nat := 0
  /-- FORWARD. (08 R209) -/
  forward : Bool := false
  /-- STATE_VA of the H.265 decode state (0 none). (08 R205) -/
  stateVa : Nat := 0
  /-- STATE_BYTES. (08 R205) -/
  stateBytes : Nat := 0
  /-- PRODUCED. (08 R206) -/
  produced : BitVec 32 := 0
  /-- DROPPED. (08 R206) -/
  dropped : BitVec 32 := 0
  /-- DROPPED at the previous entry (for DROPPED_BEFORE). (08 R206) -/
  droppedLast : BitVec 32 := 0
  /-- CAPTURE_SEQ of the last access unit decoded. (08 R226) -/
  lastAu : Option Nat := none
  /-- The stream awaits an IRAP picture. (08 R226) -/
  awaitIrap : Bool := true
  deriving DecidableEq, Repr, Inhabited

/-- An outstanding software-decode request. (08 R222) -/
structure SwReq where
  /-- Ring entry. (08 R222) -/
  entry : Nat := 0
  /-- The batch command. (08 R221) -/
  cmd : Nat := 0
  /-- The batch slot. (08 R221) -/
  slot : Nat := 0
  /-- Time of posting. (08 R225) -/
  postedAt : Nat := 0
  /-- DEADLINE. (08 R222) -/
  deadline : Nat := 0
  /-- Its slot has already been made defective. (08 R223) -/
  overdue : Bool := false
  deriving DecidableEq, Repr, Inhabited

/-- The attached software decode service. (08 R222) -/
structure SwDec where
  /-- Service context. (08 R222) -/
  ctx : Nat := 0
  /-- Service queue whose interrupt is raised. (08 R222) -/
  queue : Nat := 0
  /-- RING_VA. (08 R222) -/
  ring : Nat := 0
  /-- SLOT_VA. (08 R222) -/
  slotVa : Nat := 0
  /-- SLOT_BYTES. (08 R222) -/
  slotBytes : Nat := 0
  /-- LOG2_ENTRIES. (08 R222) -/
  log2 : Nat := 4
  /-- Requests posted since attach (next entry and PHASE). (08 R222) -/
  posted : Nat := 0
  /-- Outstanding requests. (08 R222) -/
  reqs : List SwReq := []
  deriving DecidableEq, Repr, Inhabited

/-- Component planes of a decoded picture or of raw data. (08 R215) -/
structure Picture where
  /-- Width of the component planes. (08 R215) -/
  w : Nat := 0
  /-- Height. (08 R215) -/
  h : Nat := 0
  /-- Bit depth b. (08 R215) -/
  depth : Nat := 8
  /-- Codes, one list per component in raster order. (08 R215) -/
  comps : List (List Nat) := []
  deriving DecidableEq, Repr, Inhabited

/-- Where a batch slot stands. (08 R221, R224) -/
inductive SlotPlace where
  /-- in the hardware decode queue -/
  | hwQueued
  /-- posted on the software path -/
  | swPosted
  /-- decoded or raw, waiting for commit -/
  | ready
  /-- defective, with its sample status and REASON -/
  | defect (status : Nat) (reason : Nat)
  deriving DecidableEq, Repr, Inhabited

/-- One slot of a started batch. (08 R221) -/
structure BatchSlot where
  /-- Its place. (08 R221) -/
  place : SlotPlace := .ready
  /-- SW_PATH. (08 R212) -/
  sw : Bool := false
  /-- DATA_KIND. (08 R206) -/
  kind : Nat := 0
  /-- Binding of a capture or of an H.265 stream. (08 R211) -/
  binding : Option Nat := none
  /-- Capture-ring entry that the slot pins. (08 R207) -/
  entry : Option Nat := none
  /-- CAPTURE_SEQ of the access unit. (08 R226) -/
  au : Nat := 0
  /-- Capture time for the time array. (08 R210) -/
  time : BitVec 64 := 0
  /-- Source bytes read at start. (08 R219) -/
  data : List (BitVec 8) := []
  /-- The picture once decoded. (08 R215) -/
  pic : Picture := {}
  /-- The sample record read at start. (08 R211) -/
  sample : BitVec 1536 := 0
  /-- Local time at which a decode engine took it. (08 R225) -/
  since : Option Nat := none
  deriving DecidableEq, Repr, Inhabited

/-- One started batch. (08 R210) -/
structure Batch where
  /-- The command. (08 R220) -/
  cmd : Nat := 0
  /-- Slots in slot order. (08 R220) -/
  slots : List BatchSlot := []
  /-- HW_BUDGET_US. (08 R212) -/
  hwBudget : Nat := 0
  /-- SW_BUDGET_US. (08 R212) -/
  swBudget : Nat := 0
  /-- H265_BUDGET_US. (08 R212) -/
  h265Budget : Nat := 0
  /-- Parameter block read at start. (08 R211) -/
  param : BitVec 1024 := 0
  /-- Output tensor descriptor read at start. (08 R212) -/
  dst : BitVec 512 := 0
  /-- Headers of the decode states that its commit writes, by binding number. (08 R227) -/
  heads : List (Nat × List (BitVec 8)) := []
  deriving DecidableEq, Repr, Inhabited

/-- The packets of a flow's image or access unit that have arrived. (08 R202) -/
structure FlowAsm where
  /-- Source ID of the flow. (08 R201) -/
  source : Nat := 0
  /-- Format code of SELECT. (08 R205) -/
  select : Nat := 0
  /-- Ingress timestamp of the first packet in ns, with the port's asymmetry applied. (08 R201) -/
  time : Nat := 0
  /-- RTP timestamp or IEEE 1722 presentation time. (08 R206) -/
  mediaTs : Nat := 0
  /-- Sequence number of the last packet. (08 R202) -/
  seq : Nat := 0
  /-- A packet is missing. (08 R206) -/
  cut : Bool := false
  /-- Data so far. (08 R202) -/
  data : List (BitVec 8) := []
  deriving DecidableEq, Repr, Inhabited

/-- The input pipeline. (08 R201) -/
structure Pipe where
  /-- Ingest bindings. (08 R205) -/
  bindings : List Binding := []
  /-- Attached software decode service. (08 R222) -/
  swdec : Option SwDec := none
  /-- Hardware decode queue: (command, slot), oldest first. (08 R221) -/
  hwQueue : List (Nat × Nat) := []
  /-- Last decode times (ns), hardware JPEG. (08 R225) -/
  meanJpeg : List Nat := []
  /-- Last decode times (ns), hardware H.265. (08 R225) -/
  meanH265 : List Nat := []
  /-- Last decode times (ns), software JPEG. (08 R225) -/
  meanSw : List Nat := []
  /-- Started batches. (08 R220) -/
  batches : List Batch := []
  /-- Images and access units whose packets are arriving. (08 R202) -/
  flows : List FlowAsm := []
  /-- Images and access units whose packets have arrived, oldest first. (08 R202) -/
  whole : List Capture := []
  /-- The Sideline die or its module is in reset or retrain: captures are dropped. (08 R207) -/
  sideReset : Bool := false
  deriving DecidableEq, Repr, Inhabited

/-- LIFECYCLE of a track. (09 R243) -/
inductive Lifecyc where
  /-- 0 TENTATIVE -/
  | tentative
  /-- 1 CONFIRMED -/
  | confirmed
  /-- 2 COASTING -/
  | coasting
  deriving DecidableEq, Repr, Inhabited

/-- One track of the fusion store. (09 R242) -/
structure Track where
  /-- TRACK_ID. (09 R242) -/
  id : BitVec 32 := 0
  /-- LIFECYCLE. (09 R243) -/
  life : Lifecyc := .tentative
  /-- Hypothesis A state block. (09 R242) -/
  hypA : BitVec 544 := 0
  /-- Hypothesis B while conflicted. (09 R245) -/
  hypB : Option (BitVec 544) := none
  /-- State at each of the last 32 committed TOVs, newest first. (09 R240) -/
  hist : List (Nat × BitVec 544 × Option (BitVec 544)) := []
  /-- Class probabilities (FP32). (09 R242) -/
  probs : List (BitVec 32) := []
  /-- Existence probability (FP32). (09 R242) -/
  exist : BitVec 32 := 0
  /-- Hit or miss of its last steps, newest first. (09 R243) -/
  hits : List Bool := []
  /-- Latest folded CAPTURE_TIME. (09 R243) -/
  lastMeas : Nat := 0
  /-- Latest CAPTURE_TIME that updated hypothesis B. (09 R246) -/
  lastB : Nat := 0
  /-- Latest CAPTURE_TIME that updated hypothesis A. (09 R246) -/
  lastA : Nat := 0
  /-- Latest contribution per sensor. (09 R248) -/
  sensors : List (Nat × Nat) := []
  /-- STATIC. (09 R243) -/
  static : Bool := false
  /-- Updates with speed below 0.3 m/s in a row (8 make it STATIC). (09 R243) -/
  slow : Nat := 0
  /-- Consecutive steps whose measurements fell within GATE of one hypothesis only. (09 R246) -/
  agree : Nat := 0
  /-- That hypothesis is B. (09 R246) -/
  agreeB : Bool := false
  deriving DecidableEq, Repr, Inhabited

/-- The fusion session. (09 R233) -/
structure Fusion where
  /-- Owning context. (09 R233) -/
  ctx : Nat := 0
  /-- Copy of the parameter block. (09 R234) -/
  param : List (BitVec 8) := []
  /-- GRID_VA. (09 R233) -/
  gridVa : Nat := 0
  /-- GRID_W. (09 R233) -/
  gridW : Nat := 0
  /-- GRID_H. (09 R233) -/
  gridH : Nat := 0
  /-- CELL_MM. (09 R233) -/
  cellMm : Nat := 0
  /-- Last committed TOV. (09 R239) -/
  tLast : Option Nat := none
  /-- Track table in ascending TRACK_ID. (09 R242) -/
  tracks : List Track := []
  /-- Last TRACK_ID given. (09 R242) -/
  nextId : Nat := 0
  /-- (SENSOR_ID, LIST_SEQ) folded by each of the last 32 committed steps. (09 R239) -/
  folded : List (List (Nat × Nat)) := []
  /-- POSE_X, POSE_Y, POSE_YAW. (09 R248) -/
  pose : BitVec 96 := 0
  /-- EGO_VX, EGO_YAW_RATE. (09 R248) -/
  egoV : BitVec 64 := 0
  /-- EGO_QUALITY of the last step. (09 R247) -/
  quality : Nat := 1
  /-- Consecutive steps not MEASURED. (09 R247) -/
  extra : Nat := 0
  /-- The last 32 committed TOVs, newest first. (09 R240) -/
  tovs : List Nat := []
  /-- Ego-motion of the last 32 committed steps, newest first. (09 R247) -/
  motions : List (BitVec 192) := []
  /-- Stored registered scan per sensor. (09 R247) -/
  scans : List (Nat × List (BitVec 8)) := []
  /-- GRID_EPOCH. (09 R249, R250) -/
  epoch : BitVec 64 := 0
  /-- ORIGIN_X of the grid. (09 R249) -/
  originX : BitVec 32 := 0
  /-- ORIGIN_Y of the grid. (09 R249) -/
  originY : BitVec 32 := 0
  deriving DecidableEq, Repr, Inhabited

/-- One node of the planner's tree. (10 R267) -/
structure PlanNode where
  /-- Node number. (10 R267) -/
  id : Nat := 0
  /-- Parent node, none at the root. (10 R273) -/
  parent : Option Nat := none
  /-- Trajectory state (as a plan point). (10 R267) -/
  state : BitVec 256 := 0
  /-- FP32 cost-to-come. (10 R268) -/
  cost : BitVec 32 := 0
  /-- FP32 key. (10 R268) -/
  key : BitVec 32 := 0
  /-- Epoch against which the edge to the node was last checked. (10 R273) -/
  epoch : BitVec 64 := 0
  deriving DecidableEq, Repr, Inhabited

/-- A candidate of the search. (10 R267) -/
structure PlanCand where
  /-- Node at which its branch ends. (10 R267) -/
  node : Nat := 0
  /-- Acceleration and curvature (FP32) of its primitives, from the root on. (10 R267) -/
  edges : List (BitVec 64) := []
  /-- FP32 cost. (10 R268) -/
  cost : BitVec 32 := 0
  /-- It is the result of a refinement, or has been through one. (10 R268) -/
  refined : Bool := false
  deriving DecidableEq, Repr, Inhabited

/-- The work of a step that has started and not committed. (10 R267) -/
structure PlanRun where
  /-- Working epoch W. (10 R263) -/
  w : BitVec 64 := 0
  /-- Root state (as a plan point). (10 R264) -/
  root : BitVec 256 := 0
  /-- The tree was retained. (10 R264) -/
  repaired : Bool := false
  /-- Avoided hypotheses at TOV, from which the predictions follow. (10 R267) -/
  preds : List (BitVec 544) := []
  /-- Candidates. (10 R267) -/
  cands : List PlanCand := []
  /-- Attempts made. (10 R269) -/
  tries : Nat := 0
  /-- NODES_GROWN. (10 R279) -/
  grown : Nat := 0
  /-- NODES_FREED. (10 R273) -/
  freed : Nat := 0
  /-- NODES_PRUNED. (10 R271) -/
  pruned : Nat := 0
  /-- QUEUE_DROPS. (10 R270) -/
  drops : Nat := 0
  deriving DecidableEq, Repr, Inhabited

/-- The planning session. (10 R259) -/
structure Plan where
  /-- Owning context. (10 R259) -/
  ctx : Nat := 0
  /-- Copy of the parameter block. (10 R259) -/
  param : BitVec 1024 := 0
  /-- GRID_VA. (10 R259) -/
  gridVa : Nat := 0
  /-- SEED. (10 R259) -/
  seed : BitVec 32 := 0
  /-- PLAN_SEQ of the last committed step. (10 R279) -/
  planSeq : BitVec 32 := 0
  /-- TOV used by the last committed step. (10 R262) -/
  lastTov : Option Nat := none
  /-- T0 of the committed plan copy. (10 R280) -/
  copyT0 : Nat := 0
  /-- DT_MS of the committed plan copy. (10 R280) -/
  copyDt : Nat := 0
  /-- Committed plan copy. (10 R280) -/
  copy : List (BitVec 256) := []
  /-- Minimum-risk family; empty before the first commit. (10 R275) -/
  family : List (List (BitVec 256)) := []
  /-- The tree. (10 R267) -/
  tree : List PlanNode := []
  /-- Time at which the family starts. (10 R275) -/
  famT0 : Nat := 0
  /-- Point spacing of the family in ms. (10 R275) -/
  famDt : Nat := 0
  /-- Priority queue: key and node, oldest first. (10 R270) -/
  queue : List (BitVec 32 × Nat) := []
  /-- The step in progress: object predictions, candidates and counts. (10 R267) -/
  run : Option PlanRun := none
  deriving DecidableEq, Repr, Inhabited

/-- One context. (11 R286) -/
structure Ctx where
  /-- CONTEXT_ID. (11 R286) -/
  id : Nat := 0
  /-- Owning client. (11 R286) -/
  client : Nat := 0
  /-- 0 CHAIN, 1 REALTIME, 2 NORMAL, 3 BACKGROUND. (11 R286) -/
  tier : Nat := 2
  deriving DecidableEq, Repr, Inhabited

/-- A sync word that is not empty with value zero. (11 R304) -/
structure SyncWord where
  /-- Sync page 0-15. (11 R304) -/
  page : Nat := 0
  /-- Word in the page. (11 R304) -/
  word : Nat := 0
  /-- Value. (11 R304) -/
  value : BitVec 64 := 0
  /-- Full/empty state bit. (11 R304) -/
  full : Bool := false
  deriving DecidableEq, Repr, Inhabited

/-- What an inbound slot is bound to. (11 R309) -/
inductive SlotTarget where
  /-- a sync word of the binding context -/
  | word (va : Nat)
  /-- a huddle key of the binding context -/
  | huddle (key : Nat)
  deriving DecidableEq, Repr, Inhabited

/-- A bound inbound slot. (11 R309) -/
structure Inbound where
  /-- Slot 0-1,023. (11 R309) -/
  num : Nat := 0
  /-- Binding context. (11 R309) -/
  ctx : Nat := 0
  /-- LINK. (11 R309) -/
  tether : Bool := false
  /-- SOURCE_CLIENT. (11 R309) -/
  src : Nat := 0
  /-- Target. (11 R309) -/
  target : SlotTarget := .huddle 0
  deriving DecidableEq, Repr, Inhabited

/-- A huddle in progress. (11 R312) -/
structure Huddle where
  /-- Context. (11 R312) -/
  ctx : Nat := 0
  /-- KEY. (11 R312) -/
  key : Nat := 0
  /-- MASK. (11 R312) -/
  mask : BitVec 64 := 0
  /-- Participants arrived. (11 R312) -/
  arrived : BitVec 64 := 0
  /-- The HUDDLE_OPEN command. (11 R312) -/
  cmd : Nat := 0
  /-- Commands with a smaller number were fetched before the HUDDLE_OPEN started. (11 R312) -/
  upto : Nat := 0
  deriving DecidableEq, Repr, Inhabited

/-- A bound copy window. (12 R339) -/
structure Window where
  /-- Window 0-255. (12 R339) -/
  num : Nat := 0
  /-- Binding context. (12 R339) -/
  ctx : Nat := 0
  /-- Base address. (12 R339) -/
  va : Nat := 0
  /-- Length. (12 R339) -/
  bytes : Nat := 0
  /-- LINK. (12 R339) -/
  tether : Bool := false
  /-- SOURCE_CLIENT. (12 R339) -/
  src : Nat := 0
  deriving DecidableEq, Repr, Inhabited

/-- What a Tensor Page Table entry maps to. (12 R319) -/
inductive MapTo where
  /-- a DRAM frame -/
  | frame (stack : Nat) (idx : Nat)
  /-- a sync page -/
  | sync (page : Nat)
  deriving DecidableEq, Repr, Inhabited

/-- One Tensor Page Table entry. (12 R319) -/
structure Tpt where
  /-- Context. (12 R319) -/
  ctx : Nat := 0
  /-- Virtual page (VA / 512 KiB). (12 R319) -/
  page : Nat := 0
  /-- Frame or sync page. (12 R319) -/
  dest : MapTo := .sync 0
  /-- READ_ONLY. (12 R320) -/
  ro : Bool := false
  deriving DecidableEq, Repr, Inhabited

/-- A line of the general cache. (12 R316) -/
structure CacheLine where
  /-- Slice that holds it. (12 R314) -/
  slice : Nat := 0
  /-- Set of the slice. (12 R316) -/
  set : Nat := 0
  /-- 64-byte block of physical address (address / 64). (12 R314) -/
  block : Nat := 0
  /-- Not yet written back. (12 R316) -/
  dirty : Bool := false
  /-- Frame, counted since the start, in which it was last touched. (12 R316) -/
  touched : Nat := 0
  deriving DecidableEq, Repr, Inhabited

/-- A 64-byte block whose codeword is uncorrectable. (12 R328, R332) -/
structure BadBlock where
  /-- Stack. (12 R328) -/
  stack : Nat := 0
  /-- Frame. (12 R328) -/
  frame : Nat := 0
  /-- 64-byte block of the frame. (12 R328) -/
  block : Nat := 0
  /-- Slice, when a dirty general-cache line holds the bad codeword. (12 R332) -/
  line : Option Nat := none
  deriving DecidableEq, Repr, Inhabited

/-- An entry of the controllers' health list. (12 R330) -/
structure Health where
  /-- Stack. (12 R330) -/
  stack : Nat := 0
  /-- Frame. (12 R330) -/
  frame : Nat := 0
  /-- Block. (12 R330) -/
  block : Nat := 0
  /-- Local time it was seen. (12 R330) -/
  time : Nat := 0
  /-- It has been written since, and its read-back is due. (12 R330) -/
  written : Bool := false
  deriving DecidableEq, Repr, Inhabited

/-- A corrected error kept for the thresholds. (12 R327) -/
structure Corr where
  /-- WHERE code. (12 R333) -/
  where' : Nat := 0
  /-- LOCATION (stack and pseudo-channel, slice or engine). (12 R333) -/
  loc : Nat := 0
  /-- Frame (DRAM) or line (tile cache). (12 R327) -/
  unit : Nat := 0
  /-- Block of the frame, or word of the line. (12 R327) -/
  block : Nat := 0
  /-- DQ pin. (12 R327) -/
  pin : Nat := 0
  /-- Local time. (12 R327) -/
  time : Nat := 0
  deriving DecidableEq, Repr, Inhabited

/-- A frame whose retirement move is running. (12 R331) -/
structure Move where
  /-- Stack. (12 R331) -/
  stack : Nat := 0
  /-- Frame being retired. (12 R331) -/
  old : Nat := 0
  /-- Frame it moves to. (12 R331) -/
  new : Nat := 0
  deriving DecidableEq, Repr, Inhabited

/-- The map-out or restore in progress. (12 R334) -/
structure MapOutJob where
  /-- KIND: a pseudo-channel. (12 R334) -/
  pc : Bool := false
  /-- INDEX. (12 R334) -/
  idx : Nat := 0
  /-- ACTION. (12 R334) -/
  restore : Bool := false
  /-- Mailbox slot that asked. (12 R334) -/
  slot : Option Nat := none
  deriving DecidableEq, Repr, Inhabited

/-- Memory, translation and integrity state of a half. (12 R314) -/
structure Mem where
  /-- DRAM bytes by physical address, canonical. (12 R317, R318) -/
  cells : List Host.Cell := []
  /-- Tensor Page Table. (12 R319) -/
  tpt : List Tpt := []
  /-- Retired frames (stack, index), non-volatile. (12 R331) -/
  retired : List (Nat × Nat) := []
  /-- Sync words that differ from empty with value zero. (11 R304) -/
  sync : List SyncWord := []
  /-- Uncorrectable blocks and dirty lines. (12 R328) -/
  bad : List BadBlock := []
  /-- Lines of the general cache, the most recently used first. (12 R316) -/
  cache : List CacheLine := []
  /-- Last uncorrectable blocks seen. (12 R330) -/
  health : List Health := []
  /-- Corrected errors within their windows. (12 R327) -/
  corr : List Corr := []
  /-- Disabled tile-cache lines (slice, line). (12 R327) -/
  lines : List (Nat × Nat) := []
  /-- Slices mapped out. (12 R334, R335) -/
  slicesOut : List Nat := []
  /-- Pseudo-channels mapped out (stack*32 + pc). (12 R334, R336) -/
  pcsOut : List Nat := []
  /-- Map-out or restore in progress. (12 R334) -/
  mapOut : Option MapOutJob := none
  /-- Frame moves running. (12 R331) -/
  moves : List Move := []
  /-- Bound windows. (12 R339) -/
  windows : List Window := []
  /-- Bound inbound slots. (11 R309) -/
  inbound : List Inbound := []
  /-- Huddles in progress. (11 R313) -/
  huddles : List Huddle := []
  /-- Memory error log, oldest first. (12 R333) -/
  log : List (BitVec 256) := []
  /-- Next ENTRY_SEQ. (12 R333) -/
  logSeq : BitVec 32 := 0
  deriving DecidableEq, Repr, Inhabited

/-- Where an in-flight command stands. (11 R291, 04 R109) -/
inductive CmdState where
  /-- fetched and not started -/
  | waiting
  /-- started -/
  | running
  /-- all outputs staged, ready to commit -/
  | staged
  /-- sent across a link, waiting for the answer -/
  | sent
  deriving DecidableEq, Repr, Inhabited

/-- A command's effect other than memory, applied at its commit. (04 R109) -/
inductive Eff where
  /-- no such effect -/
  | none
  /-- KV_POOL_INIT registers a pool -/
  | poolInit (p : Pool)
  /-- KV_POOL_DESTROY -/
  | poolDestroy (ctx : Nat) (va : Nat)
  /-- a KV command takes and frees these pages of the pool -/
  | poolFree (ctx : Nat) (va : Nat) (take : List Nat) (give : List Nat)
  /-- INGEST_BIND -/
  | bind (b : Binding)
  /-- INGEST_UNBIND -/
  | unbind (num : Nat)
  /-- SWDEC_ATTACH -/
  | attach (s : SwDec)
  /-- SWDEC_DETACH -/
  | detach
  /-- FUSE_OPEN or FUSE_STEP leaves this session -/
  | fuse (f : Fusion)
  /-- FUSE_CLOSE -/
  | fuseClose
  /-- PLAN_OPEN or PLAN_STEP leaves this session -/
  | plan (p : Plan)
  /-- PLAN_CLOSE -/
  | planClose
  /-- WINDOW_BIND -/
  | window (w : Window)
  /-- WINDOW_UNBIND -/
  | unwindow (num : Nat)
  /-- REMOTE_BIND -/
  | inbound (i : Inbound)
  /-- REMOTE_UNBIND -/
  | uninbound (num : Nat)
  /-- HUDDLE_ARRIVE records this arrival -/
  | arrive (ctx : Nat) (key : Nat) (bit : Nat)
  /-- BATCH: H.265 streams advance (binding, last access unit, awaiting an IRAP picture) -/
  | batch (streams : List (Nat × Option Nat × Bool))
  deriving DecidableEq, Repr, Inhabited

/-- One in-flight command. (11 R295, 02 R59) -/
structure Cmd where
  /-- Number. (11 R290) -/
  id : Nat := 0
  /-- Queue. (02 R59) -/
  queue : Nat := 0
  /-- Context. (02 R59) -/
  ctx : Nat := 0
  /-- Client. (11 R299) -/
  client : Nat := 0
  /-- Tier of its context. (11 R289) -/
  tier : Nat := 2
  /-- RING_INDEX. (02 R62) -/
  ringIdx : Nat := 0
  /-- The descriptor. (02 R59) -/
  desc : BitVec 1024 := 0
  /-- State. (11 R291) -/
  st : CmdState := .waiting
  /-- Engine it runs on. (11 R291) -/
  engine : Option Nat := none
  /-- UNIT_INSTANCE. (02 R62) -/
  inst : Nat := 0xFF
  /-- Local time of its start. (04 R107) -/
  started : Nat := 0
  /-- Order of start, for the most recently started. (11 R293) -/
  order : Nat := 0
  /-- Staged output bytes by virtual address. (04 R109) -/
  writes : List (Nat × BitVec 8) := []
  /-- Address ranges (base, length) it reads or writes. (12 R324) -/
  reads : List (Nat × Nat) := []
  /-- Ranges of which it reads copies held in the hot-row directory. (12 R324) -/
  held : List (Nat × Nat) := []
  /-- Output footprint reserved in the staging pool. (04 R110) -/
  foot : Nat := 0
  /-- It was to start and found no staging space; cleared when a command ends. (04 R110) -/
  noRoom : Bool := false
  /-- Status of its commit. (02 R8) -/
  status : Nat := 0
  /-- DETAIL0. (02 R62) -/
  det0 : BitVec 64 := 0
  /-- DETAIL1. (02 R62) -/
  det1 : BitVec 32 := 0
  /-- Effect at commit. (04 R109) -/
  eff : Eff := .none
  /-- Pool pages reserved at start. (06 R178) -/
  kvPages : List Nat := []
  /-- Its sync addresses have been checked. (11 R307) -/
  checked : Bool := false
  /-- Its PRE_OP wait has been released. (11 R306) -/
  preDone : Bool := false
  /-- Order in which it reached its unit: first of its queue, its FENCE and its PRE_OP satisfied. (06 R161) -/
  reachSeq : Nat := 0
  /-- Lock it holds: 0 none, 1 shared, 2 exclusive. (06 R161) -/
  lock : Nat := 0
  /-- Order in which it began to wait on its own word. (11 R306) -/
  waitSeq : Nat := 0
  /-- Order in which its commit began to wait for its POST_OP. (11 R306) -/
  postSeq : Nat := 0
  /-- The far side has committed its copy. (12 R340) -/
  farDone : Bool := false
  /-- Predicted engine cycles. (11 R301) -/
  predict : Nat := 0
  /-- Its engine port held transactions for more than 10 % of its cycles. (13 R354) -/
  held10 : Bool := false
  /-- Engine cycles reported in DETAIL0. (04 R99) -/
  cycles : Nat := 0
  /-- Working epoch of a planning step at its start. (10 R263) -/
  epoch0 : Nat := 0
  /-- Bytes of its input as they stood before another command, which committed while it runs, wrote them, oldest first. (05 R146) -/
  raced : List (Nat × BitVec 8) := []
  deriving DecidableEq, Repr, Inhabited

/-- A B operand resident on the Quick lane engine. (04 R122) -/
structure Resident where
  /-- Context. (04 R122) -/
  ctx : Nat := 0
  /-- BASE_VA. (04 R122) -/
  base : Nat := 0
  /-- Footprint. (04 R122) -/
  foot : Nat := 0
  deriving DecidableEq, Repr, Inhabited

/-- An engine's work of the current frame, for the slow-engine measure. (11 R301) -/
structure EngLoad where
  /-- Engine. (11 R301) -/
  eng : Nat := 0
  /-- Predicted cycles of its ST_OK commits. (11 R301) -/
  predict : Nat := 0
  /-- Their DETAIL0 cycles. (11 R301) -/
  cycles : Nat := 0
  /-- Busy time in ns. (11 R301) -/
  busy : Nat := 0
  deriving DecidableEq, Repr, Inhabited

/-- Contexts, queues, commands and engines of a half. (11 R290) -/
structure Sched where
  /-- Clients. (02 R50) -/
  clients : List Client := []
  /-- Contexts. (11 R286) -/
  ctxs : List Ctx := []
  /-- Queues. (02 R52) -/
  queues : List Queue := []
  /-- In-flight commands in fetch order. (11 R295) -/
  cmds : List Cmd := []
  /-- Next command number, also the order of waits and starts. (11 R290) -/
  nextCmd : Nat := 0
  /-- Round robin: per tier, the queue served last. (11 R291) -/
  lastQueue : List (Nat × Nat) := []
  /-- Tensor engines. (04 R114) -/
  engines : List Engine := (List.range 18).map (fun n => { num := n })
  /-- Bullpen engines recorded at manufacture, less retirements. (01 R15) -/
  spareEngs : List Nat := [8, 17]
  /-- Engine whose retirement is pending. (04 R119) -/
  retiring : Option Nat := none
  /-- Spare selected for it. (04 R115) -/
  retireSpare : Option Nat := none
  /-- The spare has passed its warm-up. (04 R115) -/
  retireReady : Bool := false
  /-- Engines lost with a compute die for which a SPARE has still to take its place. (15 R386) -/
  owed : Nat := 0
  /-- Quick lane residents, most recently used first. (04 R122) -/
  residents : List Resident := []
  /-- The Quick lane is enabled since a boundary. (04 R120) -/
  quickOn : Bool := false
  /-- Work of the current frame. (11 R301) -/
  load : List EngLoad := []
  /-- Registered KV pools. (06 R153) -/
  pools : List Pool := []
  /-- Hot-row directory. (07 R190) -/
  hot : HotDir := {}
  /-- Input pipeline. (08 R201) -/
  pipe : Pipe := {}
  /-- Fusion session. (09 R233) -/
  fusion : Option Fusion := none
  /-- Planning session. (10 R259) -/
  plan : Option Plan := none
  /-- Commands answered with ST_BUSY whose RETRY_AFTER has not passed: (context, descriptor, local time from which it may be re-issued). (02 R64) -/
  holds : List (Nat × Nat × Nat) := []
  deriving DecidableEq, Repr, Inhabited

/-- Registers of one QoS class. (13 R359) -/
structure QClass where
  /-- GUAR_BLOCKS. (13 R359) -/
  guar : BitVec 32 := 0
  /-- SAFETY. (13 R359) -/
  safety : Bool := false
  /-- WEIGHT. (13 R359) -/
  weight : BitVec 8 := 1
  /-- MISSES. (13 R359) -/
  misses : BitVec 32 := 0
  /-- SERVED_BLOCKS of the last window. (13 R359) -/
  served : BitVec 32 := 0
  /-- Blocks served in the current window. (13 R355) -/
  count : Nat := 0
  /-- GUAR_BLOCKS written, effective at the next window boundary. (13 R358) -/
  newGuar : Option (BitVec 32) := none
  /-- WEIGHT written, effective at the next window boundary. (13 R358) -/
  newWeight : Option (BitVec 8) := none
  /-- The active configuration locks GUAR_BLOCKS. (13 R358) -/
  lockGuar : Bool := false
  /-- The active configuration locks WEIGHT and SAFETY. (13 R358) -/
  lockWeight : Bool := false
  deriving DecidableEq, Repr, Inhabited

/-- One transaction held at a port or outstanding. (13 R343) -/
structure QTxn where
  /-- Number, in order of arrival. (13 R343) -/
  id : Nat := 0
  /-- Port. (13 R344) -/
  port : Nat := 0
  /-- Class. (13 R341) -/
  cls : Nat := 0
  /-- DRAM blocks of 64 B. (13 R343) -/
  blocks : Nat := 0
  /-- Command it serves. (13 R353) -/
  cmd : Option Nat := none
  /-- Target whose arbiter it waits at. (13 R345) -/
  target : QTarget := .network
  /-- Deadline in local time. (13 R351) -/
  deadline : Option Nat := none
  deriving DecidableEq, Repr, Inhabited

/-- Registers of one master port. (13 R359) -/
structure QPort where
  /-- FIXED_CLASS. (13 R359) -/
  fixedCls : BitVec 3 := 2
  /-- QOS_PORT_OT_LO. (13 R359) -/
  otLo : BitVec 64 := 0x0100010001000100#64
  /-- QOS_PORT_OT_HI. (13 R359) -/
  otHi : BitVec 64 := 0x0100010001000100#64
  /-- BOOST. (13 R359) -/
  boost : BitVec 10 := 0x40
  /-- T3. (13 R359) -/
  t3 : BitVec 8 := 0xC0
  /-- T2. (13 R359) -/
  t2 : BitVec 8 := 0x80
  /-- T1. (13 R359) -/
  t1 : BitVec 8 := 0x40
  /-- BUDGET_NS. (13 R359) -/
  budgetNs : BitVec 32 := 0x7D0
  /-- LATE_COUNT. (13 R359) -/
  late : BitVec 32 := 0
  /-- HELD. (13 R359) -/
  held : BitVec 32 := 0
  /-- Need level F. (13 R347) -/
  need : Nat := 0
  /-- The active configuration locks the port's fields. (13 R358) -/
  locked : Bool := false
  deriving DecidableEq, Repr, Inhabited

/-- Weighted round robin at one target. (13 R345, R346) -/
structure QCredit where
  /-- Target. (13 R345) -/
  target : QTarget := .network
  /-- Blocks that each class may still receive in the round. (13 R345) -/
  left : List Int := List.replicate 8 0
  deriving DecidableEq, Repr, Inhabited

/-- The QoS regulator. (13 R359) -/
structure Qos where
  /-- QOS_CAUSES; QOS_MODE is causes ≠ 0. (13 R359) -/
  causes : BitVec 6 := 1
  /-- WINDOW_US. (13 R359) -/
  windowUs : BitVec 16 := 0xA
  /-- WINDOW_US written, effective at the next window boundary. (13 R358) -/
  newWindow : Option (BitVec 16) := none
  /-- WINDOW_US is locked. (13 R358) -/
  lockWindow : Bool := false
  /-- QOS_IRQ_STATUS: LATE and MISS. (13 R359) -/
  irqStatus : BitVec 9 := 0
  /-- QOS_IRQ_ENABLE. (13 R359) -/
  irqEnable : BitVec 9 := 0
  /-- QOS_WINDOWS. (13 R359) -/
  windows : BitVec 64 := 0
  /-- Class registers. (13 R359) -/
  classes : List QClass := List.replicate 8 {}
  /-- Port registers. (13 R344, R359) -/
  ports : List QPort := (List.range 38).map (fun p => if p = 23 ∨ p = 24 then { fixedCls := 7 } else if p = 37 then { fixedCls := 0 } else {})
  /-- Outstanding transactions. (13 R352) -/
  outst : List QTxn := []
  /-- Held transactions in order of arrival. (13 R352) -/
  heldTxns : List QTxn := []
  /-- Weighted round robin, of the targets that have used it. (13 R345) -/
  credits : List QCredit := []
  /-- Next transaction number. (13 R343) -/
  nextTxn : Nat := 0
  deriving DecidableEq, Repr, Inhabited

/-- CSRs of one application core. (14 R364) -/
structure AppCore where
  /-- NVCTX_VALID. (14 R364) -/
  nvctxValid : Bool := false
  /-- NVCTX_ID. (14 R364) -/
  nvctx : BitVec 12 := 0
  /-- NVCLASS. (14 R364) -/
  nvclass : BitVec 3 := 2
  /-- A debugger holds the core halted (INVASIVE). (19 R485) -/
  halted : Bool := false
  deriving DecidableEq, Repr, Inhabited

/-- One real-time pair. (14 R369) -/
structure RtPair where
  /-- Tightly coupled memory. (14 R369, R370) -/
  tcm : List Host.Cell := []
  /-- mtimecmp. (14 R371) -/
  mtimecmp : BitVec 64 := 0xFFFFFFFFFFFFFFFF#64
  /-- Machine timer interrupt taken. (14 R371, R375) -/
  timerIrq : Bool := false
  /-- Machine external interrupt line. (14 R375) -/
  extIrq : Bool := false
  /-- The pair issues transactions. (14 R373) -/
  running : Bool := false
  /-- Firmware slot it runs (0 A, 1 B). (21 R534) -/
  fw : Nat := 0
  /-- A debugger holds the pair halted (INVASIVE). (19 R485) -/
  halted : Bool := false
  deriving DecidableEq, Repr, Inhabited

/-- Application cores, real-time pairs and interrupts of a half. (14) -/
structure Cores where
  /-- Application cores. (14 R364) -/
  app : List AppCore := List.replicate 16 {}
  /-- Real-time pairs. (14 R369) -/
  pairs : List RtPair := List.replicate 2 {}
  /-- The loop pair; the other is the backup. (18 R442) -/
  loopPair : Nat := 0
  /-- Identities delivered and not re-armed: (core, identity). (14 R374) -/
  irqs : List (Nat × Nat) := []
  /-- Set-point frames dropped at closed gates. (14 R372) -/
  gateDrops : BitVec 64 := 0
  deriving DecidableEq, Repr, Inhabited

/-- LNK_STATE. (15 R397) -/
inductive LnkState where
  /-- 0 DOWN -/
  | down
  /-- 1 TRAINING -/
  | training
  /-- 2 UP -/
  | up
  /-- 3 DEGRADED -/
  | degraded
  /-- 4 RETRAINING -/
  | retraining
  /-- 5 DISABLED -/
  | disabled
  deriving DecidableEq, Repr, Inhabited

/-- One link record of the LNK_ block. (15 R397) -/
structure Link where
  /-- LNK_STATE. (15 R397) -/
  st : LnkState := .training
  /-- LNK_REASON. (15 R397) -/
  reason : BitVec 8 := 0
  /-- LNK_RATE. (15 R397) -/
  rate : BitVec 8 := 0
  /-- LNK_WIDTH. (15 R397) -/
  width : BitVec 8 := 0
  /-- TX_FAILED, TX_SPARES, TX_GOOD, TX_PHYSICAL. (15 R397) -/
  txLanes : BitVec 32 := 0
  /-- RX_LANES. (15 R397) -/
  rxLanes : BitVec 32 := 0
  /-- LNK_CRC. (15 R397) -/
  crc : BitVec 64 := 0
  /-- LNK_REPLAY. (15 R397) -/
  replay : BitVec 64 := 0
  /-- LNK_DEGRADES, non-volatile. (15 R397) -/
  degrades : BitVec 16 := 0
  /-- LNK_REPAIRS, non-volatile. (15 R397) -/
  repairs : BitVec 16 := 0
  /-- LNK_RETRAINS. (15 R397) -/
  retrains : BitVec 32 := 0
  /-- LNK_EVENT_TIME. (15 R397) -/
  eventTime : BitVec 64 := 0
  /-- LNK_PAYLOAD_MBPS. (15 R397) -/
  payload : BitVec 32 := 0
  /-- LNK_PEER. (15 R397) -/
  peer : BitVec 48 := 0
  /-- FW_VERSION of the die attached by the link. (15 R380, R381) -/
  fw : BitVec 32 := 0
  /-- LNK_ADVISORY, non-volatile. (15 R397) -/
  advisory : Bool := false
  /-- Replays of the current flit without success. (15 R384) -/
  flitTries : Nat := 0
  /-- Consecutive failed retrains. (15 R389) -/
  fails : Nat := 0
  /-- Lanes found faulty, non-volatile. (15 R385, R386) -/
  faulty : List Nat := []
  /-- Per lane, errors in the last 8 intervals of 1 ms, newest first. (15 R385) -/
  laneHist : List (Nat × List Bool) := []
  /-- Local time at which deadline cause 4 of the link clears. (13 R350) -/
  recoveryDue : Option Nat := none
  /-- Mailbox slot whose LNK_RETRAIN waits for the link. (15 R390) -/
  slot : Option Nat := none
  deriving DecidableEq, Repr, Inhabited

/-- A Sync on its way through the time-aware relay; times in ps. (16 R410) -/
structure RelaySync where
  /-- originTimestamp. (16 R410) -/
  origin : Nat := 0
  /-- correctionField as received. (16 R410) -/
  corr : Int := 0
  /-- Ingress timestamp. (16 R410) -/
  ingress : Int := 0
  /-- Mean link delay of the ingress port. (16 R410) -/
  delay : Nat := 0
  /-- Rate ratio less one, in ppb. (16 R410) -/
  rate : Int := 0
  deriving DecidableEq, Repr, Inhabited

/-- What a port sends. (16 R408) -/
inductive Wire where
  /-- a frame of a ring or of the bridge -/
  | frame (data : List (BitVec 8))
  /-- a one-step Sync: originTimestamp and correctionField in ps -/
  | sync (origin : Nat) (corr : Int)
  /-- an Announce -/
  | announce
  /-- a Pdelay_Req -/
  | pdelayReq
  /-- a Pdelay_Resp with the request's ingress timestamp in ps -/
  | pdelayResp (t2 : Nat)
  /-- a Pdelay_Resp_Follow_Up with the response's egress timestamp in ps -/
  | pdelayFollowUp (t3 : Nat)
  deriving DecidableEq, Repr, Inhabited

/-- What one half sends the other over the Handoff link or the heartbeat paths. (01 R17, 15 R393) -/
inductive LinkMsg where
  /-- COPY_OUT rows (offset in the window, bytes) -/
  | copy (cmd client window : Nat) (rows : List (Nat × List (BitVec 8)))
  /-- SIGNAL_REMOTE -/
  | signal (cmd client slot : Nat) (value : BitVec 64)
  /-- the far side's answer to a copy or a signal -/
  | answer (cmd status retry : Nat)
  /-- a forwarded capture -/
  | capture (source kind flags : Nat) (time mediaTs : Nat) (w h fseq : Nat) (data : List (BitVec 8))
  /-- a frame checkpoint with its closing record -/
  | checkpoint (frame : Nat) (fusion : Option Fusion) (plan : Option Plan) (mask : List Nat) (marks : List (Nat × Nat)) (loop grid : List (BitVec 8))
  /-- an Umpire heartbeat -/
  | heartbeat
  /-- FAULT -/
  | fault
  /-- SUBSTITUTE -/
  | substitute (frame : Nat)
  /-- GATE_CLOSED -/
  | gateClosed
  /-- a MIRROR compare record -/
  | compare (plan : Bool) (frame : Nat) (data : List (BitVec 8))
  /-- a frame crossing the bridge -/
  | bridge (port : Nat) (frame : List (BitVec 8))
  /-- a Sync that the relay passes to the ports of the other half -/
  | sync (r : RelaySync)
  deriving DecidableEq, Repr, Inhabited

/-- The links of a half. (15 R376) -/
structure Links where
  /-- Link records 0-18. (15 R397) -/
  recs : List Link := List.replicate 19 {}
  /-- LNK_IRQ_STATUS. (15 R397) -/
  irqStatus : BitVec 19 := 0
  /-- LNK_IRQ_ENABLE. (15 R397) -/
  irqEnable : BitVec 19 := 0
  /-- HO_VC0_BYTES. (15 R397) -/
  vc0 : BitVec 64 := 0
  /-- HO_VC1_BYTES. (15 R397) -/
  vc1 : BitVec 64 := 0
  /-- HO_FWD_DROPPED. (15 R397) -/
  fwdDropped : BitVec 32 := 0
  /-- Link event log, oldest first. (15 R387) -/
  log : List (BitVec 256) := []
  /-- Next ENTRY_SEQ of the link event log. (15 R387) -/
  logSeq : BitVec 32 := 0
  /-- Messages sent and not yet received by the other half, oldest first. (15 R393, R395) -/
  outbox : List LinkMsg := []
  /-- Heartbeats and FAULT sent on the management bus and not yet received. (18 R441) -/
  busOut : List LinkMsg := []
  /-- Bytes of crossing frames held in the bridge queue. (16 R409) -/
  bridgeHeld : Nat := 0
  /-- Per source, next forward sequence number. (15 R396) -/
  fwdSeq : List (Nat × Nat) := []
  /-- Per source, forward sequence number expected next. (15 R396) -/
  fwdSeen : List (Nat × Nat) := []
  /-- Replace-board advisories since manufacture, non-volatile. (18 R462) -/
  advisories : BitVec 32 := 0
  deriving DecidableEq, Repr, Inhabited

/-- STATE of the clock. (16 R421) -/
inductive TimState where
  /-- 0 UNSET -/
  | unset
  /-- 1 SYNCED -/
  | synced
  /-- 2 SLEWING -/
  | slewing
  /-- 3 FREE_RUN -/
  | freeRun
  deriving DecidableEq, Repr, Inhabited

/-- Registers and gPTP state of one Ethernet port. (16 R421) -/
structure TimPort where
  /-- LINK_UP. (16 R421) -/
  linkUp : Bool := false
  /-- AS_CAPABLE. (16 R421) -/
  asCapable : Bool := false
  /-- PTP_ROLE. (16 R421) -/
  role : BitVec 4 := 0
  /-- EGRESS_LAT_PS. (16 R421) -/
  egressLat : BitVec 32 := 0
  /-- INGRESS_LAT_PS. (16 R421) -/
  ingressLat : BitVec 32 := 0
  /-- MEAN_LINK_DELAY_PS. (16 R421) -/
  linkDelay : BitVec 32 := 0
  /-- ASYM_PS, kept with the calibration. (16 R421) -/
  asym : BitVec 32 := 0
  /-- NEIGHBOR_RATE_PPB. (16 R421) -/
  nbrRate : BitVec 32 := 0
  /-- SYNC_RX. (16 R421) -/
  syncRx : BitVec 32 := 0
  /-- PTP_DROPS. (16 R421) -/
  ptpDrops : BitVec 32 := 0
  /-- UNBOUND_DROPS. (16 R421) -/
  unboundDrops : BitVec 32 := 0
  /-- GATE_DROPS. (16 R421) -/
  gateDrops : BitVec 32 := 0
  /-- BRIDGE_DROPS. (16 R421) -/
  bridgeDrops : BitVec 32 := 0
  /-- Ring overflows. (16 R402) -/
  ringDrops : BitVec 32 := 0
  /-- A two-step Sync waiting for its Follow_Up: (sequence, ingress time ps). (16 R407) -/
  pendSync : Option (Nat × Nat) := none
  /-- Egress time of the Pdelay_Req outstanding. (16 R407) -/
  reqTime : Option Nat := none
  /-- Best announce seen on the port: priority vector, grandmaster identity, steps removed. (16 R407) -/
  announce : Option (Nat × BitVec 64 × Nat) := none
  /-- Local time of the last Announce. (16 R418) -/
  lastAnn : Nat := 0
  /-- A Pdelay_Resp waiting for its Follow_Up: (t2, t4) in ps. (16 R407) -/
  pdResp : Option (Nat × Nat) := none
  /-- (t3, t4) of the last complete Pdelay exchange, in ps. (16 R407) -/
  pdPrev : Option (Nat × Nat) := none
  /-- Next descriptor of each receive ring. (16 R400) -/
  rxNext : List Nat := [0, 0, 0, 0]
  /-- Next descriptor of each transmit ring. (16 R401) -/
  txNext : List Nat := [0, 0, 0, 0]
  /-- Receive rings disabled. (16 R400) -/
  rxOff : List Bool := [false, false, false, false]
  /-- Transmit rings disabled. (16 R400) -/
  txOff : List Bool := [false, false, false, false]
  /-- Frames the port has sent (data and gPTP). (16 R408) -/
  sent : Nat := 0
  /-- The frame that the port sent last. (16 R408, R410) -/
  last : Option Wire := none
  /-- The Sync that the relay passes on through the port. (16 R410) -/
  relay : Option RelaySync := none
  deriving DecidableEq, Repr, Inhabited

/-- The time unit. (16 R411, R421) -/
structure Tim where
  /-- The time unit has started. (16 R412) -/
  running : Bool := false
  /-- Local counter L, ns. (16 R411) -/
  local' : Nat := 0
  /-- Local time at which the time unit started. (16 R414) -/
  startedAt : Nat := 0
  /-- S of ST = S + (L - L0)(1 + rho). (16 R411) -/
  base : Nat := 0
  /-- L0. (16 R411) -/
  base0 : Nat := 0
  /-- RATE_PPB, rho in parts per billion. (16 R421) -/
  rate : Int := 0
  /-- Frequency estimate in ppb. (16 R415) -/
  freq : Int := 0
  /-- STATE. (16 R421) -/
  st : TimState := .unset
  /-- STEPPED. (16 R421) -/
  stepped : Bool := false
  /-- LEAD. (16 R421) -/
  lead : Bool := false
  /-- SOURCE. (16 R421) -/
  source : BitVec 2 := 0
  /-- SOURCE_PORT. (16 R421) -/
  sourcePort : BitVec 4 := 0
  /-- STEPS_REMOVED. (16 R421) -/
  stepsRemoved : BitVec 16 := 0
  /-- GM_CHANGES. (16 R421) -/
  gmChanges : BitVec 16 := 0
  /-- TIM_OFFSET_NS. (16 R421) -/
  offset : BitVec 64 := 0
  /-- TIM_GM_IDENTITY. (16 R421) -/
  gm : BitVec 64 := 0
  /-- TIM_LOCAL_LATCH. (16 R421) -/
  latch : BitVec 64 := 0
  /-- TIM_FREE_RUN_SINCE. (16 R421) -/
  freeSince : BitVec 64 := 0
  /-- TIM_INTERHALF_PS. (16 R421) -/
  interHalf : BitVec 32 := 0
  /-- TIM_EVENTS. (16 R421) -/
  events : BitVec 6 := 0
  /-- Consecutive valid measurements gathered. (16 R413) -/
  valid : Nat := 0
  /-- Step held for the next frame boundary: source time minus ST. (16 R414) -/
  held : Option Int := none
  deriving DecidableEq, Repr, Inhabited

/-- More time-unit state. (16 R416) -/
structure TimX where
  /-- Consecutive exchanges beyond 5,000 ps. (16 R416) -/
  badExch : Nat := 0
  /-- Consecutive exchanges within the bound since it was exceeded. (18 R456) -/
  goodExch : Nat := 0
  /-- Local time of the last exchange. (16 R417) -/
  lastExch : Nat := 0
  /-- Local time of the last Sync on the slave port. (16 R417) -/
  lastSync : Nat := 0
  /-- The next three measurements come from a new grandmaster. (16 R418) -/
  gmNew : Bool := false
  /-- Ethernet ports. (16 R398) -/
  ports : List TimPort := List.replicate 5 {}
  /-- Learned bridge entries: (MAC address, port). (16 R409) -/
  fdb : List (Nat × Nat) := []
  /-- Bridge configuration: the relay's slave port lies on the other half. (16 R416) -/
  elsewhere : Bool := false
  /-- START_WAIT has passed. (16 R414) -/
  startWait : Bool := false
  deriving DecidableEq, Repr, Inhabited

/-- PTN_STATE. (17 R425) -/
inductive PtnState where
  /-- 0 EMPTY -/
  | empty
  /-- 1 PRESENT -/
  | present
  /-- 2 ABSENT -/
  | absent
  /-- 3 QUARANTINED -/
  | quarantined
  deriving DecidableEq, Repr, Inhabited

/-- One partner entry. (17 R425) -/
structure Partner where
  /-- Entry. (17 R425) -/
  num : Nat := 0
  /-- PTN_KIND. (17 R425) -/
  kind : BitVec 8 := 0
  /-- PTN_STATE. (17 R425) -/
  st : PtnState := .empty
  /-- ATTACH. (17 R425) -/
  attach : BitVec 8 := 0
  /-- GENERATION. (17 R425) -/
  gen : BitVec 32 := 0
  /-- IDENTITY. (17 R425) -/
  ident : BitVec 64 := 0
  /-- FIRST_SEEN. (17 R425) -/
  first : BitVec 64 := 0
  /-- LAST_SEEN. (17 R425) -/
  last : BitVec 64 := 0
  /-- VIOLATIONS. (17 R425) -/
  viol : BitVec 32 := 0
  /-- QUARANTINES. (17 R425) -/
  quars : BitVec 16 := 0
  /-- LAST_CLASS. (17 R425) -/
  lastCls : BitVec 8 := 0
  /-- RELEASE_TIME. (17 R425) -/
  release : BitVec 64 := 0
  /-- (class, time ns) of violations within their windows. (17 R426) -/
  counts : List (Nat × Nat) := []
  /-- Released: restored at its next Frame Start, re-enable or readmission. (17 R427) -/
  awaitFirst : Bool := false
  deriving DecidableEq, Repr, Inhabited

/-- The partner table and the violation log. (17 R423) -/
structure Ptn where
  /-- Partner entries. (17 R423) -/
  entries : List Partner := (List.range 256).map (fun i => { num := i, kind := if i < 8 then 1 else if i = 8 then 2 else if i < 11 then 3 else if i = 11 then 4 else 0 })
  /-- Violation log, oldest first. (17 R429) -/
  log : List (BitVec 256) := []
  /-- PTN_LOG_WRITTEN. (17 R425) -/
  written : BitVec 32 := 0
  /-- PTN_UNTRACKED. (17 R425) -/
  untracked : BitVec 32 := 0
  /-- PTN_TABLE_FULL. (17 R425) -/
  full : BitVec 32 := 0
  /-- A generic die is admitted at the open site. (15 R382) -/
  sites : Bool := false
  /-- Local time of the Tether link-up awaiting admission. (17 R434) -/
  tetherUp : Option Nat := none
  /-- The Tether peer is admitted. (17 R434) -/
  admitted : Bool := false
  deriving DecidableEq, Repr, Inhabited

/-- A committed frame checkpoint. (01 R25, 18 R447) -/
structure Checkpoint where
  /-- Frame number. (01 R25) -/
  frame : Nat := 0
  /-- Fusion part. (09 R254) -/
  fusion : Option Fusion := none
  /-- Planning part. (10 R282) -/
  plan : Option Plan := none
  /-- Control-loop state. (01 R25) -/
  loop : List (BitVec 8) := []
  /-- Occupancy grid buffer. (09 R254) -/
  grid : List (BitVec 8) := []
  /-- Chain mask. (18 R447) -/
  mask : List Nat := []
  /-- Capture marks: (source, CAPTURE_TIME) of CHAIN bindings. (18 R447) -/
  marks : List (Nat × Nat) := []
  /-- The warm-ups at the next boundary passed for every engine of the mask. (18 R447) -/
  trusted : Bool := false
  /-- The checkpoint came from the other half, whose engines its chain mask names. (18 R447) -/
  crossed : Bool := false
  deriving DecidableEq, Repr, Inhabited

/-- Where a substitution in DUAL stands on a half. (18 R450) -/
inductive SubPhase where
  /-- no substitution -/
  | none
  /-- primary: SUBSTITUTE sent, gates not yet closed -/
  | sent
  /-- standby: restored from k-2, waiting for GATE_CLOSED -/
  | restored
  deriving DecidableEq, Repr, Inhabited

/-- The Umpire. (18 R439, R464) -/
structure Umpire where
  /-- UMP_ROLE. (18 R464) -/
  role : BitVec 8 := 0
  /-- UMP_GATES. (18 R464) -/
  gates : BitVec 2 := 0
  /-- Local time of the last permit refresh of each gate. (18 R442) -/
  permit : List Nat := [0, 0]
  /-- PEER_HANDOFF. (18 R464) -/
  peerHandoff : Bool := false
  /-- PEER_BUS. (18 R464) -/
  peerBus : Bool := false
  /-- Umpire time of the last heartbeat on the Handoff link. (18 R441) -/
  lastHandoff : Nat := 0
  /-- Umpire time of the last heartbeat on the management bus. (18 R441) -/
  lastBus : Nat := 0
  /-- Umpire's own time, ns. (18 R439) -/
  clock : Nat := 0
  /-- Umpire time at which MBX_HEARTBEAT last incremented. (18 R440) -/
  captainBeat : Nat := 0
  /-- UMP_EVENTS. (18 R464) -/
  events : BitVec 15 := 0
  /-- UMP_IRQ_ENABLE. (18 R464) -/
  irqEnable : BitVec 15 := 0
  /-- TRANSIENTS, non-volatile. (18 R464) -/
  transients : BitVec 16 := 0
  /-- SUBSTITUTIONS. (18 R464) -/
  substs : BitVec 16 := 0
  /-- MISMATCHES. (18 R464) -/
  mismatches : BitVec 16 := 0
  /-- SAFE_ENTRIES. (18 R464) -/
  safeEntries : BitVec 16 := 0
  /-- Last two committed checkpoints, newest first. (18 R447) -/
  checkpoints : List Checkpoint := []
  /-- Frame of the last trusted checkpoint. (18 R462) -/
  trustedFrame : Nat := 0
  /-- Engines that committed CHAIN commands in the current frame. (18 R444) -/
  chainMask : List Nat := []
  /-- Chain mask of the previous frame. (18 R444) -/
  prevMask : List Nat := []
  /-- Number of the previous frame. (18 R445) -/
  prevFrame : Nat := 0
  /-- Full frame number of each engine's last disagreement, non-volatile. (18 R445) -/
  disagreeFrame : List (Nat × Nat) := []
  /-- Engines rerunning their warm-up: (engine, reruns passed, frame of the disagreement). (18 R445) -/
  rerun : List (Nat × Nat × Nat) := []
  /-- Level of the half's KILL pin. (22 R547, 18 R455) -/
  kill : Bool := true
  /-- The Umpire has asserted KILL since VDD_AON rose. (18 R455) -/
  killed : Bool := false
  deriving DecidableEq, Repr, Inhabited

/-- More Umpire state. (18 R439) -/
structure UmpX where
  /-- UNTRUSTED. (18 R462) -/
  untrusted : Bool := false
  /-- STANDBY_READY. (18 R462) -/
  standbyReady : Bool := false
  /-- COMPARE_FAIL. (18 R462) -/
  compareFail : Bool := false
  /-- Frames of the mismatches within the last 100 frames. (18 R452) -/
  misFrames : List Nat := []
  /-- Frame of the half's last warm-up disagreement or half fault. (18 R452) -/
  badFrame : Option Nat := none
  /-- Own compare records awaiting the other half's: (plan?, frame, local time of the commit, data). (18 R451) -/
  ownRec : List (Bool × Nat × Nat × List (BitVec 8)) := []
  /-- Step 4 of Table — Return from SOLO has begun: the half sends checkpoints and duplicates streams. (01 R30) -/
  duplicating : Bool := false
  /-- Recent records that matched: (plan?, frame). (18 R449) -/
  matched : List (Bool × Nat) := []
  /-- Capture marks of the frame in progress: (source, CAPTURE_TIME of the newest capture consumed). (18 R447) -/
  marks : List (Nat × Nat) := []
  /-- Engines that rerun their warm-up on the earlier microcode. (21 R533) -/
  retrial : List Nat := []
  /-- Pair whose gate a gate test has closed and will reopen. (18 R463) -/
  diagGate : Option Nat := none
  /-- Substitution phase. (18 R450) -/
  sub : SubPhase := .none
  /-- Untrusted frame of the substitution. (18 R450) -/
  subFrame : Nat := 0
  /-- Replay set: (binding, CAPTURE_SEQ). (18 R448) -/
  replay : List (Nat × Nat) := []
  /-- Consecutive windows in which a SAFETY class missed. (18 R456) -/
  missStreak : List Nat := [0, 0, 0, 0, 0, 0, 0, 0]
  /-- Frame in which the half last took over. (18 R460) -/
  takeoverFrame : Option Nat := none
  /-- Checkpoint frame from which it took over. (18 R460) -/
  takeoverFrom : Nat := 0
  /-- The half holds a checkpoint received since it became standby. (18 R450) -/
  gotCheck : Bool := false
  /-- One full frame of duplicated streams has been ingested since the half became standby. (18 R450) -/
  streamsOk : Bool := false
  /-- The first full frame after a takeover is in progress. (13 R350) -/
  fullFrame : Bool := false
  /-- The half is in its safe state. (18 R453) -/
  safe : Bool := false
  deriving DecidableEq, Repr, Inhabited

/-- Periodic self-test of one element. (18 R457) -/
structure SelfTest where
  /-- PASSED bit. (18 R459) -/
  passed : Bool := false
  /-- FORCED bit. (18 R459) -/
  forced : Bool := false
  /-- MISSED. (18 R459) -/
  missed : BitVec 16 := 0
  /-- Slices of the current pass completed. (18 R457) -/
  slices : Nat := 0
  /-- Local time of the last complete pass. (18 R458) -/
  passTime : Option Nat := none
  /-- Synchronised time of the last complete pass. (18 R459) -/
  passSt : Nat := 0
  /-- Number of the last interval counted as missed. (18 R458) -/
  missWin : Option Nat := none
  deriving DecidableEq, Repr, Inhabited

/-- One Ethernet flow of the active configuration. (16 R403) -/
structure Flow where
  /-- Flow 0-31 (input source 0x20 + num). (16 R403) -/
  num : Nat := 0
  /-- Ingress ports. (16 R403) -/
  ports : List Nat := []
  /-- VLAN ID matched. (16 R403) -/
  vlan : Option Nat := none
  /-- Destination MAC address matched. (16 R403) -/
  dmac : Option Nat := none
  /-- UDP destination port matched. (16 R403) -/
  udp : Option Nat := none
  /-- IEEE 1722 stream ID matched. (16 R403) -/
  stream : Option Nat := none
  deriving DecidableEq, Repr, Inhabited

/-- One frame ring of the active configuration. (16 R400) -/
structure Ring where
  /-- MAC. (16 R400) -/
  port : Nat := 0
  /-- Ring 0-3. (16 R400) -/
  num : Nat := 0
  /-- A transmit ring. (16 R400) -/
  tx : Bool := false
  /-- Context. (16 R400) -/
  ctx : Nat := 0
  /-- Virtual address. (16 R400) -/
  va : Nat := 0
  /-- LOG2. (16 R400) -/
  log2 : Nat := 4
  /-- VLAN priorities of a receive ring. (16 R402) -/
  prios : List Nat := []
  /-- Real-time pair whose set-points a transmit ring carries. (14 R372) -/
  pair : Option Nat := none
  deriving DecidableEq, Repr, Inhabited

/-- One site window. (15 R382) -/
structure SiteWin where
  /-- Context. (15 R382) -/
  ctx : Nat := 0
  /-- Client. (15 R382) -/
  client : Nat := 0
  /-- Virtual address. (15 R382) -/
  va : Nat := 0
  /-- Length. (15 R382) -/
  len : Nat := 0
  deriving DecidableEq, Repr, Inhabited

/-- What the configuration binds a real-time pair to. (14 R370) -/
structure PairBind where
  /-- Client. (14 R370) -/
  client : Nat := 0
  /-- Context. (14 R370) -/
  ctx : Nat := 0
  /-- WINDOW_BASE. (14 R370) -/
  base : Nat := 0
  deriving DecidableEq, Repr, Inhabited

/-- The active configuration (chain, clients, power, units). (21 R516) -/
structure Cfg where
  /-- Current configuration mode. (21 R516) -/
  mode : Nat := 0
  /-- Chain clients. (11 R286) -/
  chainClients : List Nat := []
  /-- Real-time clients. (11 R286) -/
  rtClients : List Nat := []
  /-- Quick-lane capable clients. (04 R121) -/
  quickClients : List Nat := []
  /-- Decode-service clients. (08 R222) -/
  decClients : List Nat := []
  /-- Permitted classes per client. (13 R342) -/
  classMask : List (Nat × BitVec 8) := []
  /-- SYSTEM_CORE. (14 R374) -/
  systemCore : Nat := 0
  /-- Pair bindings. (14 R370) -/
  pairs : List PairBind := [{}, {}]
  /-- Site windows. (15 R382) -/
  siteWins : List SiteWin := []
  /-- PEER_SERIAL. (17 R434) -/
  peerSerial : BitVec 64 := 0
  /-- The configuration marks this board as evacuation receiver. (17 R435) -/
  evacReceiver : Bool := false
  /-- Primary or lead half. (01 R24) -/
  primary : HalfId := .a
  /-- Device mode named for power-on. (01 R28) -/
  bootMode : DevMode := .dual
  /-- SHARE of the named half. (20 R500) -/
  share : Nat := 50
  /-- The half SHARE names. (20 R500) -/
  shareHalf : HalfId := .a
  /-- Frame rate n. (21 R518) -/
  frameRate : Nat := 30
  /-- Quick lane enable. (04 R120) -/
  quickLane : Bool := true
  /-- Chain-suspended mark. (20 R495) -/
  suspended : Bool := false
  /-- Power cap set by the configuration, W. (20 R501) -/
  cap : Option Nat := none
  /-- Bridge configuration. (16 R399) -/
  bridge : Bool := false
  /-- QOS_ fields loaded: (offset, value). (13 R358) -/
  qos : List (Nat × BitVec 64) := []
  /-- QOS_ offsets marked locked. (13 R358) -/
  qosLocks : List Nat := []
  deriving DecidableEq, Repr, Inhabited

/-- The active configuration (Ethernet, safety, unit thresholds). (21 R518) -/
structure CfgB where
  /-- gPTP ports. (16 R408) -/
  ptpPorts : List Nat := []
  /-- gPTP domain. (16 R407) -/
  domain : Nat := 0
  /-- External port configuration: (port, PTP_ROLE). (16 R407) -/
  extRoles : List (Nat × Nat) := []
  /-- priority1. (16 R407) -/
  priority1 : Nat := 255
  /-- syncReceiptTimeout. (16 R407) -/
  syncTimeout : Nat := 3
  /-- announceReceiptTimeout. (16 R407) -/
  annTimeout : Nat := 3
  /-- logSyncInterval. (16 R407) -/
  logSync : Int := -3
  /-- logAnnounceInterval. (16 R407) -/
  logAnn : Int := 0
  /-- neighborPropDelayThresh. (16 R407) -/
  propThresh : Nat := 800
  /-- START_WAIT. (16 R414) -/
  startWaitMs : Nat := 2000
  /-- SLEW_LIMIT. (16 R415) -/
  slewPpb : Nat := 100000
  /-- (port, ingress ps, egress ps). (16 R405) -/
  lats : List (Nat × Nat × Nat) := []
  /-- Flows. (16 R403) -/
  flows : List Flow := []
  /-- Frame rings. (16 R400) -/
  rings : List Ring := []
  /-- Static bridge entries: (MAC address, port). (16 R409) -/
  fdbStatic : List (Nat × Nat) := []
  /-- Narrowed tolerance and comparison bands. (03 R89, 18 R451) -/
  bands : List (Nat × Nat) := []
  /-- Tolerance bands: N in units of 2^-16 and C in units of 2^-32, for INT32; INT4, INT8, UINT8; FP32; BF16, FP16; FP8; MX formats. (03 R88, R89) -/
  tol : List (Nat × Nat) := [(0, 0), (65536, 0), (262144, 65536), (65536, 65536), (65536, 65536), (65536, 65536)]
  /-- Self-test intervals: (element, ms). (18 R457) -/
  intervals : List (Nat × Nat) := []
  /-- Safety-task release table: (element, µs after the boundary). (18 R457) -/
  releases : List (Nat × Nat) := []
  /-- Loop pair named. (18 R442) -/
  loopPair : Nat := 0
  /-- Hot-row admission threshold. (07 R191) -/
  hotThreshold : Nat := 4
  /-- Directory partitions: their clients. (07 R192) -/
  hotParts : List (List Nat) := []
  /-- Decode queue threshold. (08 R221) -/
  decThreshold : Nat := 48
  /-- Initial rolling means, ns. (08 R225) -/
  means : List Nat := [2000000, 10000000, 10000000]
  /-- HO_BULK_LIMIT. (15 R394) -/
  bulkLimit : Nat := 8000
  /-- (class, THRESHOLD, WINDOW_MS, HOLD_MS). (17 R426) -/
  viol : List (Nat × Nat × Nat × Nat) := [(1,16,1000,0),(2,16,1000,0),(3,64,1000,0),(4,3,60000,0),(5,32,10000,60000),(6,0,0,0),(7,64,1000,0),(8,64,1000,0),(9,16,1000,10000),(10,0,0,0),(11,0,0,0)]
  /-- Memory health thresholds. (12 R327) -/
  memThresh : List Nat := [3, 16, 1000, 64, 1]
  deriving DecidableEq, Repr, Inhabited

/-- An overlay held, stored or active. (21 R517) -/
structure Ovl where
  /-- SLOT. (21 R517) -/
  slot : Nat := 0
  /-- The whole image. (21 R517) -/
  image : List (BitVec 8) := []
  /-- SLOT_APPLIED_FRAME. (21 R527) -/
  frame : Nat := 0
  deriving DecidableEq, Repr, Inhabited

/-- An overlay or a removal held for a boundary. (21 R522) -/
structure Held where
  /-- Overlay slot. (21 R522) -/
  slot : Nat := 0
  /-- The image; none for a removal. (21 R522) -/
  image : Option (List (BitVec 8)) := none
  /-- Mailbox slot whose message waits. (21 R522) -/
  msg : Option Nat := none
  /-- Local time of the doorbell. (21 R522) -/
  since : Nat := 0
  /-- Local time at which the other half confirmed. (21 R522) -/
  confirmed : Option Nat := none
  deriving DecidableEq, Repr, Inhabited

/-- An upload or transfer stage in use. (19 R481, 21 R520) -/
structure Stage where
  /-- Owning mailbox slot. (19 R481) -/
  slot : Nat := 0
  /-- Opcode it belongs to. (21 R520) -/
  opcode : Nat := 0
  /-- Next chunk expected. (19 R481) -/
  next : Nat := 0
  /-- TOTAL. (19 R481) -/
  total : Nat := 0
  /-- OBJ_LEN (upload stage). (19 R481) -/
  objLen : Nat := 0
  /-- Data received. (19 R481) -/
  data : List (BitVec 8) := []
  /-- Local time of the last chunk. (19 R481) -/
  used : Nat := 0
  deriving DecidableEq, Repr, Inhabited

/-- The security block. (19 R466, R467) -/
structure Sec where
  /-- Lifecycle code, non-volatile. (19 R470) -/
  life : Nat := 0
  /-- FIELD-DEBUG operating seconds left. (19 R483) -/
  fdTime : Nat := 0
  /-- FIELD-DEBUG time last written to MRAM. (19 R483) -/
  fdSaved : Nat := 0
  /-- Local time up to which fdTime has been counted down. (19 R483) -/
  fdMark : Nat := 0
  /-- Device public key. (19 R467) -/
  devKey : Option (BitVec 480) := none
  /-- Key generation is running. (19 R482) -/
  keygen : Bool := false
  /-- Vendor certificate. (19 R467) -/
  cert : List (BitVec 8) := []
  /-- Owner public key. (19 R467) -/
  owner : Option (BitVec 480) := none
  /-- Last accepted SEQ per signer. (19 R467) -/
  seqs : List Nat := [0, 0, 0]
  /-- Minimum SECURITY_VERSION per image kind. (19 R474) -/
  minSec : List (Nat × Nat) := []
  /-- Root 0 revoked flag. (19 R473) -/
  root0Revoked : Bool := false
  /-- FALLBACK_MASK of the boot-failure record. (19 R476) -/
  fallback : BitVec 16 := 0
  /-- Boots since manufacture. (19 R475) -/
  bootCount : BitVec 32 := 0
  /-- Device-key leaves used. (19 R469) -/
  leaves : Nat := 0
  /-- The next level-1 tree is ready. (19 R469) -/
  nextTree : Bool := true
  /-- Debug level. (19 R470) -/
  debug : Nat := 0
  /-- Local time at which the level ends. (19 R486) -/
  debugEnd : Nat := 0
  /-- Last report with its nonce. (19 R479) -/
  report : Option (BitVec 256 × List (BitVec 8)) := none
  /-- Report bucket. (19 R480) -/
  bucket : Nat := 16
  /-- Local time of the last refill. (19 R480) -/
  refill : Nat := 0
  /-- Upload stage. (19 R481) -/
  upload : Option Stage := none
  /-- Accepted lifecycle request waiting for its boundary: mailbox slot (64 when it came from the other half), HALF_MASK, body. (19 R482) -/
  pendLife : Option (Nat × Nat × List (BitVec 8)) := none
  /-- The report of the current Tether link-up has been made. (19 R478) -/
  tetherReport : Bool := false
  deriving DecidableEq, Repr, Inhabited

/-- A running UPD_ACTIVATE of kind 0x04 or 0x05. (21 R530) -/
structure Upd where
  /-- IMAGE_KIND. (21 R530) -/
  kind : Nat := 0
  /-- Mailbox slot that waits. (21 R530) -/
  slot : Option Nat := none
  /-- Next engine (0x05) or phase (0x04). (21 R532) -/
  next : Nat := 0
  /-- Engine being swapped. (21 R532) -/
  cur : Option Nat := none
  /-- The rollout is reverting. (21 R533) -/
  revert : Bool := false
  /-- Engines swapped. (21 R532) -/
  done : List Nat := []
  deriving DecidableEq, Repr, Inhabited

/-- Boot flash, configuration images and service operations. (21 R528) -/
structure Svc where
  /-- Slot A images by kind. (21 R528) -/
  flashA : List (Nat × List (BitVec 8)) := []
  /-- Slot B images by kind. (21 R528) -/
  flashB : List (Nat × List (BitVec 8)) := []
  /-- Kinds whose active slot is B, non-volatile. (21 R528) -/
  selB : List Nat := []
  /-- Images verified and running, by kind. (19 R475) -/
  running : List (Nat × List (BitVec 8)) := []
  /-- Kinds running from slot B (SLOT_MASK). (19 R478) -/
  ranB : List Nat := []
  /-- Slots marked invalid: (kind, slot B). (21 R529) -/
  invalid : List (Nat × Bool) := []
  /-- Stored overlays, in the boot flash. (21 R516) -/
  overlays : List Ovl := []
  /-- Held overlays and removals. (21 R522) -/
  held : List Held := []
  /-- LAST_APPLIED_FRAME. (21 R527) -/
  lastApplied : Nat := 0
  /-- Transfer stage. (21 R520) -/
  stage : Option Stage := none
  /-- Running activation of kind 0x05, engine by engine. (21 R532) -/
  upd : Option Upd := none
  /-- Running activation of kind 0x04, pair by pair. (21 R534) -/
  updPair : Option Upd := none
  /-- Calibration results: (item, target) in the order recorded, non-volatile. (21 R535) -/
  trims : List (Nat × Nat) := []
  /-- Their values. (21 R535) -/
  trimData : List (BitVec 64) := []
  /-- COMMIT came from the Tether peer: the half opens its gates at the next boundary. (17 R436) -/
  evacCommit : Bool := false
  deriving DecidableEq, Repr, Inhabited

/-- Power state of a half. (20 R495) -/
inductive PwrState where
  /-- 0 RUN -/
  | run
  /-- 1 DIM -/
  | dim
  /-- 2 DOZE -/
  | doze
  /-- 3 HIBERNATE -/
  | hibernate
  /-- 4 OFF -/
  | off
  deriving DecidableEq, Repr, Inhabited

/-- One hot-spot sensor pair. (20 R511) -/
structure HotSpot where
  /-- SENSOR_A. (20 R511) -/
  a : BitVec 16 := 0
  /-- SENSOR_B. (20 R511) -/
  b : BitVec 16 := 0
  /-- USED. (20 R511) -/
  used : BitVec 16 := 0
  /-- FAULTY. (20 R511) -/
  faulty : Bool := false
  /-- HOT. (20 R511) -/
  hot : Bool := false
  /-- Local time since which the readings differ by more than 6 °C. (20 R507) -/
  since : Option Nat := none
  /-- Local time since which a sensor is invalid. (20 R507) -/
  sinceBad : Option Nat := none
  /-- Time since which both sensors read above 118 °C. (18 R440) -/
  over118 : Option Nat := none
  /-- Its island is held at its lowest clock. (20 R508) -/
  slow : Bool := false
  deriving DecidableEq, Repr, Inhabited

/-- Temperature state of one HBM stack. (20 R511) -/
structure StackT where
  /-- STACK_TEMP. (20 R511) -/
  temp : BitVec 16 := 0
  /-- REFRESH. (20 R511) -/
  refresh : BitVec 2 := 0
  /-- Time since which it reads above 100 °C. (18 R440) -/
  over100 : Option Nat := none
  /-- Issue rate halved for classes 0-5. (20 R508) -/
  halved : Bool := false
  deriving DecidableEq, Repr, Inhabited

/-- Tables saved to the reserved frames. (20 R497) -/
structure Saved where
  /-- Clients with their counters. (20 R497) -/
  clients : List Client := []
  /-- Contexts. (20 R497) -/
  ctxs : List Ctx := []
  /-- Queues and doorbell bindings. (20 R497) -/
  queues : List Queue := []
  /-- Tensor Page Table. (20 R514) -/
  tpt : List Tpt := []
  deriving DecidableEq, Repr, Inhabited

/-- Power state and budget of a half. (20 R511) -/
structure Pow where
  /-- Power state; PWR_STATE reads it in RUN, DIM, DOZE. (20 R495) -/
  st : PwrState := .off
  /-- DIM was requested. (20 R499) -/
  reqDim : Bool := false
  /-- FORCED_DIM. (20 R511) -/
  forcedDim : Bool := false
  /-- LIMITER. (20 R511) -/
  limiter : BitVec 4 := 0
  /-- PWR_DOMAINS. (20 R511) -/
  domains : BitVec 56 := 1
  /-- CAP, 0.1 W. (20 R511) -/
  cap : BitVec 16 := 0xC80
  /-- THERMAL_LIMIT. (20 R511) -/
  thermal : BitVec 16 := 0
  /-- BUDGET. (20 R511) -/
  budget : BitVec 16 := 0
  /-- POWER. (20 R511) -/
  power : BitVec 16 := 0
  /-- THETA_J. (20 R511) -/
  thetaJ : BitVec 16 := 0xB4
  /-- THETA_M. (20 R511) -/
  thetaM : BitVec 16 := 0x64
  /-- COOLANT. (20 R511) -/
  coolant : BitVec 16 := 0x410
  /-- COOLANT_AGE_MS. (20 R511) -/
  age : BitVec 16 := 0xFFFF
  /-- THM_EVENTS. (20 R511) -/
  events : BitVec 10 := 0
  /-- THM_IRQ_ENABLE. (20 R511) -/
  irqEnable : BitVec 10 := 0
  /-- THM_PAIR_FAULTY. (20 R511) -/
  pairFaulty : BitVec 32 := 0
  /-- THETA_TIME. (20 R511) -/
  thetaTime : BitVec 64 := 0
  /-- (CLUSTER_RUN_MHZ, THM_CLUSTER_MHZ). (20 R511) -/
  clusters : List (BitVec 16 × BitVec 16) := List.replicate 4 (0x960, 0x960)
  deriving DecidableEq, Repr, Inhabited

/-- More power and thermal state. (20 R500) -/
structure PowX where
  /-- Hot spots. (20 R507) -/
  pairs : List HotSpot := List.replicate 32 {}
  /-- Stack sensors. (20 R509) -/
  stks : List StackT := List.replicate 2 {}
  /-- (hottest hot spot, hotter stack) of the last 200 samples, newest first. (20 R504) -/
  hist : List (Int × Int) := []
  /-- (time, THETA_J, THETA_M) of the last 24 h. (20 R502) -/
  thetaOld : List (Nat × Nat × Nat) := []
  /-- 1 s averages at the start of the interval: power 0.1 W, hot spot, stack, coolant. (20 R502) -/
  est : Option (Int × Int × Int × Int) := none
  /-- Local time of the last estimation interval's end. (20 R502) -/
  estAt : Nat := 0
  /-- Local time of the last interval with a large enough power change. (20 R502) -/
  lastEst : Nat := 0
  /-- Local time at which the 15 W probe ends. (20 R502) -/
  probe : Option Nat := none
  /-- Steps of the clock-lowering order taken (0-6). (20 R505) -/
  level : Nat := 0
  /-- Since when the budget exceeds the power by 20 %. (20 R505) -/
  goodSince : Option Nat := none
  /-- Transition that waits for a boundary, with its mailbox slot. (20 R496) -/
  pend : Option (PwrState × Nat) := none
  /-- Slot kept after step 6, when the hold ends, and the state to enter. (20 R497) -/
  holdSlot : Option (Nat × Nat × PwrState) := none
  /-- Umpire time from which the wake timer may expire: WAKE_AFTER_MS, less the 2 % by which the wake detector may run fast. (20 R498) -/
  wakeAt : Option Nat := none
  /-- A wake arrived during entry. (20 R499) -/
  wakeLatched : Bool := false
  /-- Saved tables. (20 R497) -/
  saved : Option Saved := none
  /-- Local time of the last coolant report. (20 R510) -/
  lastCoolant : Nat := 0
  /-- Held for update. (21 R461) -/
  held : Bool := false
  /-- The half has reported ready. (01 R28) -/
  ready : Bool := false
  /-- Boot steps 1-7 have completed. (19 R475) -/
  booted : Bool := false
  /-- RST_x_N is low. (22 R549) -/
  inReset : Bool := false
  /-- Subsystems in reset: 0-3 clusters, 4-5 pairs, 6 fusion, 7 planning, 8-9 gather and page logic, 10 copy, 11 input, 12 MACs, 13 root port, 14 Tether. (20 R512) -/
  subReset : List Nat := []
  /-- The other half's Umpire pulses the peer wake line of this half. (20 R498) -/
  wakeLine : Bool := false
  /-- Fetching is stopped on every queue. (20 R497, 01 R29) -/
  draining : Bool := false
  deriving DecidableEq, Repr, Inhabited

/-- One half. (01 R14) -/
structure Half where
  /-- HALF_ID, hard-wired. (00 R4, 01 R14) -/
  me : HalfId := .a
  /-- The model's own counter of the free values taken, so that each is a fresh one; not the spec's. (MODEL'S OWN) -/
  free : Nat := 0
  /-- Identification. (00 R4) -/
  ident : Ident := {}
  /-- Mailboxes. (02 R33) -/
  mbx : Mbx := {}
  /-- Contexts, commands, engines and units. (11 R290) -/
  sched : Sched := {}
  /-- Memory. (12 R314) -/
  mem : Mem := {}
  /-- Regulator. (13 R359) -/
  qos : Qos := {}
  /-- Cores. (14 R360) -/
  cores : Cores := {}
  /-- Links. (15 R376) -/
  links : Links := {}
  /-- Time unit. (16 R411) -/
  tim : Tim := {}
  /-- Time unit, ports. (16 R416) -/
  timx : TimX := {}
  /-- Partners. (17 R423) -/
  ptn : Ptn := {}
  /-- Umpire. (18 R439) -/
  ump : Umpire := {}
  /-- Umpire. (18 R439) -/
  umpx : UmpX := {}
  /-- Self-test elements. (18 R457) -/
  tests : List SelfTest := List.replicate 10 {}
  /-- Security block. (19 R466) -/
  sec : Sec := {}
  /-- Service. (21 R528) -/
  svc : Svc := {}
  /-- Power. (20 R511) -/
  pow : Pow := {}
  /-- Power. (20 R500) -/
  powx : PowX := {}
  /-- Active configuration. (21 R516) -/
  cfg : Cfg := {}
  /-- Active configuration. (21 R518) -/
  cfgb : CfgB := {}
  /-- Number of the current frame. (01 R32) -/
  frame : Nat := 0
  /-- Boundaries crossed since the half became ready. (11 R292) -/
  frames : Nat := 0
  /-- The Captain's firmware is halted (INVASIVE) or faulty: the heartbeat stops. (02 R46) -/
  captainBad : Bool := false
  deriving DecidableEq, Repr, Inhabited

/-- Why a mode change is in progress. (01 R29) -/
inductive ChangeKind where
  /-- requested -/
  | request
  /-- fault in one half -/
  | fault
  /-- loss of the Handoff link -/
  | link
  /-- COMPARE_FAIL -/
  | compare
  deriving DecidableEq, Repr, Inhabited

/-- A mode change in progress. (01 R29, R31) -/
structure Change where
  /-- Cause. (01 R29) -/
  kind : ChangeKind := .request
  /-- Mode to enter. (01 R29) -/
  target : DevMode := .dual
  /-- HALF: the half that carries the chain or stays. (18 R461) -/
  half : HalfId := .a
  /-- LEAVE. (18 R461) -/
  leave : Nat := 0
  /-- Mailbox slot that asked. (01 R29) -/
  slot : Option (HalfId × Nat) := none
  /-- Frame boundaries until it takes effect (0: the leaving half drains). (01 R29) -/
  left : Nat := 1
  deriving DecidableEq, Repr, Inhabited

/-- A return from SOLO in progress. (01 R30) -/
structure Rejoin where
  /-- Returning half. (01 R30) -/
  half : HalfId := .a
  /-- Step of Table — Return from SOLO. (01 R30) -/
  step : Nat := 1
  /-- Requested mode. (01 R30) -/
  target : DevMode := .dual
  /-- Mailbox slot that asked. (01 R30) -/
  slot : Option (HalfId × Nat) := none
  /-- Frame in which the current step began. (01 R30) -/
  since : Nat := 0
  /-- The half kept running after a loss of the link and does not boot. (01 R30) -/
  kept : Bool := false
  /-- Local time of the running half at which the return began. (01 R30) -/
  begun : Nat := 0
  deriving DecidableEq, Repr, Inhabited

/-- An evacuation in progress. (17 R435) -/
structure Evac where
  /-- Sending half. (17 R435) -/
  half : HalfId := .a
  /-- Mailbox slot. (17 R435) -/
  slot : Nat := 0
  /-- CHAIN. (17 R435) -/
  chain : Bool := false
  /-- Frame whose commit had already come when the evacuation began. (17 R435) -/
  seen : Option Nat := none
  /-- Step of Table — Evacuation: 4, or 6 once COMMIT is sent. (17 R435) -/
  step : Nat := 4
  /-- Frames in which ACCEPT did not arrive. (17 R435) -/
  tries : Nat := 0
  deriving DecidableEq, Repr, Inhabited

/-- State of the device as a whole. (01 R16, R24) -/
structure Dev where
  /-- Device mode. (01 R24) -/
  mode : DevMode := .dual
  /-- Chain-carrying half. (01 R24) -/
  chain : HalfId := .a
  /-- The chain has been handed to the Tether peer. (17 R436) -/
  evacuated : Bool := false
  /-- Mode change in progress. (01 R31) -/
  change : Option Change := none
  /-- Return from SOLO in progress. (01 R30) -/
  rejoin : Option Rejoin := none
  /-- A fault or a loss of the Handoff link changed the mode, and the device has not since been in DUAL or MIRROR for one full frame. (21 R524) -/
  soloFault : Bool := false
  /-- Full frames held in the current mode. (01 R31) -/
  inMode : Nat := 0
  /-- The current mode began within the frame in progress. (01 R31) -/
  midFrame : Bool := false
  /-- PWR_CAP_SET messages waiting for the boundary: half, slot, watts. (20 R501) -/
  pendCap : List (HalfId × Nat × Nat) := []
  /-- SERIAL, written at manufacture. (00 R4) -/
  serial : BitVec 64 := 0
  /-- PWR_OK pin. (22 R546) -/
  pwrOk : Bool := false
  /-- Evacuation in progress. (17 R435) -/
  evac : Option Evac := none
  /-- The device has entered its mode since power-on. (01 R28) -/
  started : Bool := false
  deriving DecidableEq, Repr, Inhabited
/-- The reasons a step stops with a fault. The spec gives the block no stop of this kind: every error it describes is an
answer, a record or an event in the state, so the type is empty (safe). -/
inductive Fault where
  deriving DecidableEq, Repr

/-- The reasons a step is refused. -/
inductive Refusal where
  /-- Raised by exec's arm of a command that has no meaning yet (safe: nothing is claimed of it). -/
  | notModelled (mnemonic : String)
  /-- Raised by TAP_INSTRUCTION for Nirlevan's private TAP instructions, whose effect the spec does not give
  (spec/19_security_debug_power.md R485; safe: the machine stops). -/
  | privateTap
  deriving DecidableEq, Repr

/-- The whole machine: two halves, the device, and the queue of waiting commands. -/
structure State where
  /-- Half A (R14). -/
  a : Half := {}
  /-- Half B (R14). -/
  b : Half := { me := .b }
  /-- What the halves share (R16, R24). -/
  dev : Dev := {}
  /-- The answer to the last access from outside (R18, R23). -/
  resp : Resp := .none
  /-- The model's own queue of commands that wait, first in, first out. -/
  pending : List Sys2Proof.Instr := []
  deriving DecidableEq, Repr

/-- The machine right after reset: every field at the value its docstring and INVENTORY.md name, before the rise of
PWR_OK (log 5). -/
def State.reset : State := {}

end Sys2Proof.Machine
end

