-- ==== Sys2Proof/Machine/Flags.lean ====
section
/-! DEFINITION. Interrupt identities, event bits and their enables: what raises an interrupt and what re-arms it. -/

namespace Sys2Proof.Machine

/-- The identity is delivered to the core, unless it is already there and not re-armed
(spec/14_cores.md R374). -/
def Half.deliver (x : Half) (core ident : Nat) : Half :=
  if (core, ident) ∈ x.cores.irqs then x
  else { x with cores := { x.cores with irqs := x.cores.irqs ++ [(core, ident)] } }

/-- Delivers an identity of Table — Interrupt identities that goes to SYSTEM_CORE. -/
def Half.raise (x : Half) (ident : Nat) : Half := x.deliver x.cfg.systemCore ident

/-- A source is re-armed: its identity may be delivered again (R374). -/
def Half.rearm (x : Half) (ident : Nat) : Half :=
  { x with cores := { x.cores with irqs := x.cores.irqs.filter (fun p => p.2 ≠ ident) } }

/-- A new event of a source re-arms its identity and delivers it to SYSTEM_CORE (R374). -/
def Half.announce (x : Half) (ident : Nat) : Half := (x.rearm ident).raise ident

/-- The machine external interrupt line of a real-time pair rises (R375). -/
def Half.pairLine (x : Half) (p : Nat) : Half :=
  { x with cores := { x.cores with pairs := x.cores.pairs.modify p (fun r => { r with extIrq := true }) } }

/-- The external line of every pair bound to the client rises (R375). -/
def Half.clientLines (x : Half) (client : Nat) : Half :=
  (List.range 2).foldl (fun y p => if ((y.cfg.pairs[p]?).map (·.client)) = some client then y.pairLine p else y) x

/-- Bit i of a W1C or event register is set. -/
def setBit {n : Nat} (r : BitVec n) (i : Nat) : BitVec n := r ||| (1#n <<< i)

/-- Sets a UMP_EVENTS bit and raises identity 69 when its enable is set (spec/18_safety.md R464). -/
def Half.umpEvent (x : Half) (i : Nat) : Half :=
  let y := { x with ump := { x.ump with events := setBit x.ump.events i } }
  if x.ump.irqEnable.getLsbD i then y.raise 69 else y

/-- Sets a TIM_EVENTS bit (spec/16_time_and_ethernet.md R421). -/
def Half.timEvent (x : Half) (i : Nat) : Half :=
  { x with tim := { x.tim with events := setBit x.tim.events i } }

/-- Sets a THM_EVENTS bit; one whose enable is set raises identity 66 (spec/20_power_thermal_reset.md R511). -/
def Half.thmEvent (x : Half) (i : Nat) : Half :=
  let y := { x with pow := { x.pow with events := setBit x.pow.events i } }
  if x.pow.irqEnable.getLsbD i then y.raise 66 else y

/-- Sets a LNK_IRQ_STATUS bit; one whose enable is set raises identity 79 (spec/15_die_to_die_links.md R397). -/
def Half.lnkEvent (x : Half) (i : Nat) : Half :=
  let y := { x with links := { x.links with irqStatus := setBit x.links.irqStatus i } }
  if x.links.irqEnable.getLsbD i then y.raise 79 else y

/-- Sets a QOS_IRQ_STATUS bit; one whose enable is set raises identity 65 (spec/13_bandwidth_regulation.md R356). -/
def Half.qosEvent (x : Half) (i : Nat) : Half :=
  let y := { x with qos := { x.qos with irqStatus := setBit x.qos.irqStatus i } }
  if x.qos.irqEnable.getLsbD i then y.raise 65 else y

/-- A deadline-mode cause becomes active or clears (spec/13_bandwidth_regulation.md R350). -/
def Half.cause (x : Half) (i : Nat) (on : Bool) : Half :=
  { x with qos := { x.qos with causes := if on then setBit x.qos.causes i else x.qos.causes &&& ~~~(1#6 <<< i) } }

/-- Sets bit s of MBX_IRQ_STATUS and, when enabled, delivers identity 1 + s to the core that last stored the slot's
doorbell; bits 60 to 63 are never set (spec/02_captain_and_mailboxes.md R34, spec/14_cores.md R374, R375). -/
def Half.mbxIrq (x : Half) (slot core client : Nat) : Half :=
  if slot < 60 then
    let y := { x with mbx := { x.mbx with irqStatus := setBit x.mbx.irqStatus slot } }
    (if x.mbx.irqEnable.getLsbD slot then y.deliver core (1 + slot) else y).clientLines client
  else x

end Sys2Proof.Machine
end

