-- ==== Sys2Proof/Machine/Ops.lean ====
section
/-! DEFINITION. The operations every command shares: the halves of the state, bit fields and bytes, byte memory in its canonical
form, translation, synchronised time, and the three logs. -/

namespace Sys2Proof.Machine

/-! ### The two halves -/

/-- The other half (spec/01_two_halves.md R14). -/
def other : HalfId → HalfId
  | .a => .b
  | .b => .a

/-- The named half. -/
def State.half (s : State) : HalfId → Half
  | .a => s.a
  | .b => s.b

/-- The state with the named half replaced. -/
def State.setHalf (s : State) (h : HalfId) (x : Half) : State :=
  match h with
  | .a => { s with a := x }
  | .b => { s with b := x }

/-- Physical base address at which application cores see the control space of a half (spec/01_two_halves.md R22). -/
def ctrlBase : HalfId → Nat
  | .a => 0x4000000000
  | .b => 0x4800000000

/-- Size of a control space, 256 MiB (R22). -/
def ctrlBytes : Nat := 0x10000000

/-- The half and offset of a physical address of control space, if it lies in one (R22). -/
def ctrlAt (a : Nat) : Option (HalfId × Nat) :=
  if ctrlBase .a ≤ a && a < ctrlBase .a + ctrlBytes then some (.a, a - ctrlBase .a)
  else if ctrlBase .b ≤ a && a < ctrlBase .b + ctrlBytes then some (.b, a - ctrlBase .b)
  else none

/-- The state with a function applied to the named half. -/
def State.mod (s : State) (h : HalfId) (f : Half → Half) : State := s.setHalf h (f (s.half h))

/-- Half A is 0 and Half B is 1 wherever the spec codes a half (spec/00_scope.md R4). -/
def halfCode : HalfId → Nat
  | .a => 0
  | .b => 1

/-- SERIAL as manufacture wrote it: never the reset value (spec/00_scope.md R4); which number it is the spec leaves open (log 84). -/
def partSerial : BitVec 64 := if Config.serial = 0 then 1 else Config.serial

/-- A fresh seed for one free value of the half, distinct between the halves (log 3). -/
def Half.seed (x : Half) : Nat := 2 * x.free + halfCode x.me

/-- The half after it has taken a free value. -/
def Half.took (x : Half) : Half := { x with free := x.free + 1 }

/-! ### Bit fields and bytes -/

/-- The bits [off + w - 1 : off]. -/
def fld {n : Nat} (m : BitVec n) (off w : Nat) : Nat := (m.extractLsb' off w).toNat

/-- The bit at position i. -/
def bitAt {n : Nat} (m : BitVec n) (i : Nat) : Bool := m.getLsbD i

/-- Fields placed in a word: (bit offset, width, value), each value taken modulo its width. -/
def pack (n : Nat) (l : List (Nat × Nat × Nat)) : BitVec n :=
  l.foldl (fun acc p => acc ||| (BitVec.ofNat n (p.2.2 % 2 ^ p.2.1) <<< p.1)) 0

/-- A truth value as a bit. -/
def b2n (b : Bool) : Nat := if b then 1 else 0

/-- The two's-complement code of an integer in w bits. -/
def encInt (w : Nat) (i : Int) : Nat := (BitVec.ofInt w i).toNat

/-- The integer that a two's-complement code of w bits stands for. -/
def decInt (w v : Nat) : Int := (BitVec.ofNat w v).toInt

/-- n bytes of a number, little-endian (spec/00_scope.md R6). -/
def leBytes (n v : Nat) : List Byte := (List.range n).map (fun i => BitVec.ofNat 8 (v >>> (8 * i)))

/-- The number that bytes stand for, little-endian (R6). -/
def leNat : List Byte → Nat
  | [] => 0
  | b :: bs => b.toNat + 256 * leNat bs

/-- w bytes at an offset of a byte list, as a number; bytes beyond its end read as zero. -/
def bytesAt (l : List Byte) (off w : Nat) : Nat := leNat ((l.drop off).take w)

/-- A number saturated at a register's maximum. -/
def satNat (w v : Nat) : Nat := min v (2 ^ w - 1)

/-- An increment that stops at the maximum. -/
def satInc {n : Nat} (r : BitVec n) : BitVec n := BitVec.ofNat n (satNat n (r.toNat + 1))

/-- Division rounded up. -/
def cdiv (a b : Nat) : Nat := (a + b - 1) / b

/-! ### Byte memory -/

/-- The value at an address; an unlisted address reads zero (log 6). -/
def memRead : List Host.Cell → Nat → Byte
  | [], _ => 0
  | (b, w) :: m, a => if a = b then w else memRead m a

/-- The write that keeps the canonical form: addresses rising, no entry zero. -/
def memWrite : List Host.Cell → Nat → Byte → List Host.Cell
  | [], a, v => if v = 0 then [] else [(a, v)]
  | (b, w) :: m, a, v =>
    if a < b then (if v = 0 then (b, w) :: m else (a, v) :: (b, w) :: m)
    else if a = b then (if v = 0 then m else (a, v) :: m)
    else (b, w) :: memWrite m a v

/-- The canonical form: every address above the bound and rising, no listed byte zero. -/
def memWfFrom : Option Nat → List Host.Cell → Bool
  | _, [] => true
  | lo, (b, w) :: m => (match lo with | none => true | some l => decide (l < b)) && decide (w ≠ 0) && memWfFrom (some b) m

/-- The canonical form of a memory. -/
def Memory.wf (m : List Host.Cell) : Bool := memWfFrom none m

/-- Consecutive bytes written from an address up. -/
def memWrites : List Host.Cell → Nat → List Byte → List Host.Cell
  | m, _, [] => m
  | m, a, b :: bs => memWrites (memWrite m a b) (a + 1) bs

/-- Consecutive bytes read. -/
def memReads (m : List Host.Cell) (a n : Nat) : List Byte := (List.range n).map (fun i => memRead m (a + i))

/-- The memory with every cell of an address range removed, so that the range reads zero. -/
def memClear (m : List Host.Cell) (lo n : Nat) : List Host.Cell := m.filter (fun c => !(lo ≤ c.1 && c.1 < lo + n))

/-! ### Frames, pages and translation -/

/-- Page and frame size, 512 KiB (spec/12_memory_system.md R318, R319). -/
def pageBytes : Nat := 524288

/-- Frames of one stack (R318). -/
def stackFrames : Nat := 64373

/-- Frames that the Captain reserves in each stack (R318); the model takes the lowest (log 7). -/
def reservedFrames : Nat := 512

/-- Virtual space of a context, 48 bits (R319). -/
def vaLimit : Nat := 2 ^ 48

/-- The model's address of a byte of a frame. -/
def physAddr (stack frame off : Nat) : Nat := (stack * stackFrames + frame) * pageBytes + off

/-- The Tensor Page Table entry of a context's page (R319). -/
def Half.tptOf (x : Half) (ctx page : Nat) : Option Tpt := x.mem.tpt.find? (fun t => t.ctx = ctx && t.page = page)

/-- The entry that maps a virtual address. -/
def Half.tptAt (x : Half) (ctx va : Nat) : Option Tpt := x.tptOf ctx (va / pageBytes)

/-- The pages that n bytes from an address touch. -/
def pagesOf (va n : Nat) : List Nat :=
  if n = 0 then [] else (List.range ((va + n - 1) / pageBytes + 1 - va / pageBytes)).map (fun i => va / pageBytes + i)

/-- All n bytes lie in mapped pages of the context's 48-bit space. -/
def Half.mapped (x : Half) (ctx va n : Nat) : Bool :=
  decide (va + n ≤ vaLimit) && (pagesOf va n).all (fun p => (x.tptOf ctx p).isSome)

/-- A page is a sync page. -/
def Tpt.isSync (t : Tpt) : Bool := match t.dest with
  | .sync _ => true
  | .frame _ _ => false

/-- All n bytes lie in mapped pages that are neither READ_ONLY nor sync pages (R323). -/
def Half.writable (x : Half) (ctx va n : Nat) : Bool :=
  decide (va + n ≤ vaLimit) &&
    (pagesOf va n).all (fun p => match x.tptOf ctx p with
      | some t => !t.ro && !t.isSync
      | none => false)

/-- All n bytes lie in mapped pages and none of them is a sync page. -/
def Half.mappedPlain (x : Half) (ctx va n : Nat) : Bool :=
  decide (va + n ≤ vaLimit) && (pagesOf va n).all (fun p => match x.tptOf ctx p with
    | some t => !t.isSync
    | none => false)

/-- The sync word of a sync page (spec/11_scheduling_and_sync.md R304): empty with value zero unless listed. -/
def Half.syncWord (x : Half) (page word : Nat) : SyncWord :=
  (x.mem.sync.find? (fun w => w.page = page && w.word = word)).getD { page := page, word := word }

/-- Sets a sync word, listing only words that differ from empty with value zero. -/
def Half.setSync (x : Half) (w : SyncWord) : Half :=
  let rest := x.mem.sync.filter (fun v => !(v.page = w.page && v.word = w.word))
  { x with mem := { x.mem with sync := if w.value = 0 && !w.full then rest else w :: rest } }

/-- The sync page and word at a virtual address of a context, when it lies in a sync page. -/
def Half.syncAt (x : Half) (ctx va : Nat) : Option (Nat × Nat) :=
  match x.tptAt ctx va with
  | some { dest := .sync p, .. } => some (p, va % pageBytes / 8)
  | _ => none

/-- The byte at a virtual address; a sync page gives its word's value (R304); an unmapped page reads zero, and every
command checks its mappings before it reads. -/
def Half.vbyte (x : Half) (ctx va : Nat) : Byte :=
  match x.tptAt ctx va with
  | some t => match t.dest with
    | .frame st f => memRead x.mem.cells (physAddr st f (va % pageBytes))
    | .sync p => BitVec.ofNat 8 ((x.syncWord p (va % pageBytes / 8)).value.toNat >>> (8 * (va % 8)))
  | none => 0

/-- n bytes at a virtual address. -/
def Half.vread (x : Half) (ctx va n : Nat) : List Byte := (List.range n).map (fun i => x.vbyte ctx (va + i))

/-- A little-endian number of n bytes at a virtual address. -/
def Half.vnat (x : Half) (ctx va n : Nat) : Nat := leNat (x.vread ctx va n)

/-- Writes one byte at a virtual address of a frame page; nothing is written elsewhere. -/
def Half.vput (x : Half) (ctx va : Nat) (b : Byte) : Half :=
  match x.tptAt ctx va with
  | some t => match t.dest with
    | .frame st f => { x with mem := { x.mem with cells := memWrite x.mem.cells (physAddr st f (va % pageBytes)) b } }
    | .sync _ => x
  | none => x

/-- Writes consecutive bytes at a virtual address. -/
def Half.vwrite (x : Half) (ctx va : Nat) (bs : List Byte) : Half :=
  (List.range bs.length).foldl (fun y i => y.vput ctx (va + i) (bs[i]?.getD 0)) x

/-- Writes listed bytes, as a commit makes its staged bytes visible (spec/04_tensor_engines.md R109). -/
def Half.vputs (x : Half) (ctx : Nat) (l : List (Nat × Byte)) : Half :=
  l.foldl (fun y p => y.vput ctx p.1 p.2) x

/-- The physical 64-byte block of a virtual address: stack, frame, block. -/
def Half.blockAt (x : Half) (ctx va : Nat) : Option (Nat × Nat × Nat) :=
  match x.tptAt ctx va with
  | some { dest := .frame st f, .. } => some (st, f, va % pageBytes / 64)
  | _ => none

/-- The codeword of the block at a virtual address is uncorrectable (R328). -/
def Half.badAt (x : Half) (ctx va : Nat) : Bool :=
  match x.blockAt ctx va with
  | some (st, f, b) => x.mem.bad.any (fun k => k.stack = st && k.frame = f && k.block = b)
  | none => false

/-- The 64-byte blocks, by virtual address, that n bytes from an address touch. -/
def blocksOf (va n : Nat) : List Nat :=
  if n = 0 then [] else (List.range ((va + n - 1) / 64 + 1 - va / 64)).map (fun i => (va / 64 + i) * 64)

/-- The first uncorrectable block among the ranges a command reads (R329). -/
def Half.firstBad (x : Half) (ctx : Nat) (ranges : List (Nat × Nat)) : Option Nat :=
  if x.mem.bad = [] then none
  else (ranges.flatMap (fun r => blocksOf r.1 r.2)).find? (fun va => x.badAt ctx va)

/-- Frames in use by a mapping, retired, or moving (R319, R331). -/
def Half.frameUsed (x : Half) (stack f : Nat) : Bool :=
  x.mem.tpt.any (fun t => t.dest = .frame stack f) || (stack, f) ∈ x.mem.retired ||
    x.mem.moves.any (fun m => m.stack = stack && (m.old = f || m.new = f))

/-- Frames of a stack out of the free pool: mapped, retired or moving, each once. -/
def Half.usedFrames (x : Half) (stack : Nat) : List Nat :=
  ((x.mem.tpt.filterMap (fun t => match t.dest with
      | .frame st f => if st = stack then some f else none
      | .sync _ => none)) ++ (x.mem.retired.filter (fun r => r.1 = stack)).map (·.2) ++
    (x.mem.moves.filter (fun m => m.stack = stack)).flatMap (fun m => [m.old, m.new])).eraseDups

/-- Free frames of a stack (R318, R319). -/
def Half.freeFrames (x : Half) (stack : Nat) : Nat :=
  stackFrames - reservedFrames - ((x.usedFrames stack).filter (fun f => reservedFrames ≤ f)).length

/-- The lowest number from `lo` that is not in the list, looking at `fuel` numbers (log 7). -/
def lowestFree (used : List Nat) : Nat → Nat → Option Nat
  | _, 0 => none
  | lo, fuel + 1 => if lo ∈ used then lowestFree used (lo + 1) fuel else some lo

/-- The lowest free client frame of a stack (log 7). -/
def Half.freeFrame (x : Half) (stack : Nat) : Option Nat :=
  let used := x.usedFrames stack
  (lowestFree used reservedFrames (used.length + 1)).filter (fun f => f < stackFrames)

/-! ### Time -/

/-- The half's synchronised time in ns (spec/16_time_and_ethernet.md R411). -/
def Half.st (x : Half) : Nat :=
  if x.tim.running then
    x.tim.base + ((((x.tim.local' - x.tim.base0 : Nat) : Int) * (1000000000 + x.tim.rate)) / 1000000000).toNat
  else x.tim.base

/-- The half's local counter in ns (R411). -/
def Half.now (x : Half) : Nat := x.tim.local'

/-- A time of the local counter has been reached. -/
def Half.since (x : Half) (t ns : Nat) : Bool := decide (t + ns ≤ x.now)

/-! ### The logs -/

/-- A ring log keeps its newest `cap` entries, oldest first. -/
def ringPush {α : Type} (cap : Nat) (l : List α) (e : α) : List α := (l ++ [e]).drop (l.length + 1 - cap)

/-- The source of an event of the violation log (spec/17_partners.md R429, SRC_KIND). -/
inductive VSrc where
  /-- A tracked partner, by its entry. -/
  | partner (n : Nat)
  /-- An application core. -/
  | core (n : Nat)
  /-- A real-time pair. -/
  | pair (n : Nat)
  /-- The other half. -/
  | half
  /-- The configuration. -/
  | config
  /-- An untracked partner, by its identity. -/
  | untracked (identity : Nat)
  deriving DecidableEq, Repr

/-- SRC_KIND of a source (R429). -/
def VSrc.kind : VSrc → Nat
  | .partner _ => 0
  | .core _ => 1
  | .pair _ => 2
  | .half => 3
  | .config => 4
  | .untracked _ => 5

/-- SOURCE of a source: partner entry, core number, pair, or 0 (R429). -/
def VSrc.num : VSrc → Nat
  | .partner n => n
  | .core n => n
  | .pair n => n
  | .half => 0
  | .config => 0
  | .untracked _ => 0

/-- An entry of Table — Violation log entry, with REPEATS 0 (R429). -/
def vioEntry (seq kind ans code cls detail src time addr : Nat) : BitVec 256 :=
  pack 256 [(0, 32, seq), (56, 8, kind), (48, 8, ans), (40, 8, code), (32, 8, cls), (64, 16, src), (96, 32, detail),
    (128, 64, time), (192, 64, addr)]

/-- Two violations that merge: same source, class and CODE, within 1 ms after the entry's TIME (R429). -/
def vioMerges (e : BitVec 256) (kind code cls src addr time : Nat) (untr : Bool) : Bool :=
  fld e 56 8 = kind && fld e 40 8 = code && fld e 32 8 = cls && fld e 64 16 = src && fld e 48 8 ≠ 4 &&
    (!untr || fld e 192 64 = addr) && fld e 128 64 ≤ time && time ≤ fld e 128 64 + 1000000

/-- Adds one to REPEATS, stopping at 0xFFFF. -/
def vioRepeat (e : BitVec 256) : BitVec 256 :=
  if fld e 80 16 = 0xFFFF then e else e + (BitVec.ofNat 256 1 <<< 80)

/-- Writes a new violation log entry and raises identity 68 (R429). -/
def Half.vioNew (x : Half) (src : VSrc) (cls code ans detail addr : Nat) : Half :=
  let e := vioEntry x.ptn.written.toNat src.kind ans code cls detail src.num x.st addr
  ({ x with ptn := { x.ptn with log := ringPush 1024 x.ptn.log e, written := x.ptn.written + 1 } }).announce 68

/-- Logs a violation, merging repeats within 1 ms (R429). -/
def Half.vioLog (x : Half) (src : VSrc) (cls code ans detail addr : Nat) : Half :=
  let untr := match src with
    | .untracked _ => true
    | _ => false
  let hit := fun e => vioMerges e src.kind code cls src.num addr x.st untr
  if x.ptn.log.any hit then
    { x with ptn := { x.ptn with log := x.ptn.log.map (fun e => if hit e then vioRepeat e else e) } }
  else x.vioNew src cls code ans detail addr

/-- THRESHOLD, WINDOW_MS and HOLD_MS of a class in the active configuration (R426). -/
def Half.vioParams (x : Half) (cls : Nat) : Nat × Nat × Nat :=
  match x.cfgb.viol.find? (fun p => p.1 = cls) with
  | some (_, t, w, hd) => (t, w, hd)
  | none => (0, 0, 0)

/-- The partner entry. -/
def Half.partner (x : Half) (n : Nat) : Partner := x.ptn.entries[n]?.getD {}

/-- Changes a partner entry. -/
def Half.modPartner (x : Half) (n : Nat) (f : Partner → Partner) : Half :=
  { x with ptn := { x.ptn with entries := x.ptn.entries.modify n f } }

/-- Changes a link record (spec/15_die_to_die_links.md R397). -/
def Half.modLink (x : Half) (i : Nat) (f : Link → Link) : Half :=
  { x with links := { x.links with recs := x.links.recs.modify i f } }

/-- The link record. -/
def Half.link (x : Half) (i : Nat) : Link := x.links.recs[i]?.getD {}

/-- The link carries traffic: UP or DEGRADED (spec/15_die_to_die_links.md R397). -/
def Link.works (l : Link) : Bool := l.st = .up || l.st = .degraded

/-- LNK_STATE code (R397). -/
def lnkCode : LnkState → Nat
  | .down => 0
  | .training => 1
  | .up => 2
  | .degraded => 3
  | .retraining => 4
  | .disabled => 5

/-- A change of a link's state, its event time and its interrupt (R397). -/
def Half.linkSet (x : Half) (i : Nat) (st : LnkState) : Half :=
  if (x.link i).st = st then x
  else (x.modLink i (fun l => { l with st := st, eventTime := BitVec.ofNat 64 x.st })).lnkEvent i

/-- A replace-board advisory of a link (spec/15_die_to_die_links.md R387): LNK_ADVISORY, the link event log entry of the link as
it now stands (spec/17_partners.md R431), the interrupt, and the count of SAF_STATUS. -/
def Half.linkAdvisory (x : Half) (i : Nat) : Half :=
  let y := x.modLink i (fun l => { l with advisory := true })
  let l := y.link i
  let e := pack 256 [(0, 32, y.links.logSeq.toNat), (32, 8, i), (40, 8, lnkCode l.st), (48, 8, l.reason.toNat),
    (56, 8, l.width.toNat), (64, 64, y.st), (128, 32, l.payload.toNat), (160, 1, 1)]
  ({ y with links := { y.links with
      log := ringPush 256 y.links.log e, logSeq := y.links.logSeq + 1, advisories := satInc y.links.advisories } }).lnkEvent i

/-- A partner becomes ABSENT; a quarantined entry stays QUARANTINED (R424, R428). -/
def Half.ptnAbsent (x : Half) (n : Nat) : Half :=
  x.modPartner n (fun p => if p.st = .present then { p with st := .absent } else p)

/-- A link goes DOWN (R386, R387): the advisory; a die with every module out of service is ABSENT; without the open site the
half has no camera inputs and its Umpire is told (spec/18_safety.md R456). -/
def Half.linkDown (x : Half) (i : Nat) : Half :=
  if (x.link i).st = .down then x
  else
    let y := ((x.modLink i (fun l => { l with width := 0, payload := 0 })).linkSet i .down).linkAdvisory i
    if i < 16 then
      let out := fun (k : Nat) => let st := (y.link (i / 8 * 8 + k)).st; st = .down || st = .disabled
      if (List.range 8).all out then y.ptnAbsent (9 + i / 8) else y
    else if i = 16 then
      (({ y with sched := { y.sched with pipe := { y.sched.pipe with sideReset := false } } } : Half).ptnAbsent 8).umpEvent 10
    else y

/-- The link that a fixed partner entry stands on, if it stands on one: compute dies 9 and 10 on modules 0 to 15, the
open site on 16, the Tether on 18 (spec/15_die_to_die_links.md R397, spec/17_partners.md R423). -/
def partnerLinks (n : Nat) : List Nat :=
  if n = 8 then [16] else if n = 9 then List.range 8 else if n = 10 then (List.range 8).map (· + 8)
  else if n = 11 then [18] else []

/-- The partner serves a context of tier CHAIN: a camera or the Sideline die whose bindings include one, a generic die whose site windows
do, or the Tether peer whose windows or slots do (R427). -/
def Half.servesChain (x : Half) (n : Nat) : Bool :=
  let chain := fun c => (x.sched.ctxs.find? (fun k => k.id = c)).any (fun k => k.tier = 0)
  if n < 8 then x.sched.pipe.bindings.any (fun b => b.source = n && chain b.ctx)
  else if n = 8 then
    if x.ptn.sites then x.cfg.siteWins.any (fun w => chain w.ctx) else x.sched.pipe.bindings.any (fun b => chain b.ctx)
  else if n = 11 then x.mem.windows.any (fun w => w.tether && chain w.ctx) || x.mem.inbound.any (fun i => i.tether && chain i.ctx)
  else false

/-- The management-bus slots of a tool return to FREE, each once its message completes (R426, class 0x09). -/
def Half.freeToolSlots (x : Half) (n : Nat) : Half :=
  let a := (x.partner n).ident.toNat
  { x with mbx := { x.mbx with slots := x.mbx.slots.zipIdx.map (fun p =>
      if p.2 < 60 || p.1.tool ≠ a || p.1.st = .free then p.1
      else if p.1.st = .posted || p.1.st = .acked then { p.1 with freeOnDone := true }
      else { p.1 with st := .free, inb := 0, outb := 0, ownerValid := false, ownerClient := 0, fromDone := false, started := false
                      freeOnDone := false, waits := false, rung := 0 }) } }

/-- Quarantines a partner: its state, its count, its RELEASE_TIME, the entry with ANSWER 4, and what the class means for its
link (R426, R427, R428). -/
def Half.quarantine (x : Half) (n cls code detail addr : Nat) : Half :=
  let hold := (x.vioParams cls).2.2
  let y := x.modPartner n (fun p => { p with
    st := .quarantined, quars := satInc p.quars
    release := if hold = 0 then 0 else BitVec.ofNat 64 (x.st + hold * 1000000) })
  let z := y.vioNew (.partner n) cls code 4 detail addr
  let z := if cls = 4 then (partnerLinks n).foldl (fun w i => w.linkDown i) z
    else if cls = 8 && n = 8 then z.linkSet 16 .disabled
    else if cls = 9 then z.freeToolSlots n
    else z
  if z.servesChain n then z.umpEvent 10 else z

/-- Answers one violation: it is logged, counted against its source, and a tracked partner whose count in the class
reaches THRESHOLD within WINDOW_MS is quarantined (R426). -/
def Half.violate (x : Half) (src : VSrc) (cls code ans detail addr : Nat) : Half :=
  let y := x.vioLog src cls code ans detail addr
  match src with
  | .untracked _ => { y with ptn := { y.ptn with untracked := y.ptn.untracked + 1 } }
  | .partner n =>
    let t := x.st
    let (thr, win, _) := x.vioParams cls
    let z := y.modPartner n (fun p => { p with
      viol := satInc p.viol, lastCls := BitVec.ofNat 8 cls
      counts := (p.counts.filter (fun c => t < c.2 + (x.vioParams c.1).2.1 * 1000000)) ++ [(cls, t)] })
    let cnt := ((z.partner n).counts.filter (fun c => c.1 = cls && t < c.2 + win * 1000000)).length
    if thr ≠ 0 && thr ≤ cnt && (z.partner n).st ≠ .quarantined then z.quarantine n cls code detail addr else z
  | _ => y

/-- A tool on the management bus reaches no register but the pages of slots 60 to 63 (spec/02_captain_and_mailboxes.md R33). -/
def isTool : Agent → Bool
  | .tool _ => true
  | _ => false

/-- The violation source of an agent; a tool is a partner found by its bus address (R423). -/
def Half.agentSrc (x : Half) : Agent → VSrc
  | .core n _ => .core n
  | .pair n => .pair n
  | .tool a => match x.ptn.entries.find? (fun p => p.kind = 7 && p.ident = BitVec.ofNat 64 a && p.st ≠ .empty) with
    | some p => .partner p.num
    | none => .untracked a

/-- A class 0x0A access by a core or pair, dropped and counted; CODE numbers the rule in the order of Table — Violation
classes: 1 R23, 2 R35, 3 R56, 4 R58, 5 R304, 6 R365, 7 R358 (R426). -/
def Half.coreVio (x : Half) (ag : Agent) (code off addr : Nat) : Half := x.violate (x.agentSrc ag) 0x0A code 1 off addr

/-- The address at which an agent sees an offset of the half's control space: an application core's physical address (R22), a pair's
own map (spec/14_cores.md R370), and for a tool the offset. -/
def Half.ctrlAddr (x : Half) (ag : Agent) (off : Nat) : Nat :=
  match ag with
  | .core _ _ => ctrlBase x.me + off
  | .pair _ => 0xE0000000 + off
  | .tool _ => off

/-- A class 0x0A access to an offset of the half's control space. -/
def Half.ctrlVio (x : Half) (ag : Agent) (code off : Nat) : Half := x.coreVio ag code off (x.ctrlAddr ag off)

/-- A signature uses the next leaf; a level-1 tree of 1,024 leaves that is used up is followed by the pre-generated one
(spec/19_security_debug_power.md R469). -/
def Half.useLeaf (x : Half) : Half :=
  let n := x.sec.leaves + 1
  { x with sec := { x.sec with leaves := n, nextTree := x.sec.nextTree && n % 1024 ≠ 0 } }

/-- Marks a partner seen now (R423, R424). -/
def Half.ptnSeen (x : Half) (n : Nat) : Half :=
  x.modPartner n (fun p => { p with last := BitVec.ofNat 64 x.st })

/-- A partner arrives (R424): the entry of the same KIND and identity, else the lowest EMPTY dynamic entry, else the ABSENT
dynamic entry longest unseen, else it is served untracked. -/
def Half.ptnArrive (x : Half) (kind attach ident : Nat) : Half :=
  let dyn := x.ptn.entries.filter (fun p => 16 ≤ p.num)
  match dyn.find? (fun p => p.kind.toNat = kind && p.ident.toNat = ident && p.st ≠ .empty) with
  | some p => (x.modPartner p.num (fun q => { q with st := if q.st = .quarantined then .quarantined else .present })).ptnSeen p.num
  | none =>
    let put := fun (q : Partner) (g : BitVec 32) => { q with
      kind := BitVec.ofNat 8 kind, st := .present, attach := BitVec.ofNat 8 attach, gen := g, ident := BitVec.ofNat 64 ident
      first := BitVec.ofNat 64 x.st, last := BitVec.ofNat 64 x.st, viol := 0, quars := 0, lastCls := 0, release := 0
      counts := [], awaitFirst := false }
    match dyn.find? (fun p => p.st = .empty) with
    | some p => x.modPartner p.num (fun q => put q q.gen)
    | none =>
      let absent := dyn.filter (fun p => p.st = .absent)
      match absent.find? (fun p => absent.all (fun q => p.last.toNat ≤ q.last.toNat)) with
      | some p => x.modPartner p.num (fun q => put q (q.gen + 1))
      | none => { x with ptn := { x.ptn with full := x.ptn.full + 1 } }

/-- A fixed partner (entries 0 to 11) is present from now, with the identity given (R423); an entry that passes to another partner starts
its counts afresh, with the next GENERATION (R425). -/
def Half.ptnFixed (x : Half) (n attach ident : Nat) : Half :=
  x.modPartner n (fun p =>
    let other := p.st ≠ .empty && p.st ≠ .quarantined && p.ident ≠ BitVec.ofNat 64 ident
    let p : Partner := if other then { p with
      st := .empty, gen := p.gen + 1, viol := 0, quars := 0, lastCls := 0, release := 0, counts := [], awaitFirst := false } else p
    { p with
    st := if p.st = .quarantined then .quarantined else .present
    attach := BitVec.ofNat 8 attach, ident := BitVec.ofNat 64 ident
    first := if p.st = .empty then BitVec.ofNat 64 x.st else p.first, last := BitVec.ofNat 64 x.st })

/-- The pseudo-channel that holds a block of a frame (spec/12_memory_system.md R318). -/
def Half.pseudoChannel (x : Half) (stack frame block : Nat) : Nat :=
  let ins := (List.range 32).filter (fun p => stack * 32 + p ∉ x.mem.pcsOut)
  ins[(block / 4 + frame) % max 1 ins.length]?.getD 0

/-- LOCATION of a DRAM block: [8] stack, [4:0] pseudo-channel (R333). -/
def Half.dramLoc (x : Half) (stack frame block : Nat) : Nat := stack * 256 + x.pseudoChannel stack frame block

/-- Writes a memory error log entry and raises identity 67; `owner` is context and virtual address of the block (R333). -/
def Half.memErr (x : Half) (kind where' loc : Nat) (owner : Option (Nat × Nat)) : Half :=
  let cl := fun c => (x.sched.ctxs.find? (fun k => k.id = c)).elim 0 (·.client)
  let e := pack 256 ([(0, 32, x.mem.logSeq.toNat), (32, 8, kind), (40, 8, where'), (80, 16, loc), (192, 64, x.st)] ++
    (match owner with
      | some (c, va) => [(48, 12, c), (64, 8, cl c), (72, 1, 1), (128, 64, va / 64 * 64)]
      | none => []))
  ({ x with mem := { x.mem with log := ringPush 4096 x.mem.log e, logSeq := x.mem.logSeq + 1 } }).announce 67

/-- The context with an identifier. -/
def Half.ctx (x : Half) (c : Nat) : Option Ctx := x.sched.ctxs.find? (fun k => k.id = c)

/-- The client with an identifier. -/
def Half.client (x : Half) (c : Nat) : Option Client := x.sched.clients.find? (fun k => k.id = c)

/-- The queue with an identifier. -/
def Half.queue (x : Half) (q : Nat) : Option Queue := x.sched.queues.find? (fun k => k.id = q)

/-- The client that owns a context. -/
def Half.ctxClient (x : Half) (c : Nat) : Nat := (x.ctx c).elim 0 (·.client)

/-- Changes every client with the identifier. -/
def Half.modClient (x : Half) (c : Nat) (f : Client → Client) : Half :=
  { x with sched := { x.sched with clients := x.sched.clients.map (fun k => if k.id = c then f k else k) } }

/-- Changes every queue with the identifier. -/
def Half.modQueue (x : Half) (q : Nat) (f : Queue → Queue) : Half :=
  { x with sched := { x.sched with queues := x.sched.queues.map (fun k => if k.id = q then f k else k) } }

/-- Changes every in-flight command with the number. -/
def Half.modCmd (x : Half) (n : Nat) (f : Cmd → Cmd) : Half :=
  { x with sched := { x.sched with cmds := x.sched.cmds.map (fun k => if k.id = n then f k else k) } }

/-- The in-flight command with a number. -/
def Half.cmd (x : Half) (n : Nat) : Option Cmd := x.sched.cmds.find? (fun k => k.id = n)

/-- Changes an engine. -/
def Half.modEngine (x : Half) (n : Nat) (f : Engine → Engine) : Half :=
  { x with sched := { x.sched with engines := x.sched.engines.modify n f } }

/-- The engine with a number. -/
def Half.engine (x : Half) (n : Nat) : Engine := x.sched.engines[n]?.getD {}

/-- The half carries on work: its boot has completed and it is in RUN, DIM or DOZE, neither in its safe state nor in reset
(spec/20_power_thermal_reset.md R495, spec/18_safety.md R453). -/
def Half.alive (x : Half) : Bool :=
  x.powx.booted && !x.umpx.safe && !x.powx.inReset && (x.pow.st = .run || x.pow.st = .dim || x.pow.st = .doze)

/-- The running image of a kind. -/
def Half.runningImage (x : Half) (kind : Nat) : List Byte := ((x.svc.running.find? (fun p => p.1 = kind)).map (·.2)).getD []

/-- Link number of the Handoff link (R397). -/
def handoffLink : Nat := 17

/-- Link number of the Tether (R397). -/
def tetherLink : Nat := 18

/-- The half's Handoff link carries traffic. -/
def Half.handoffUp (x : Half) : Bool := (x.link handoffLink).works

/-- The half's Handoff link carries traffic or is retraining: what is sent on it meanwhile waits and is not dropped
(spec/15_die_to_die_links.md R389, R395). -/
def Half.handoffStands (x : Half) : Bool := x.handoffUp || (x.link handoffLink).st = .retraining

/-- The context has tier CHAIN. -/
def Half.chainCtx (x : Half) (c : Nat) : Bool := (x.ctx c).any (fun k => k.tier = 0)

/-- The message travels on the SAFETY channel (Table — Handoff virtual channels, spec/15_die_to_die_links.md R393); the relay's Sync
messages do and the other frames that cross the bridge do not (spec/16_time_and_ethernet.md R409). -/
def Half.isSafety (x : Half) : LinkMsg → Bool
  | .copy cmd _ _ _ => (x.cmd cmd).any (fun c => c.tier = 0)
  | .capture source _ _ _ _ _ _ _ _ => x.sched.pipe.bindings.any (fun b => b.source = source && x.chainCtx b.ctx)
  | .bridge _ _ => false
  | _ => true

/-- Data bytes that a message carries, for the bound of R395. -/
def LinkMsg.bytes : LinkMsg → Nat
  | .copy _ _ _ rows => (rows.map (fun r => r.2.length)).sum
  | .capture _ _ _ _ _ _ _ _ data => data.length
  | .checkpoint _ _ _ _ _ loop grid => loop.length + grid.length
  | .compare _ _ data => data.length
  | .bridge _ frame => frame.length
  | _ => 0

/-- SAFETY traffic queued for the link (R395). -/
def Half.safetyQueued (x : Half) : Nat := ((x.links.outbox.filter x.isSafety).map LinkMsg.bytes).sum

/-- Sends a message to the other half over the Handoff link (spec/01_two_halves.md R17; log 14) and counts the payload bytes of
its channel, of which the spec gives no message's framing (R397; log 10). -/
def Half.send (x : Half) (m : LinkMsg) : Half :=
  let n := m.bytes + Config.freeNat x.seed 16 % 65536
  let safe := x.isSafety m
  let y := x.took
  { y with links := { y.links with
      outbox := y.links.outbox ++ [m]
      vc0 := if safe then y.links.vc0 + BitVec.ofNat 64 n else y.links.vc0
      vc1 := if safe then y.links.vc1 else y.links.vc1 + BitVec.ofNat 64 n } }

/-- The first message of a list that fits, and the list without it. -/
def takeFirst {α β : Type} (f : α → Option β) : List α → Option (β × List α)
  | [] => none
  | a :: l => match f a with
    | some b => some (b, l)
    | none => (takeFirst f l).map (fun p => (p.1, a :: p.2))

/-- The first message of a half's queue for the Handoff link that fits, and the queue without it; a BULK message waits while SAFETY
traffic that was sent before it is pending (spec/15_die_to_die_links.md R393). -/
def Half.takeOut {α : Type} (o : Half) (f : LinkMsg → Option α) : Option (α × List LinkMsg) :=
  let before := o.links.outbox.takeWhile (fun m => (f m).isNone)
  let m := o.links.outbox[before.length]?
  if m.any o.isSafety || !(before.any o.isSafety) then takeFirst f o.links.outbox else none

end Sys2Proof.Machine
end

