-- ==== Sys2Proof/Machine/Operands.lean ====
section
/-! DEFINITION. Every operand form: the status codes and the order in which failures are reported, the fields of a mailbox
message and of its long payload record, and the fields of a command descriptor. -/

namespace Sys2Proof.Machine

/-! ### Status codes (spec/00_scope.md R8) -/

/-- ST_OK. -/
def stOk : Nat := 0x0000
/-- ST_EMPTY. -/
def stEmpty : Nat := 0x0001
/-- ST_KILLED. -/
def stKilled : Nat := 0x0010
/-- ST_DISCARDED. -/
def stDiscarded : Nat := 0x0011
/-- ST_DATA_LOST. -/
def stDataLost : Nat := 0x0020
/-- ST_LIMIT. -/
def stLimit : Nat := 0x0030
/-- ST_MALFORMED. -/
def stMalformed : Nat := 0x0031
/-- ST_TIMEOUT. -/
def stTimeout : Nat := 0x0040
/-- ST_NO_PATH. -/
def stNoPath : Nat := 0x0050
/-- ST_DENIED. -/
def stDenied : Nat := 0x0060
/-- ST_BUSY. -/
def stBusy : Nat := 0x0070
/-- ST_UNSUPPORTED. -/
def stUnsupported : Nat := 0x0080
/-- ST_LATE. -/
def stLate : Nat := 0x0090
/-- ST_CONFLICT. -/
def stConflict : Nat := 0x00A0

/-! ### Failing checks and their order (R9, R41, R62) -/

/-- One check of a message or command: whether it fails, its status, the offset it names, and its RETRY_AFTER. -/
structure Chk where
  /-- The condition holds, so the check fails. -/
  bad : Bool
  /-- Status of the failure. -/
  st : Nat
  /-- Offset of the failing field. -/
  off : Nat := 0
  /-- RETRY_AFTER in µs, for ST_BUSY; none where no rule gives one. -/
  retry : Option Nat := none
  deriving DecidableEq, Repr

/-- Place of a status in the order of R9. -/
def statusRank (st : Nat) : Nat :=
  if st = stDenied then 0 else if st = stMalformed then 1 else if st = stUnsupported then 2 else if st = stLimit then 3
  else if st = stBusy then 4 else if st = stEmpty then 5 else 6

/-- One check goes before another: its status ranks first, and among equals its field lies lower (R9, R62). -/
def Chk.before (a b : Chk) : Bool :=
  statusRank a.st < statusRank b.st || (statusRank a.st = statusRank b.st && a.off < b.off)

/-- The failure that is reported, if any check fails. -/
def worst : List Chk → Option Chk
  | [] => none
  | c :: l => match c.bad, worst l with
    | false, r => r
    | true, none => some c
    | true, some d => if d.before c then some d else some c

/-! ### Mailbox messages (spec/02_captain_and_mailboxes.md R37, R40) -/

/-- OPCODE. -/
def msgOp (m : Msg) : Nat := fld m 0 16
/-- FLAGS[0] LONG. -/
def msgLong (m : Msg) : Bool := bitAt m 16
/-- FLAGS[1] IRQ_ACK. -/
def msgIrqAck (m : Msg) : Bool := bitAt m 17
/-- FLAGS[2] IRQ_DONE. -/
def msgIrqDone (m : Msg) : Bool := bitAt m 18
/-- SEQUENCE. -/
def msgSeq (m : Msg) : Nat := fld m 32 32
/-- PAYLOAD_LENGTH. -/
def msgLen (m : Msg) : Nat := fld m 64 16
/-- CONTEXT_ID. -/
def msgCtx (m : Msg) : Nat := fld m 80 12
/-- CLIENT_ID. -/
def msgClient (m : Msg) : Nat := fld m 96 8

/-- w bits at byte offset `off` of the payload. -/
def pay (m : Msg) (off w : Nat) : Nat := fld m (128 + 8 * off) w

/-- w bits at bit `bit` of the payload byte at offset `off`. -/
def payBits (m : Msg) (off bit w : Nat) : Nat := fld m (128 + 8 * off + bit) w

/-- A reserved payload field that is not zero (spec/00_scope.md R7): offset in the payload, first bit, width. -/
def rsv (m : Msg) (off bit w : Nat) : Chk :=
  { bad := decide (payBits m off bit w ≠ 0), st := stMalformed, off := 0x10 + off }

/-- IN_ADDR of the long payload record. -/
def inAddr (m : Msg) : Nat := pay m 0x00 64
/-- IN_LEN. -/
def inLen (m : Msg) : Nat := pay m 0x08 32
/-- OUT_LEN. -/
def outLen (m : Msg) : Nat := pay m 0x0C 32
/-- OUT_ADDR. -/
def outAddr (m : Msg) : Nat := pay m 0x10 64

/-! ### Command descriptors (R59) -/

/-- UNIT. -/
def dUnit (d : Desc) : Nat := fld d 8 8
/-- OPERATION. -/
def dOp (d : Desc) : Nat := fld d 0 8
/-- FENCE. -/
def dFence (d : Desc) : Bool := bitAt d 17
/-- IRQ. -/
def dIrq (d : Desc) : Bool := bitAt d 16
/-- TAG. -/
def dTag (d : Desc) : Nat := fld d 32 32
/-- CLASS. -/
def dClass (d : Desc) : Nat := fld d 64 3
/-- PRE_OP. -/
def dPre (d : Desc) : Nat := fld d 72 8
/-- POST_OP. -/
def dPost (d : Desc) : Nat := fld d 80 8
/-- BUDGET_US. -/
def dBudget (d : Desc) : Nat := fld d 96 32
/-- PRE_SYNC_VA. -/
def dPreVa (d : Desc) : Nat := fld d 128 64
/-- POST_SYNC_VA. -/
def dPostVa (d : Desc) : Nat := fld d 192 64

/-- w bits at byte offset `off` of a descriptor. -/
def df (d : Desc) (off w : Nat) : Nat := fld d (8 * off) w

/-- Bit `i` of the byte at offset `off` of a descriptor. -/
def db (d : Desc) (off i : Nat) : Bool := bitAt d (8 * off + i)

/-- A field of a descriptor's body that is reserved for the operation and not zero (R7). -/
def dRsv (d : Desc) (off w : Nat) : Chk := { bad := decide (df d off w ≠ 0), st := stMalformed, off := off }

/-- A reserved bit range of a descriptor: the byte offset to report, the first bit counted from it, and the width. -/
def dRsvBits (d : Desc) (off bit w : Nat) : Chk :=
  { bad := decide (fld d (8 * off + bit) w ≠ 0), st := stMalformed, off := off }

/-- An address field whose bits [63:48] are reserved. -/
def dAddr (d : Desc) (off : Nat) : Chk := { bad := decide (vaLimit ≤ df d off 64), st := stMalformed, off := off }

/-- The checks of the command header that every unit shares: reserved fields, PRE_OP and POST_OP codes, and sync addresses
within 48 bits (R59, R7). -/
def headerChecks (d : Desc) : List Chk :=
  [dRsvBits d 0x02 2 14, dRsvBits d 0x08 3 5,
    { bad := decide (2 < dPre d), st := stMalformed, off := 0x09 },
    { bad := decide (2 < dPost d), st := stMalformed, off := 0x0A },
    dRsv d 0x0B 8,
    { bad := decide (vaLimit ≤ dPreVa d), st := stMalformed, off := 0x10 },
    { bad := decide (vaLimit ≤ dPostVa d), st := stMalformed, off := 0x18 }]

/-- A command whose class label is outside the permitted mask of its client (spec/13_bandwidth_regulation.md R342). -/
def Half.classMask (x : Half) (client : Nat) : BitVec 8 :=
  if client = 0 then 0xFF else ((x.cfg.classMask.find? (fun p => p.1 = client)).map (·.2)).getD 0x0F

end Sys2Proof.Machine
end

