-- ==== Sys2Proof/Machine/Captain.lean ====
section
/-! DEFINITION. Mailbox slots and the course of a message: ownership, posting, acknowledgement, the checks that every message
shares, and its completion (spec/02_captain_and_mailboxes.md). -/

namespace Sys2Proof.Machine

/-- The mailbox slot. -/
def Half.slot (x : Half) (s : Nat) : Slot := x.mbx.slots[s]?.getD {}

/-- Changes a mailbox slot. -/
def Half.modSlot (x : Half) (s : Nat) (f : Slot → Slot) : Half :=
  { x with mbx := { x.mbx with slots := x.mbx.slots.modify s f } }

/-- The message in a slot. -/
def Half.msg (x : Half) (s : Nat) : Msg := (x.slot s).inb

/-- The Captain's firmware runs on a half that carries on work. -/
def Half.captainRuns (x : Half) : Bool := x.alive && !x.captainBad

/-- The address of a tool whose partner entry is quarantined is ignored (spec/17_partners.md R426). -/
def Half.toolIgnored (x : Half) : Agent → Bool
  | .tool a => x.ptn.entries.any (fun p => p.kind = 7 && p.ident = BitVec.ofNat 64 a && p.st = .quarantined)
  | _ => false

/-- How an agent reaches the page of a slot (R33): slots 0 to 59 from cores and pairs, 60 to 63 from the management bus. -/
def reaches (ag : Agent) (slot : Nat) : Bool :=
  match ag with
  | .tool _ => 60 ≤ slot && slot < 64
  | _ => slot < 60

/-- A store to the page of a slot that the agent does not reach: a core's is dropped and logged, a tool's is not answered
(R33). -/
def Half.slotRefused (x : Half) (ag : Agent) (slot off : Nat) : Half :=
  match ag with
  | .tool _ => x
  | _ => x.ctrlVio ag 1 (0x100000 + slot * 0x1000 + off)

/-- A free slot, with MBX_IN and MBX_OUT cleared (R35); that MBX_OWNER_CLIENT then reads 0, whatever the store carried, is the
model's choice (log 83). -/
def freedSlot (k : Slot) : Slot :=
  { k with st := .free, inb := 0, outb := 0, ownerValid := false, ownerClient := 0, fromDone := false, started := false
           freeOnDone := false, waits := false, rung := 0 }

/-- A store of MBX_OWNER (R35): VALID = 1 claims a FREE slot, VALID = 0 frees an OWNED or DONE one; every other is ignored. -/
def Half.ownerStore (x : Half) (ag : Agent) (slot : Nat) (valid : Bool) (client : BitVec 8) : Half :=
  x.modSlot slot (fun k =>
    if valid then
      if k.st = .free then { k with
        st := .owned, ownerValid := true, ownerClient := client
        tool := match ag with
          | .tool a => a
          | _ => 0 }
      else k
    else if k.st = .owned || k.st = .done then freedSlot k else k)

/-- A write to MBX_IN is ignored unless the slot is OWNED or DONE (R34). -/
def Half.inStore (x : Half) (slot off size v : Nat) : Half :=
  x.modSlot slot (fun k =>
    if k.st = .owned || k.st = .done then
      { k with inb := (k.inb &&& ~~~(BitVec.ofNat 512 (2 ^ (8 * size) - 1) <<< (8 * off))) |||
          (BitVec.ofNat 512 (v % 2 ^ (8 * size)) <<< (8 * off)) }
    else k)

/-- The core number of an agent, for the interrupt of its slot. -/
def Agent.coreNum : Agent → Nat
  | .core n _ => n
  | .pair _ => 0
  | .tool _ => 0

/-- A write to MBX_DOORBELL (R35): a 1 posts the message of an OWNED or DONE slot; any other doorbell write is ignored and
recorded, as class 0x0A of a core or pair and class 0x09 of a tool. A tool's first message makes it a partner
(spec/17_partners.md R423). -/
def Half.doorbell (x : Half) (ag : Agent) (slot : Nat) (one : Bool) : Half :=
  let k := x.slot slot
  if one && (k.st = .owned || k.st = .done) then
    let y := match ag with
      | .tool a => x.ptnArrive 7 0 a
      | _ => x
    let y := y.modSlot slot (fun k => { k with
      st := .posted, fromDone := decide (k.st = .done), started := false, rung := x.now
      core := match ag with
        | .core n _ => n
        | _ => k.core
      tool := match ag with
        | .tool a => a
        | _ => k.tool })
    { y with mbx := { y.mbx with posted := y.mbx.posted ++ [slot] } }
  else
    let off := 0x100000 + slot * 0x1000 + 0x88
    match ag with
    | .tool _ => x.violate (x.agentSrc ag) 0x09 2 2 off off
    | _ => x.ctrlVio ag 2 off

/-! ### Checks that every message shares -/

/-- The opcode works on the context that CONTEXT_ID names (R37, R52, R53, R288, R320). -/
def ctxOp (op : Nat) : Bool := op ∈ [0x0204, 0x0205, 0x0206, 0x0207, 0x0208, 0x0209]

/-- Opcodes of Table — Perraot opcodes (R48). -/
def opcodes : List Nat :=
  [0x0100, 0x0101, 0x0102, 0x0201, 0x0202, 0x0203, 0x0204, 0x0205, 0x0206, 0x0207, 0x0208, 0x0209, 0x020A, 0x0301, 0x0302,
   0x0401, 0x0402, 0x0403, 0x0404, 0x0405, 0x0501, 0x0502, 0x0503, 0x0601, 0x0602, 0x0603, 0x0604, 0x0701, 0x0702, 0x0703,
   0x0801, 0x0802, 0x0901, 0x0902, 0x0903, 0x0A01, 0x0A02]

/-- Opcodes marked long in Table — Perraot opcodes (R44, R48). -/
def longOpcodes : List Nat := [0x0208, 0x0209, 0x0401, 0x0402, 0x0404, 0x0405, 0x0903, 0x0A02]

/-- The group is accepted from the sender (R47), with the narrowing of group 0x04xx on the management bus
(spec/19_security_debug_power.md R489). -/
def Half.senderOk (x : Half) (slot client op : Nat) : Bool :=
  let g := op / 256
  let service := x.cfg.mode = 3 || x.cfg.mode = 5
  if 60 ≤ slot then
    if g = 2 then false
    else if g = 3 then op = 0x0302 || (op = 0x0301 && service)
    else if g = 4 then service && (x.sec.debug ≠ 0 || !(x.sec.life = 2 || x.sec.life = 3))
    else if g = 5 then op = 0x0502 || op = 0x0503
    else if g = 7 then op = 0x0703
    else if g = 8 then op = 0x0801
    else if g = 9 then op = 0x0901
    else if g = 10 then op = 0x0A01
    else true
  else if client = 0 then true
  else if g = 2 then !(op = 0x0201 || op = 0x0202)
  else if g = 3 then op = 0x0302
  else if g = 4 then false
  else if g = 5 then op = 0x0502 || op = 0x0503
  else if g = 6 then op = 0x0601
  else if g = 7 then false
  else if g = 8 then op = 0x0801
  else if g = 9 then op = 0x0901
  else if g = 10 then false
  else true

/-- The context is one of the client's own. -/
def Half.ownsCtx (x : Half) (client c : Nat) : Bool := (x.ctx c).any (fun k => k.client = client)

/-- Messages marked long that are executing; those that wait for a frame boundary do not count (R44). -/
def Half.longRunning (x : Half) : Nat :=
  ((List.range 64).filter (fun s =>
    (x.slot s).st = .acked && (x.slot s).started && (msgOp (x.msg s)) ∈ longOpcodes && !(x.slot s).waits)).length

/-- A message marked long begins or ends its wait for a frame boundary (R44). -/
def Half.waitBoundary (x : Half) (slot : Nat) (on : Bool) : Half := x.modSlot slot (fun k => { k with waits := on })

/-- The UPD_ACTIVATE of a rollout begins or ends its wait for a frame boundary (R44, spec/21_configuration_and_update.md R532, R534). -/
def Half.updWaits (x : Half) (on : Bool) : Half :=
  let slots := (x.svc.upd.bind (·.slot)).toList ++ (x.svc.updPair.bind (·.slot)).toList
  slots.foldl (fun (y : Half) k => y.waitBoundary k on) x

/-- What makes a message the same request when it is sent again (R64): all of it but SEQUENCE, which a new message in a slot
changes (R45). -/
def msgKey (m : Msg) : Nat := (m &&& ~~~(0xFFFFFFFF#512 <<< 32)).toNat

/-- Microseconds left of the RETRY_AFTER with which the same message was last answered, if it has not passed (R64). -/
def Half.msgHeld (x : Half) (m : Msg) : Option Nat :=
  (x.mbx.holds.find? (fun p => p.1 = msgKey m && x.now < p.2)).map (fun p => cdiv (p.2 - x.now) 1000)

/-- Remembers that a message was answered with ST_BUSY and a RETRY_AFTER in microseconds (R64). -/
def Half.holdMsg (x : Half) (m : Msg) (us : Nat) : Half :=
  { x with mbx := { x.mbx with
      holds := (msgKey m, x.now + us * 1000) :: x.mbx.holds.filter (fun p => p.1 ≠ msgKey m && x.now < p.2) } }

/-- What an opcode accepts: its short PAYLOAD_LENGTHs, and whether it has the long form (R38, R40). -/
structure Form where
  /-- PAYLOAD_LENGTH values of the short form. -/
  lens : List Nat
  /-- The opcode has the long form. -/
  long : Bool := false
  /-- Largest IN_LEN of the long form (R40). -/
  maxIn : Nat := 67108864
  deriving DecidableEq, Repr

/-- Checks of the long payload record (R40). An input buffer with an uncorrectable block, and an output buffer in a READ_ONLY or
sync page, are answered as malformed (log 17). -/
def Half.longChecks (x : Half) (m : Msg) (f : Form) : List Chk :=
  let c := msgCtx m
  [{ bad := decide (vaLimit ≤ inAddr m), st := stMalformed, off := 0x10 },
   { bad := decide (vaLimit ≤ outAddr m), st := stMalformed, off := 0x20 },
   { bad := decide (f.maxIn < inLen m), st := stLimit, off := 0x18 },
   { bad := decide (67108864 < outLen m), st := stLimit, off := 0x1C },
   { bad := !(x.mapped c (inAddr m) (inLen m)), st := stMalformed, off := 0x10 },
   { bad := (x.firstBad c [(inAddr m, inLen m)]).isSome, st := stMalformed, off := 0x10 },
   { bad := !(x.writable c (outAddr m) (outLen m)), st := stMalformed, off := 0x20 }]

/-- The checks of the header that every opcode shares (R7, R37 to R40, R44, R47, R48), and a re-issue made too soon (R64). -/
def Half.headChecks (x : Half) (slot : Nat) (m : Msg) (f : Form) : List Chk :=
  let op := msgOp m
  let lng := msgLong m
  let needs := ctxOp op || lng
  let cl := msgClient m
  let k := x.slot slot
  [{ bad := decide (cl ≠ k.ownerClient.toNat), st := stDenied, off := 0x0C },
   { bad := !(x.senderOk slot cl op), st := stDenied },
   { bad := decide (slot < 60) && (x.client cl).isNone, st := stDenied, off := 0x0C },
   { bad := needs && !(x.ownsCtx cl (msgCtx m)) || (!needs && decide (msgCtx m ≠ 0) && !(x.ownsCtx cl (msgCtx m)))
     st := stDenied, off := 0x0A },
   { bad := !needs && decide (msgCtx m ≠ 0), st := stMalformed, off := 0x0A },
   { bad := decide (60 ≤ slot) && decide (cl ≠ 0), st := stMalformed, off := 0x0C },
   { bad := decide (fld m 19 13 ≠ 0), st := stMalformed, off := 0x02 },
   { bad := decide (fld m 92 4 ≠ 0), st := stMalformed, off := 0x0A },
   { bad := decide (fld m 104 24 ≠ 0), st := stMalformed, off := 0x0D },
   { bad := if lng then decide (msgLen m ≠ 0x18) else !(f.lens.contains (msgLen m)), st := stMalformed, off := 0x08 },
   { bad := decide (op ∉ opcodes), st := stUnsupported },
   { bad := lng && (!f.long || decide (60 ≤ slot)), st := stUnsupported },
   { bad := decide (op ∈ longOpcodes) && decide (4 ≤ x.longRunning), st := stBusy },
   { bad := (x.msgHeld m).isSome, st := stBusy, retry := x.msgHeld m }] ++
  (if lng then x.longChecks m f else [])

/-! ### Completion -/

/-- The Captain finishes a message (R35, R37): the outbound header echoes OPCODE and SEQUENCE, payload fields are (byte
offset, width, value); the slot becomes DONE, or FREE when its owner was released (R36). A slot of the management bus that
reaches DONE asserts MGMT_ALERT_N (spec/22_package_and_electrical.md R551). -/
def Half.finish (x : Half) (slot st : Nat) (fields : List (Nat × Nat × Nat)) : Half :=
  let k := x.slot slot
  let m := k.inb
  let out := pack 512 ([(0, 16, msgOp m), (16, 16, st), (32, 32, msgSeq m), (64, 16, Config.outLength x.seed % 49),
    (80, 12, msgCtx m), (96, 8, msgClient m)] ++ fields.map (fun f => (128 + 8 * f.1, f.2.1, f.2.2)))
  let y := x.took.modSlot slot (fun k =>
    let d := { k with st := .done, outb := out, lastSeq := BitVec.ofNat 32 (msgSeq m), started := false, fromDone := false, waits := false }
    if k.freeOnDone then freedSlot d else d)
  let y := { y with mbx := { y.mbx with acked := y.mbx.acked.filter (fun s => s ≠ slot), alert := y.mbx.alert || 60 ≤ slot } }
  if msgIrqDone m then y.mbxIrq slot k.core k.ownerClient.toNat else y

/-- Finishes a message with a failing check: FAULT_OFFSET on ST_MALFORMED and ST_LIMIT, RETRY_AFTER of at least 100 µs on
ST_BUSY (R41); a RETRY_AFTER that no rule gives is a free value (log 3). A busy answer is remembered, so that a re-issue made sooner
is answered with ST_BUSY again (R64). -/
def Half.finishBad (x : Half) (slot : Nat) (c : Chk) : Half :=
  if c.st = stMalformed || c.st = stLimit then x.finish slot c.st [(0, 16, c.off)]
  else if c.st = stBusy then
    let r := max 100 (c.retry.getD (Config.retryAfter x.seed % 2 ^ 32))
    (x.took.holdMsg (x.msg slot) r).finish slot c.st [(0, 32, r)]
  else x.finish slot c.st []

/-- The Captain returns the stored outbound message of a repeated OPCODE and SEQUENCE without executing it (R45). -/
def Half.finishReplay (x : Half) (slot : Nat) : Half :=
  let k := x.slot slot
  let y := x.modSlot slot (fun k =>
    let d := { k with st := .done, fromDone := false, started := false, waits := false }
    if k.freeOnDone then freedSlot d else d)
  let y := { y with mbx := { y.mbx with acked := y.mbx.acked.filter (fun s => s ≠ slot), alert := y.mbx.alert || 60 ≤ slot } }
  if msgIrqDone k.inb then y.mbxIrq slot k.core k.ownerClient.toNat else y

/-- The slot was posted from DONE with the OPCODE and SEQUENCE that it last completed (R45). -/
def Slot.isReplay (k : Slot) : Bool :=
  k.fromDone && msgOp k.inb = msgOp k.outb && msgSeq k.inb = msgSeq k.outb

/-- An earlier message that the Captain took and has not finished works on the same context (R43; log 18). -/
def Half.ctxBusy (x : Half) (slot : Nat) : Bool :=
  let works := fun s => ctxOp (msgOp (x.msg s)) || msgLong (x.msg s)
  works slot && (x.mbx.acked.takeWhile (fun s => s ≠ slot)).any
    (fun s => works s && msgCtx (x.msg s) = msgCtx (x.msg slot))

/-- The message of a slot is of the opcode and the Captain can execute it now. -/
def Half.msgReady (x : Half) (slot op : Nat) : Bool :=
  x.captainRuns && (x.slot slot).st = .acked && !(x.slot slot).started && msgOp (x.msg slot) = op && !x.ctxBusy slot

/-- What executing a message leaves: a completed message, or one that stays ACKED and waits. -/
inductive Reply where
  /-- The message completes with a status and payload fields (byte offset, width, value). -/
  | done (s : State) (st : Nat) (fields : List (Nat × Nat × Nat))
  /-- The message fails a check that only its execution can make. -/
  | fail (s : State) (c : Chk)
  /-- The message waits for a frame boundary, a link, an image or a boot. -/
  | wait (s : State)

/-- Executes the message of a slot: a repeat is answered from the stored message (R45), a failing check completes it under
R9, otherwise it takes its effect. A message that is not ready leaves the state as it is (log 2). -/
def State.runMsg (s : State) (h : HalfId) (slot op : Nat) (f : Form) (chk : Half → Msg → List Chk)
    (act : State → Msg → Reply) : State :=
  let x := s.half h
  if x.msgReady slot op then
    if (x.slot slot).isReplay then s.setHalf h (x.finishReplay slot)
    else
      let m := x.msg slot
      match worst (x.headChecks slot m f ++ chk x m) with
      | some c => s.setHalf h (x.finishBad slot c)
      | none => match act s m with
        | .done t st fields => t.mod h (fun y => y.finish slot st fields)
        | .fail t c => t.mod h (fun y => y.finishBad slot c)
        | .wait t => t.mod h (fun y => y.modSlot slot (fun k => { k with started := true }))
  else s

/-- The Captain completes a message that was waiting, if the slot still waits. -/
def Half.finishWaiting (x : Half) (slot st : Nat) (fields : List (Nat × Nat × Nat)) : Half :=
  if (x.slot slot).st = .acked && (x.slot slot).started then x.finish slot st fields else x

/-- The Captain completes a waiting message with a failure. -/
def Half.failWaiting (x : Half) (slot : Nat) (c : Chk) : Half :=
  if (x.slot slot).st = .acked && (x.slot slot).started then x.finishBad slot c else x

/-- The Captain takes the message whose doorbell arrived first (R42, R43): the slot becomes ACKED and interrupts if IRQ_ACK is
set. A message whose opcode the catalogue does not list has no command of its own and is completed here (R48; log 19). -/
def Half.acknowledge (x : Half) : Half :=
  match x.mbx.posted with
  | [] => x
  | s :: rest =>
    if !x.captainRuns then x
    else
      let k := x.slot s
      let y := { x with mbx := { x.mbx with posted := rest, acked := x.mbx.acked ++ [s] } }
      let y := y.modSlot s (fun k => { k with st := .acked })
      let y := if msgIrqAck k.inb then y.mbxIrq s k.core k.ownerClient.toNat else y
      if msgOp k.inb ∈ opcodes then y
      else if k.isReplay then y.finishReplay s
      else match worst (y.headChecks s k.inb { lens := [msgLen k.inb], long := true }) with
        | some c => y.finishBad s c
        | none => y

end Sys2Proof.Machine
end

