-- ==== Sys2Proof/Machine/Cache.lean ====
section
/-! DEFINITION. The general cache of the tile cache (spec/12_memory_system.md R314 to R316). It is write-back: `Mem.cells` holds each
byte's current value, and a line's dirty flag says that the DRAM behind it has yet to receive it (log 92). -/

namespace Sys2Proof.Machine

/-- Slices in service, ascending (R314, R335). -/
def Half.slicesIn (x : Half) : List Nat := (List.range 12).filter (fun i => i ∉ x.mem.slicesOut)

/-- The slice in which a 64-byte block of physical address is homed (R314). -/
def Half.homeSlice (x : Half) (block : Nat) : Nat :=
  x.slicesIn[Config.homePlace (block / 4) x.slicesIn % max 1 x.slicesIn.length]?.getD 0

/-- A slice that is being mapped out takes no new lines and no staging reservations (Table — Slice map-out step 1). -/
def Half.sliceStops (x : Half) (sl : Nat) : Bool := x.mem.mapOut.any (fun j => !j.pc && !j.restore && j.idx = sl)

/-- Ways of a set that are in use: 16 less its disabled lines (R316, R327; log 92). -/
def Half.setWays (x : Half) (sl set : Nat) : Nat := 16 - (x.mem.lines.filter (fun l => l.1 = sl && l.2 / 16 = set)).length

/-- The line holds a bad codeword, with which it stays resident (R332). -/
def Half.badLine (x : Half) (l : CacheLine) : Bool :=
  x.mem.bad.any (fun b => b.line.isSome && physAddr b.stack b.frame (b.block * 64) / 64 = l.block)

/-- The line that a full set gives up: the least recently used among those last touched before the current frame, else the least
recently used (R316). -/
def Half.victim (x : Half) (set : List CacheLine) : Option CacheLine :=
  let old := set.reverse.filter (fun l => !x.badLine l)
  (old.find? (fun l => l.touched < x.frames)).or old.head?

/-- One access to a block: a resident line becomes the most recently used, and another is allocated, in its set's place of a victim
where no way is free (R316). -/
def Half.touchLine (x : Half) (dirty : Bool) (ls : List CacheLine) (block : Nat) : List CacheLine :=
  match ls.find? (fun l => l.block = block) with
  | some l => { l with dirty := l.dirty || dirty, touched := x.frames } :: ls.filter (fun k => k.block ≠ block)
  | none =>
    let sl := x.homeSlice block
    let set := Config.cacheSet sl block
    let l : CacheLine := { slice := sl, set := set, block := block, dirty := dirty, touched := x.frames }
    let mates := ls.filter (fun k => k.slice = sl && k.set = set)
    if x.sliceStops sl then ls
    else if mates.length < x.setWays sl set then l :: ls
    else match x.victim mates with
      | some v => if x.setWays sl set = 0 then ls else l :: ls.filter (fun k => k.block ≠ v.block)
      | none => ls

/-- A line of the set is disabled: where that leaves fewer ways than lines, the set gives one up (R316, R327). -/
def Half.dropWay (x : Half) (sl line : Nat) : Half :=
  let mates := x.mem.cache.filter (fun k => k.slice = sl && k.set = line / 16)
  match x.victim mates with
  | some v => if x.setWays sl (line / 16) < mates.length then
      { x with mem := { x.mem with cache := x.mem.cache.filter (fun k => k.block ≠ v.block) } } else x
  | none => x

/-- Blocks of DRAM-homed pages behind virtual addresses of a context, each once. -/
def Half.physBlocks (x : Half) (ctx : Nat) (vas : List Nat) : List Nat :=
  ((vas.filterMap (fun va => (x.blockAt ctx va).map (fun b => physAddr b.1 b.2.1 (b.2.2 * 64) / 64))).eraseDups)

/-- The cache takes the blocks of an access: a read allocates clean lines, a commit dirty ones (R316). -/
def Half.touch (x : Half) (ctx : Nat) (dirty : Bool) (vas : List Nat) : Half :=
  { x with mem := { x.mem with cache := (x.physBlocks ctx vas).foldl (x.touchLine dirty) x.mem.cache } }

/-- The cache takes the blocks of what a command reads. -/
def Half.touchReads (x : Half) (ctx : Nat) (rs : List (Nat × Nat)) : Half :=
  x.touch ctx false (rs.flatMap (fun r => blocksOf r.1 r.2))

/-- The slice holds the block as a dirty line. -/
def Half.dirtyIn (x : Half) (sl stack frame block : Nat) : Bool :=
  x.mem.cache.any (fun l => l.dirty && l.slice = sl && l.block = physAddr stack frame (block * 64) / 64)

/-- The hash changes to the slices in service: lines that are no longer at home are written back and dropped (Table — Slice
map-out). -/
def Half.rehome (x : Half) : Half :=
  { x with mem := { x.mem with cache := x.mem.cache.filter (fun l => x.homeSlice l.block = l.slice || x.badLine l) } }

/-- A frame moves: lines of its blocks are written back and dropped, and one with a bad codeword stays resident under the new frame
(R331, R332). -/
def Half.moveLines (x : Half) (lo nlo : Nat) : Half :=
  let inside := fun (l : CacheLine) => lo ≤ l.block * 64 && l.block * 64 < lo + pageBytes
  { x with mem := { x.mem with cache := (x.mem.cache.filter (fun l => !inside l || x.badLine l)).map (fun (l : CacheLine) =>
      if inside l then { l with block := (nlo + (l.block * 64 - lo)) / 64 } else l) } }

/-- A frame whose last mapping goes leaves no line behind (R322, R332). -/
def keepLines (tpt : List Tpt) (ls : List CacheLine) : List CacheLine :=
  ls.filter (fun l => tpt.any (fun t => match t.dest with
    | .frame st f => l.block * 64 / pageBytes = st * stackFrames + f
    | .sync _ => false))

end Sys2Proof.Machine
end

