-- ==== Sys2Proof/Machine/Commands.lean ====
section
/-! DEFINITION. The course of a command: readiness and placing, the start and its checks, staging, the commit with its POST_OP,
the completion record, kills, discards and teardown, and the release of sync waiters (spec/02, spec/04, spec/11, spec/12). -/

namespace Sys2Proof.Machine

/-! ### Sync words (spec/11_scheduling_and_sync.md R304 to R307) -/

/-- The word at a sync address that has been checked. -/
def Half.wordAt (x : Half) (ctx va : Nat) : SyncWord :=
  match x.syncAt ctx va with
  | some (p, w) => x.syncWord p w
  | none => {}

/-- FILL of an empty word: writes the value; the word becomes full (R305). -/
def Half.fillWord (x : Half) (ctx va : Nat) (v : BitVec 64) : Half :=
  match x.syncAt ctx va with
  | some (p, w) => x.setSync { page := p, word := w, value := v, full := true }
  | none => x

/-- DRAIN of a full word: it becomes empty and keeps its value (R305). -/
def Half.drainWord (x : Half) (ctx va : Nat) : Half :=
  match x.syncAt ctx va with
  | some (p, w) => x.setSync { page := p, word := w, value := (x.syncWord p w).value, full := false }
  | none => x

/-- A sync address that is not 8-byte aligned or does not lie in a sync page of the context (R307). -/
def Half.syncBad (x : Half) (ctx va : Nat) : Bool := va % 8 ≠ 0 || (x.syncAt ctx va).isNone

/-- The command's POST_OP can be taken by its word now (R305). -/
def Half.postOk (x : Half) (c : Cmd) : Bool :=
  let w := x.wordAt c.ctx (dPostVa c.desc)
  if dPost c.desc = 1 then !w.full else if dPost c.desc = 2 then w.full else true

/-- Performs a POST_OP: a FILL writes TAG in [31:0] and the client ID in [39:32] (R307). -/
def Half.postOp (x : Half) (c : Cmd) : Half :=
  if dPost c.desc = 1 then
    x.fillWord c.ctx (dPostVa c.desc) (pack 64 [(0, 32, dTag c.desc), (32, 8, c.client)])
  else if dPost c.desc = 2 then x.drainWord c.ctx (dPostVa c.desc)
  else x

/-! ### The hardware decode queue (spec/08_input_pipeline.md R221, R225) -/

/-- The batch with a command number. -/
def Half.batch (x : Half) (n : Nat) : Option Batch := x.sched.pipe.batches.find? (fun b => b.cmd = n)

/-- Changes the pipeline. -/
def Half.modPipe (x : Half) (f : Pipe → Pipe) : Half := { x with sched := { x.sched with pipe := f x.sched.pipe } }

/-- Changes slot s of a batch. -/
def Half.modBatchSlot (x : Half) (n s : Nat) (f : BatchSlot → BatchSlot) : Half :=
  x.modPipe (fun p => { p with batches := p.batches.map (fun (b : Batch) =>
    if b.cmd = n then { b with slots := b.slots.modify s f } else b) })

/-- Slot s of a batch. -/
def Half.batchSlot (x : Half) (n s : Nat) : Option BatchSlot := (x.batch n).bind (fun b => b.slots[s]?)

/-- A queued slot stands at a decode engine: among the oldest four JPEG slots or the oldest two H.265 slots of the queue, an
H.265 slot only when no older slot of its stream is queued (R221, R226). -/
def Half.decoding (x : Half) (n s : Nat) : Bool :=
  match x.batchSlot n s with
  | none => false
  | some k =>
    let q := x.sched.pipe.hwQueue
    let same := q.filter (fun p => (x.batchSlot p.1 p.2).any (fun j => j.kind = k.kind))
    let older := q.takeWhile (fun p => p ≠ (n, s))
    q.contains (n, s) && (same.take (if k.kind = 0x10 then 4 else 2)).contains (n, s) &&
      !(k.kind = 0x11 && older.any (fun p => (x.batchSlot p.1 p.2).any (fun j => j.kind = 0x11 && j.binding = k.binding)))

/-- Slots that have reached a decode engine begin their decode now (R225). -/
def Half.beginDecodes (x : Half) : Half :=
  (x.sched.pipe.hwQueue.filter (fun p => x.decoding p.1 p.2)).foldl (fun y p =>
    y.modBatchSlot p.1 p.2 (fun k => { k with since := some (k.since.getD y.now) })) x

/-! ### Completion records (spec/02_captain_and_mailboxes.md R62) -/

/-- Forgets what the half holds for a command that ends: its place in flight, its batch, its huddle and its outstanding
software-decode requests; the decode engines that it leaves take the slots that wait for them. -/
def Half.dropCmd (x : Half) (n : Nat) : Half :=
  let queued := x.sched.pipe.hwQueue.any (fun p => p.1 = n)
  let y : Half := { x with
    sched := { x.sched with
      cmds := (x.sched.cmds.filter (fun c => c.id ≠ n)).map (fun (c : Cmd) => { c with noRoom := false })
      pipe := { x.sched.pipe with
        batches := x.sched.pipe.batches.filter (fun b => b.cmd ≠ n)
        hwQueue := x.sched.pipe.hwQueue.filter (fun p => p.1 ≠ n) } }
    mem := { x.mem with huddles := x.mem.huddles.filter (fun k => k.cmd ≠ n) } }
  if queued then y.beginDecodes else y

/-- Delivers identity 256 + client to the core that last stored to the client's doorbell page, and raises the line of a pair
bound to it (spec/14_cores.md R374, R375). -/
def Half.queueIrq (x : Half) (client : Nat) : Half :=
  let core := ((x.client client).bind (·.lastCore)).getD x.cfg.systemCore
  ((x.rearm (256 + client)).deliver core (256 + client)).clientLines client

/-- The 32 bytes of a completion record (R62). PHASE is 1 on the first pass through the ring. -/
def recordBytes (q : Queue) (tag ringIdx inst status det0 det1 time : Nat) : List Byte :=
  leBytes 32 (pack 256 [(0, 32, tag), (32, 16, status), (48, 16, ringIdx), (64, 64, time), (128, 64, det0),
    (192, 8, inst), (200, 1, 1 - q.written.toNat / 2 ^ q.log2 % 2), (224, 32, det1)]).toNat

/-- Writes the next record of a queue and counts it for its client (R62, spec/11_scheduling_and_sync.md R299). -/
def Half.putRecord (x : Half) (q : Queue) (client tag ringIdx inst status det0 det1 : Nat) : Half :=
  let y := x.vwrite q.ctx (q.cplRing + q.written.toNat % 2 ^ q.log2 * 32)
    (recordBytes q tag ringIdx inst status det0 det1 x.st)
  let y := y.modQueue q.id (fun k => { k with written := k.written + 1 })
  y.modClient client (fun k =>
    if status = stKilled then { k with killed := k.killed + 1 }
    else if status = stDiscarded then { k with discarded := k.discarded + 1 }
    else { k with completed := k.completed + 1 })

/-- Microseconds left of the RETRY_AFTER with which the same command of the context was last answered, if it has not passed (R64). -/
def Half.cmdHeld (x : Half) (c : Cmd) : Option Nat :=
  (x.sched.holds.find? (fun p => p.1 = c.ctx && p.2.1 = c.desc.toNat && x.now < p.2.2)).map (fun p => cdiv (p.2.2 - x.now) 1000)

/-- Remembers that a command was answered with ST_BUSY and a RETRY_AFTER in microseconds (R64). -/
def Half.holdCmd (x : Half) (c : Cmd) (us : Nat) : Half :=
  { x with sched := { x.sched with
      holds := (c.ctx, c.desc.toNat, x.now + us * 1000) ::
        x.sched.holds.filter (fun p => !(p.1 = c.ctx && p.2.1 = c.desc.toNat) && x.now < p.2.2) } }

/-- Ends a command: its record is written, its interrupt raised if IRQ is set, and it is no longer in flight (R62, R295). A busy
answer is remembered, so that a re-issue made sooner is answered with ST_BUSY again (R64). -/
def Half.record (x : Half) (c : Cmd) (status det0 det1 : Nat) : Half :=
  let y := match x.queue c.queue with
    | some q => x.putRecord q c.client (dTag c.desc) c.ringIdx c.inst status det0 det1
    | none => x
  let y := y.dropCmd c.id
  let y := if status = stBusy then y.holdCmd c det1 else y
  if dIrq c.desc then y.queueIrq c.client else y

/-! ### What a command is -/

/-- A command of the Quick lane: unit 0x01 with QUICK = 1 (spec/04_tensor_engines.md R121). -/
def isQuick (c : Cmd) : Bool := dUnit c.desc = 1 && db c.desc 0x46 0

/-- The engine is the Quick lane, also while it resets (spec/04_tensor_engines.md R113, R120). -/
def Engine.isQuickLane (e : Engine) : Bool := e.st = .quick || (e.st = .resetting && e.back = .quick)

/-- Engine work of units 0x01, 0x02 and 0x03 (R291). -/
def isEngine (c : Cmd) : Bool :=
  dUnit c.desc = 1 || dUnit c.desc = 2 || (dUnit c.desc = 3 && 0x20 ≤ dOp c.desc)

/-! ### Huddles (spec/11_scheduling_and_sync.md R312, R313) -/

/-- A unit participant of a huddle has arrived: none of the context's commands fetched before the HUDDLE_OPEN started runs
on it or waits to be placed on a unit of its kind; an engine that is off, SPARE or RETIRED arrives at once (R312). -/
def Half.unitArrived (x : Half) (k : Huddle) (bit : Nat) : Bool :=
  let before := x.sched.cmds.filter (fun c => c.ctx = k.ctx && c.id < k.upto && c.id ≠ k.cmd)
  if bit < 18 then
    let e := x.engine bit
    (e.st = .off || e.st = .spare || e.st = .retired) ||
      !(before.any (fun c => isEngine c && (c.st = .waiting || c.engine = some bit)))
  else
    let u := fun (c : Cmd) => if bit = 36 then dUnit c.desc = 5 else if bit = 37 then dUnit c.desc = 6
      else if bit = 38 then dUnit c.desc = 7 else if bit = 39 then dUnit c.desc = 4
      else if bit = 40 then dUnit c.desc = 3 && dOp c.desc < 0x20 else if bit = 41 then dUnit c.desc = 8
      else dUnit c.desc = 9 && dOp c.desc ≠ 0x20
    !(before.any u)

/-- The arrivals of a huddle: those recorded, and the unit participants that have arrived; a core, pair or other participant
that is off arrives at once (R312). -/
def Half.arrivals (x : Half) (k : Huddle) : BitVec 64 :=
  (List.range 64).foldl (fun a i =>
    if bitAt k.mask i && !(bitAt a i) then
      if (i < 18 || (36 ≤ i && i ≤ 42)) && x.unitArrived k i then setBit a i
      else if (i = 34 || i = 35) && !((x.cores.pairs[i - 34]?.getD {}).running) then setBit a i
      else a
    else a) k.arrived

/-! ### Attempts that do not commit -/

/-- What DETAIL0 says above the cycles of an attempt that did not commit, of which the commit would have said `d`: for the attention
operations the pages read so far, and for a gather the rows served from the directory so far, which the attempt's end leaves open
(spec/06 R162, spec/07 R185); for unit 0x01 that B had to be loaded, and no bytes committed (spec/04 R99, R122). -/
def Half.attemptHigh (x : Half) (c : Cmd) (d : Nat) : Nat :=
  let u := dUnit c.desc
  if u = 1 then d / 2 ^ 63 % 2 * 2 ^ 31
  else if u = 4 then Config.freeNat x.seed 33 % (d / 2 ^ 32 + 1)
  else if u = 3 && 0x20 ≤ dOp c.desc then Config.freeNat x.seed 33 % (d / 2 ^ 32 % 2 ^ 16 + 1)
  else 0

/-- DETAIL0 of an attempt that did not commit: zero for a command that had not started, the arrived mask of a HUDDLE_OPEN,
zero for the sync unit, a free cycle count with `attemptHigh` for every other unit (spec/04 R99, spec/11 R294, R313, log 10). -/
def Half.attempt (x : Half) (c : Cmd) : Nat :=
  if c.st = .waiting then 0
  else if dUnit c.desc = 9 then
    ((x.mem.huddles.find? (fun k => k.cmd = c.id)).map (fun k => (x.arrivals k &&& k.mask).toNat)).getD 0
  else Config.freeNat x.seed 32 % 2 ^ 32 + x.attemptHigh c c.det0.toNat * 2 ^ 32

/-- A planning step that ends before its commit leaves the tree and queue empty (spec/10_motion_planning.md R281). -/
def Half.abandon (x : Half) (c : Cmd) : Half :=
  if dUnit c.desc = 7 && dOp c.desc = 0x10 && c.st ≠ .waiting then
    { x with sched := { x.sched with plan := x.sched.plan.map (fun (p : Plan) => { p with tree := [], queue := [], run := none }) } }
  else x

/-- An attempt that ended without a commit kept its engine busy for its cycles, and counts for nothing else in the measure of slow
engines (spec/11_scheduling_and_sync.md R301). -/
def Half.wasted (x : Half) (c : Cmd) (cycles : Nat) : Half :=
  match c.engine with
  | none => x
  | some n =>
    let l := (x.sched.load.find? (fun l => l.eng = n)).getD { eng := n }
    let l' := { l with busy := l.busy + cycles * 1000 / max 1 ((x.engine n).clockMhz.toNat) }
    { x with sched := { x.sched with load := l' :: x.sched.load.filter (fun k => k.eng ≠ n) } }

/-- Ends a command without a commit. A kill, discard or budget expiry that reaches a command whose copy or signal the far side
has already committed does not apply: it completes with ST_OK (spec/12_memory_system.md R340, spec/11 R308). -/
def Half.endCmd (x : Half) (n status det1 : Nat) : Half :=
  match x.cmd n with
  | some c => if c.farDone then x.record c stOk c.det0.toNat c.det1.toNat else 
      ((x.took.abandon c).wasted c (x.attempt c % 2 ^ 32)).record c status (x.attempt c) det1
  | none => x

/-- Ends every in-flight command of a list without a commit. -/
def Half.endCmds (x : Half) (ns : List Nat) (status : Nat) : Half := ns.foldl (fun y n => y.endCmd n status 0) x

/-- Ends a command whose link is lost, also when the far side has committed (spec/15_die_to_die_links.md R392). -/
def Half.endLost (x : Half) (n : Nat) : Half :=
  match x.cmd n with
  | some c => x.took.record c stDiscarded (x.attempt c) 0
  | none => x

/-- Numbers of the in-flight commands of a context. -/
def Half.cmdsOf (x : Half) (ctx : Nat) : List Nat := (x.sched.cmds.filter (fun c => c.ctx = ctx)).map (·.id)

/-! ### Readiness (spec/11_scheduling_and_sync.md R290, R291, spec/06 R161) -/

/-- The lock a command takes: a kind and address, and whether it is exclusive. A KV operation locks its sequence, FUSE_STEP and
FUSE_CLOSE the fusion session, PLAN_STEP and PLAN_CLOSE the planning session (R161, spec/09 R233, spec/10 R259). -/
def lockOf (c : Cmd) : Option (Nat × Nat × Nat × Bool) :=
  let d := c.desc
  let op := dOp d
  if dUnit d = 3 then
    if op ∈ [0x10, 0x11, 0x12, 0x13, 0x14] then some (3, c.ctx, df d 0x20 64, true)
    else if op = 0x20 then some (3, c.ctx, df d 0x20 64, db d 0x74 2)
    else if op = 0x21 then some (3, c.ctx, df d 0x20 64, false)
    else none
  else if dUnit d = 6 && (op = 0x02 || op = 0x10) then some (6, 0, 0, true)
  else if dUnit d = 7 && (op = 0x02 || op = 0x10) then some (7, 0, 0, true)
  else none

/-- Command o reached its unit before command c did (R161). -/
def Cmd.reachedBefore (o c : Cmd) : Bool := o.reachSeq ≠ 0 && (c.reachSeq = 0 || o.reachSeq < c.reachSeq)

/-- The lock of a command is available: no conflicting holder, and no conflicting command that reached the unit earlier
waits for it (R161). -/
def Half.lockFree (x : Half) (c : Cmd) : Bool :=
  match lockOf c with
  | none => true
  | some (k, a, v, ex) =>
    x.sched.cmds.all (fun o => o.id = c.id ||
      (match lockOf o with
        | some (k', a', v', ex') =>
          !(k = k' && a = a' && v = v' && (ex || ex') && (o.st ≠ .waiting || o.reachedBefore c))
        | none => true))

/-- The command stands first among the unstarted commands of its queue (R61). -/
def Half.firstUnstarted (x : Half) (c : Cmd) : Bool :=
  c.st = .waiting && x.sched.cmds.all (fun o => !(o.queue = c.queue && o.st = .waiting && o.id < c.id))

/-- Its FENCE is satisfied: every earlier command of the queue has its record (R290). -/
def Half.fenceOk (x : Half) (c : Cmd) : Bool :=
  !dFence c.desc || x.sched.cmds.all (fun o => !(o.queue = c.queue && o.id < c.id))

/-- Its PRE_OP is satisfied, or it has none, or its code is malformed and it will fail (R291). -/
def preOk (c : Cmd) : Bool := dPre c.desc = 0 || 2 < dPre c.desc || c.preDone

/-- The command has reached its unit: it stands first among the unstarted commands of its queue, with FENCE and PRE_OP satisfied (R161,
R290, R291). -/
def Half.atUnit (x : Half) (c : Cmd) : Bool := x.firstUnstarted c && x.fenceOk c && preOk c

/-- A ready command. -/
def Half.ready (x : Half) (c : Cmd) : Bool :=
  x.atUnit c && x.lockFree c && (c.tier ≤ 1 || x.powx.level < 6)

/-- What a command competes for: the engines, the Quick lane, the page logic, or its own unit. -/
def resource (c : Cmd) : Nat :=
  if isQuick c then 0x10 else if isEngine c then 0x01 else dUnit c.desc

/-- Distance of a queue behind the one its tier served last, for the round robin; queues stand in ascending number (R291,
log 7). -/
def Half.turn (x : Half) (c : Cmd) : Nat :=
  let last := ((x.sched.lastQueue.find? (fun p => p.1 = c.tier)).map (·.2)).getD 524287
  (c.queue + 2 * 524288 - last - 1) % 524288

/-- One command goes before another by tier, then by the round robin (R291). -/
def Half.ranks (x : Half) (a b : Cmd) : Bool := a.tier < b.tier || (a.tier = b.tier && x.turn a < x.turn b)

/-- The scheduler prefers one ready command to another: by tier and round robin (R291); those of the gather logic, which wait in arrival
order, by that order (spec/07_gather_engine.md R197). -/
def Half.prefers (x : Half) (a b : Cmd) : Bool := if dUnit a.desc = 4 then a.reachedBefore b else x.ranks a b

/-- An engine that takes no command now: it runs one, runs or awaits its warm-up, or was reset and reruns it (R292, R113). -/
def Half.engineBusy (x : Half) (n : Nat) : Bool :=
  let e := x.engine n
  x.sched.cmds.any (fun c => c.engine = some n && c.st ≠ .waiting) || e.warmRunning || e.rerunNext ||
    e.warmForced || e.warmup = 3 || x.ump.rerun.any (fun r => r.1 = n) || (e.wantWarmup && e.st ≠ .quick)

/-- Engines free for a command: the Quick lane for a quick-lane command, otherwise an ACTIVE engine, which for tier CHAIN has
passed the warm-up of the current frame (R291, R292). -/
def Half.freeEngines (x : Half) (c : Cmd) : List Nat :=
  (List.range 18).filter (fun n =>
    let e := x.engine n
    !x.engineBusy n &&
      (if isQuick c then e.st = .quick else e.st = .active && (c.tier ≠ 0 || e.passedFrame)))

/-- A ready command that can be placed: an engine is free for one of engine work, and one that found no staging space waits until a
command has ended (R291, spec/04_tensor_engines.md R110). -/
def Half.placeable (x : Half) (c : Cmd) : Bool := !c.noRoom && (!isEngine c || x.freeEngines c ≠ [])

/-- The scheduler releases this command next for its resource: none of the ready commands that can be placed there is preferred
(R291; log 18). -/
def Half.picks (x : Half) (c : Cmd) : Bool :=
  x.ready c && x.sched.cmds.all (fun o => !(x.ready o && x.placeable o && resource o = resource c && x.prefers o c))

/-- The command's unit is in a subsystem reset (spec/20_power_thermal_reset.md R512; the codes are those of `subReset`). -/
def Half.unitDown (x : Half) (c : Cmd) : Bool :=
  let on := fun k => x.powx.subReset.contains k
  let u := dUnit c.desc
  if u = 6 then on 6 else if u = 7 then on 7 else if u = 8 then on 10 else if u = 5 then on 11
  else if u = 3 || u = 4 then on 8 || on 9 else false

/-- An engine below 85 % of the median; the Quick lane is exempt (R302). -/
def Engine.slow (e : Engine) : Bool := !e.isQuickLane && e.measRelative && e.relative.toNat ≤ 0x0366

/-- The choice among free engines by dispatch credit, lowest number first among equals; a slow engine that is chosen gains
its relative rate and takes the command only with a credit of at least 1 (R291, R302). -/
def chooseEngine (es : List Engine) : List Nat → Nat → List Engine × Option Nat
  | _, 0 => (es, none)
  | [], _ => (es, none)
  | free, fuel + 1 =>
    let credit := fun n => ((es[n]?).map (fun e => if e.slow then e.credit else 1024)).getD 0
    match free.find? (fun n => free.all (fun m => credit m ≤ credit n)) with
    | none => (es, none)
    | some n =>
      let e := es[n]?.getD {}
      if e.slow then
        let k := e.credit + e.relative.toNat
        if 1024 ≤ k then (es.set n { e with credit := k - 1024 }, some n)
        else chooseEngine (es.set n { e with credit := k }) (free.filter (fun m => m ≠ n)) fuel
      else (es, some n)

/-- Bytes of staging in use (spec/04_tensor_engines.md R110). -/
def Half.stagingUsed (x : Half) : Nat :=
  (x.sched.cmds.filter (fun c => c.st ≠ .waiting)).foldl (fun a c => a + c.foot) 0

/-- Staging pool by slices in service: 96, 88 or 80 MB; a slice that is being mapped out takes no reservation
(spec/12_memory_system.md R315, R335). -/
def Half.stagingPool (x : Half) : Nat :=
  let out := x.mem.slicesOut.length + if (List.range 12).any x.sliceStops then 1 else 0
  if out = 0 then 96000000 else if out = 1 then 88000000 else 80000000

/-! ### Checks at a PRE_OP wait or a start -/

/-- The operation is one of its unit's (spec/02 R61). -/
def knownOp (u op : Nat) : Bool :=
  if u = 1 then op ∈ [0x01, 0x10, 0x11, 0x12, 0x13, 0x20, 0x7F]
  else if u = 2 then op ∈ [0x01, 0x10, 0x11]
  else if u = 3 then op ∈ [0x01, 0x02, 0x10, 0x11, 0x12, 0x13, 0x14, 0x20, 0x21]
  else if u = 4 then op ∈ [0x01, 0x02, 0x03, 0x04, 0x10]
  else if u = 5 then op ∈ [0x01, 0x02, 0x10, 0x20, 0x21, 0x22]
  else if u = 6 then op ∈ [0x01, 0x02, 0x10]
  else if u = 7 then op ∈ [0x01, 0x02, 0x10]
  else if u = 8 then op ∈ [0x01, 0x10, 0x11, 0x12]
  else if u = 9 then op ∈ [0x01, 0x02, 0x03, 0x04, 0x05, 0x10, 0x11, 0x12, 0x20, 0x21]
  else false

/-- The operation is one that a client's command can start: every one of its unit's but WARMUP, which the Captain alone issues
(spec/04_tensor_engines.md R100). -/
def startable (u op : Nat) : Bool := knownOp u op && !(u = 1 && op = 0x7F)

/-- Sync operations whose SYNC_VA is a sync address (spec/11 R308). -/
def usesSyncVa (d : Desc) : Bool :=
  dUnit d = 9 && (dOp d ≤ 0x05 || (dOp d = 0x11 && !db d 0x3D 1))

/-- The sync-address checks of a command (R307), and a POST_SYNC_VA equal to SYNC_VA (R308). -/
def Half.syncChecks (x : Half) (c : Cmd) : List Chk :=
  let d := c.desc
  [{ bad := (dPre d = 1 || dPre d = 2) && x.syncBad c.ctx (dPreVa d), st := stMalformed, off := 0x10 },
   { bad := (dPost d = 1 || dPost d = 2) && x.syncBad c.ctx (dPostVa d), st := stMalformed, off := 0x18 },
   { bad := usesSyncVa d && x.syncBad c.ctx (df d 0x20 64), st := stMalformed, off := 0x20 },
   { bad := usesSyncVa d && (dPost d = 1 || dPost d = 2) && decide (dPostVa d = df d 0x20 64), st := stMalformed
     off := 0x18 }]

/-- Waiters on sync words: PRE_OP waits, sync operations, and commits that wait for their POST_OP (R307). -/
def Half.waiters (x : Half) : Nat :=
  (x.sched.cmds.filter (fun c => (c.checked && c.st = .waiting && !preOk c) ||
    (c.st ≠ .waiting && dUnit c.desc = 9 && dOp c.desc ≤ 0x04) || c.postSeq ≠ 0)).length

/-- The checks that every unit shares: class mask (spec/13 R342), header, operation, a re-issue made too soon (R64), sync addresses. -/
def Half.commonChecks (x : Half) (c : Cmd) : List Chk :=
  [{ bad := !(bitAt (x.classMask c.client) (dClass c.desc)), st := stDenied },
   { bad := dUnit c.desc = 1 && dOp c.desc = 0x7F, st := stDenied },
   { bad := !(knownOp (dUnit c.desc) (dOp c.desc)), st := stUnsupported },
   { bad := (x.cmdHeld c).isSome, st := stBusy, retry := x.cmdHeld c }] ++ headerChecks c.desc ++
  (if c.checked then [] else x.syncChecks c)

/-- Ends a command whose checks fail (R62): the failing offset, or RETRY_AFTER on ST_BUSY (R41: a value no rule gives is
free). -/
def Half.failCmd (x : Half) (c : Cmd) (k : Chk) : Half :=
  if k.st = stMalformed || k.st = stLimit then x.record c k.st 0 k.off
  else if k.st = stBusy then
    match k.retry with
    | some r => x.record c k.st 0 (max 100 r)
    | none => x.took.record c k.st 0 (max 100 (Config.retryAfter x.seed % 2 ^ 32))
  else x.record c k.st 0 0

/-! ### Commit -/

/-- The bytes of memory of which a directory entry holds a copy: the row's elements, and its scale bytes where the table is MX
(spec/07_gather_engine.md R190, R193). -/
def HotEntry.ranges (e : HotEntry) : List (Nat × Nat) := [(e.va, e.len - e.slen), (e.sva, e.slen)]

/-- Rows of the hot-row directory that a commit changes are invalidated (spec/07_gather_engine.md R193). -/
def Half.dropHot (x : Half) (ctx : Nat) (ws : List (Nat × Byte)) : Half :=
  if x.sched.hot.entries = [] || ws = [] then x
  else
    let phys := fun c va => match x.tptAt c va with
      | some { dest := .frame st f, .. } => some (physAddr st f (va % pageBytes))
      | _ => none
    let hit := fun (e : HotEntry) => ws.any (fun w => match phys ctx w.1 with
      | some p => e.ranges.any (fun r => (List.range r.2).any (fun i => phys e.ctx (r.1 + i) = some p))
      | none => false)
    { x with sched := { x.sched with hot := { x.sched.hot with entries := x.sched.hot.entries.filter (fun e => !hit e) } } }

/-- Quick-lane residents that came from a page that a commit writes are dropped (spec/04_tensor_engines.md R122). -/
def Half.dropResidents (x : Half) (ctx : Nat) (pages : List Nat) : Half :=
  let frames := pages.filterMap (fun p => (x.tptOf ctx p).map (·.dest))
  { x with sched := { x.sched with residents := x.sched.residents.filter (fun r =>
      !((pagesOf r.base r.foot).any (fun p => ((x.tptOf r.ctx p).map (·.dest)).any (fun t => t ∈ frames)))) } }

/-- Blocks of which a commit writes all 64 bytes hold a new codeword (spec/12_memory_system.md R328, R329). -/
def Half.mendBlocks (x : Half) (ctx : Nat) (ws : List (Nat × Byte)) : Half :=
  if x.mem.bad = [] then x
  else
    let keys := ws.filterMap (fun w => (x.blockAt ctx w.1).map (fun b => (b, w.1 % 64)))
    let whole := fun (b : BadBlock) => (List.range 64).all (fun i => ((b.stack, b.frame, b.block), i) ∈ keys)
    { x with mem := { x.mem with bad := x.mem.bad.filter (fun b => !whole b) } }

/-- A block that the writes change in part and whose codeword is uncorrectable (R329). -/
def Half.partBad (x : Half) (ctx : Nat) (ws : List (Nat × Byte)) : Option Nat :=
  if x.mem.bad = [] then none
  else
    let vas := ws.map (·.1)
    (ws.find? (fun w => x.badAt ctx w.1 && !((List.range 64).all (fun i => (w.1 / 64 * 64 + i) ∈ vas)))).map (·.1)

/-- Blocks of the controllers' health list that a commit writes are to be read back (spec/12_memory_system.md R330). -/
def Half.noteWritten (x : Half) (ctx : Nat) (ws : List (Nat × Byte)) : Half :=
  if x.mem.health = [] then x
  else
    let keys := ws.filterMap (fun w => x.blockAt ctx w.1)
    { x with mem := { x.mem with health := x.mem.health.map (fun (k : Health) =>
        { k with written := k.written || decide ((k.stack, k.frame, k.block) ∈ keys) }) } }

/-- Writes bytes as one commit: the bytes, their lines of the general cache, the codewords they replace, and the copies they make
stale (R109, R316, R193, R122). -/
def Half.commitBytes (x : Half) (ctx : Nat) (ws : List (Nat × Byte)) : Half :=
  (((((x.noteWritten ctx ws).mendBlocks ctx ws).dropHot ctx ws).dropResidents ctx ((ws.map (fun w => w.1 / pageBytes)).eraseDups)).touch ctx true
    (ws.map (·.1))).vputs ctx ws

/-- The pool that a descriptor address names in a context (spec/06_attention_and_kv.md R153). -/
def Half.pool (x : Half) (ctx va : Nat) : Option Pool := x.sched.pools.find? (fun p => p.ctx = ctx && p.va = va)

/-- The bytes of a pool's free map in which pages are taken and given back, as they become (spec/06_attention_and_kv.md R151). -/
def Half.mapBytes (x : Half) (ctx map : Nat) (take give : List Nat) : List (Nat × Byte) :=
  (((take ++ give).map (· / 8)).eraseDups).map (fun b => (map + b,
    (List.range 8).foldl (fun (v : Byte) i =>
      if 8 * b + i ∈ take then v ||| (1#8 <<< i) else if 8 * b + i ∈ give then v &&& ~~~(1#8 <<< i) else v) (x.vbyte ctx (map + b))))

/-- Everything a commit writes: the staged bytes, and the words of the free map that its allocations change as it finds them
(spec/06_attention_and_kv.md R179). -/
def Half.commitWrites (x : Half) (ctx : Nat) (ws : List (Nat × Byte)) (e : Eff) : List (Nat × Byte) :=
  match e with
  | .poolFree k va take give => ws ++ ((x.pool k va).map (fun p => x.mapBytes ctx p.freeMap take give)).getD []
  | _ => ws

/-- Takes and frees pages in the allocation state and the free count that a pool keeps on-die (spec/06_attention_and_kv.md R153,
R179). -/
def Half.setFree (x : Half) (ctx va : Nat) (take give : List Nat) : Half :=
  { x with sched := { x.sched with pools := x.sched.pools.map (fun (q : Pool) =>
      if q.ctx = ctx && q.va = va then
        { q with free := q.free + give.length - take.length, used := take ++ q.used.filter (fun n => n ∉ give) }
      else q) } }

/-- Outstanding software-decode requests become defective with reason 0x05 and ST_TIMEOUT (spec/08_input_pipeline.md R223). -/
def Half.defectSw (x : Half) (gone : SwReq → Bool) : Half :=
  match x.sched.pipe.swdec with
  | none => x
  | some s =>
    let hit := fun cmd slot => s.reqs.any (fun r => gone r && r.cmd = cmd && r.slot = slot)
    let bs := x.sched.pipe.batches.map (fun b => { b with
      slots := b.slots.zipIdx.map (fun p => if hit b.cmd p.2 && p.1.place = .swPosted then
        { p.1 with place := .defect stTimeout 0x05 } else p.1) })
    { x with sched := { x.sched with pipe := { x.sched.pipe with
        batches := bs, swdec := some { s with reqs := s.reqs.filter (fun (r : SwReq) => !gone r) } } } }

/-- Detaches the software decode service (R223). -/
def Half.detachSw (x : Half) : Half :=
  let y := x.defectSw (fun _ => true)
  { y with sched := { y.sched with pipe := { y.sched.pipe with swdec := none } } }

/-- Applies the effect of a commit that is not memory. -/
def Half.applyEff (x : Half) (e : Eff) : Half :=
  match e with
  | .none => x
  | .poolInit p => { x with sched := { x.sched with pools := x.sched.pools ++ [p] } }
  | .poolDestroy c v => { x with sched := { x.sched with pools := x.sched.pools.filter (fun p => !(p.ctx = c && p.va = v)) } }
  | .poolFree c v take give => x.setFree c v take give
  | .bind b => { x with sched := { x.sched with pipe := { x.sched.pipe with bindings := x.sched.pipe.bindings ++ [b] } } }
  | .unbind n => { x with sched := { x.sched with pipe := { x.sched.pipe with
      bindings := x.sched.pipe.bindings.filter (fun b => b.num ≠ n) } } }
  | .attach s => { x with sched := { x.sched with pipe := { x.sched.pipe with swdec := some s } } }
  | .detach => x.detachSw
  | .fuse f => { x with sched := { x.sched with fusion := some f } }
  | .fuseClose => { x with sched := { x.sched with fusion := none } }
  | .plan p => { x with sched := { x.sched with plan := some p } }
  | .planClose => { x with sched := { x.sched with plan := none } }
  | .window w => { x with mem := { x.mem with windows := x.mem.windows ++ [w] } }
  | .unwindow n => { x with mem := { x.mem with windows := x.mem.windows.filter (fun w => w.num ≠ n) } }
  | .inbound i => { x with mem := { x.mem with inbound := x.mem.inbound ++ [i] } }
  | .uninbound n => { x with mem := { x.mem with inbound := x.mem.inbound.filter (fun i => i.num ≠ n) } }
  | .arrive c k b => { x with mem := { x.mem with huddles := x.mem.huddles.map (fun u =>
      if u.ctx = c && u.key = k then { u with arrived := setBit u.arrived b } else u) } }
  | .batch l => { x with sched := { x.sched with pipe := { x.sched.pipe with
      bindings := x.sched.pipe.bindings.map (fun (b : Binding) => match l.find? (fun p => p.1 = b.num) with
        | some p => { b with lastAu := p.2.1, awaitIrap := p.2.2 }
        | none => b) } } }

/-- Every module of the compute die is DOWN: its engines are retired at the next frame boundary (spec/15_die_to_die_links.md R386). -/
def Half.dieDead (x : Half) (die : Nat) : Bool := (List.range 8).all (fun k => (x.link (die * 8 + k)).st = .down)

/-- The engine stands on a dead die and is not yet retired. -/
def Half.lost (x : Half) (e : Engine) : Bool := x.dieDead (e.num / 9) && e.st ≠ .retired && e.st ≠ .off

/-- The SPARE engines, lowest first, that are to take the places of engines lost with a die: as many as there are such places, without
the one selected for a retirement of its own and any that failed its warm-up (spec/04_tensor_engines.md R115, R116). -/
def Half.owedSpares (x : Half) : List Nat :=
  let need := x.sched.owed + (x.sched.engines.filter (fun e => x.lost e && e.st ≠ .spare)).length
  ((x.sched.engines.filter (fun e =>
    e.st = .spare && !x.lost e && x.sched.retireSpare ≠ some e.num && e.warmup ≠ 3)).map (·.num)).take need

/-- Payload capacity of a compute die, in MB/s: that of its modules that carry traffic (spec/15_die_to_die_links.md R378). -/
def Half.dieCapacity (x : Half) (die : Nat) : Nat :=
  ((List.range 8).map (fun k => let l := x.link (die * 8 + k); if l.works then l.payload.toNat else 0)).sum

/-- The compute die's capacity is below the draw of its ports, 1,843 GB/s: its engines are not measured for that time
(spec/15_die_to_die_links.md R388). -/
def Half.narrowDie (x : Half) (die : Nat) : Bool := decide (x.dieCapacity die < 1843000)

/-- An engine command that committed with ST_OK counts for its engine: ENG_COMMITS, and its predicted and taken cycles for
the measure of the frame unless its port was held or its die is narrow (spec/04 R114, spec/11 R301, spec/13 R354, spec/15 R388). -/
def Half.engineCommit (x : Half) (c : Cmd) : Half :=
  match c.engine with
  | none => x
  | some n =>
    let y := x.modEngine n (fun e => { e with commits := e.commits + 1 })
    let l := (y.sched.load.find? (fun l => l.eng = n)).getD { eng := n }
    let clk := max 1 ((y.engine n).clockMhz.toNat)
    let l' := if c.held10 || y.narrowDie (n / 9) then { l with busy := l.busy + c.cycles * 1000 / clk }
      else { l with predict := l.predict + c.predict, cycles := l.cycles + c.cycles, busy := l.busy + c.cycles * 1000 / clk }
    let chain := if c.tier = 0 && n ∉ y.ump.chainMask then n :: y.ump.chainMask else y.ump.chainMask
    { y with sched := { y.sched with load := l' :: y.sched.load.filter (fun k => k.eng ≠ n) }
             ump := { y.ump with chainMask := chain } }

/-! ### The frame's commits (spec/01_two_halves.md R25, spec/18_safety.md R447, R451) -/

/-- The newer of two times kept per source. -/
def markSource (l : List (Nat × Nat)) (source t : Nat) : List (Nat × Nat) :=
  (source, max t (((l.find? (fun p => p.1 = source)).map (·.2)).getD 0)) :: l.filter (fun p => p.1 ≠ source)

/-- The captures that a committed batch of a CHAIN context consumed move the frame's capture marks (R447). -/
def Half.markCaptures (x : Half) (n : Nat) : Half :=
  match x.sched.pipe.batches.find? (fun b => b.cmd = n) with
  | none => x
  | some b =>
    let marks := b.slots.foldl (fun (l : List (Nat × Nat)) k =>
      match k.binding.bind (fun i => x.sched.pipe.bindings.find? (fun d => d.num = i)) with
      | some d => if d.source < 0x80 then markSource l d.source k.time.toNat else l
      | none => l) x.umpx.marks
    { x with umpx := { x.umpx with marks := marks } }

/-- The frame checkpoint of the half as it stands (R25, R447, spec/09_fusion_engine.md R254, spec/10_motion_planning.md R282: the
tree and the queue are not carried). -/
def Half.takeCheckpoint (x : Half) : Checkpoint :=
  { frame := x.frame, fusion := x.sched.fusion
    plan := x.sched.plan.map (fun (p : Plan) => { p with tree := [], queue := [], run := none })
    loop := Config.loopState x.seed (x.cores.pairs[x.cores.loopPair]?.getD {}).tcm
    grid := match x.sched.fusion with
      | some f => x.vread f.ctx f.gridVa (64 + f.gridW * f.gridH)
      | none => []
    mask := x.ump.chainMask ++ ((x.sched.engines.filter (fun e => e.st = .quick && e.num ∉ x.ump.chainMask)).map (·.num))
    marks := x.umpx.marks }

/-- The message that carries a checkpoint with its closing record. -/
def Checkpoint.msg (c : Checkpoint) : LinkMsg := .checkpoint c.frame c.fusion c.plan c.mask c.marks c.loop c.grid

/-- The frame's commit, which is the commit of its plan: the half keeps its last two checkpoints (R447), a primary in DUAL and a
running half that duplicates its streams for a return from SOLO send it to the other half, where it waits for the end of a retrain
(R25, R30, spec/15_die_to_die_links.md R389), and the replay of an untrusted frame is over (R462). -/
def Half.frameCommit (x : Half) : Half :=
  let c := x.takeCheckpoint
  let y : Half := { x.took with
    ump := { x.ump with checkpoints := (c :: x.ump.checkpoints.filter (fun k => k.frame ≠ c.frame)).take 2 }
    umpx := { x.umpx with untrusted := false, replay := [] } }
  if (x.ump.role = 1 || x.umpx.duplicating) && x.handoffStands then y.send c.msg else y

/-- In MIRROR, the compare record of a commit of the fused output or of the plan is kept and sent (R451). -/
def Half.compareCommit (x : Half) (plan : Bool) (data : List Byte) : Half :=
  if x.ump.role = 3 || x.ump.role = 4 then
    let y : Half := { x with umpx := { x.umpx with ownRec := x.umpx.ownRec ++ [(plan, x.frame, x.now, data)] } }
    if y.handoffStands then y.send (.compare plan x.frame data) else y
  else x

/-- What the commit of a command of a CHAIN context means to its frame. -/
def Half.chainCommit (x : Half) (c : Cmd) : Half :=
  let u := dUnit c.desc
  if !x.chainCtx c.ctx || c.status = stEmpty || dOp c.desc ≠ 0x10 then x
  else if u = 5 then x.markCaptures c.id
  else if u = 6 then
    let out := df c.desc 0x30 64
    x.compareCommit false (x.vread c.ctx out (128 + 192 * x.vnat c.ctx (out + 0x14) 2))
  else if u = 7 then
    let out := df c.desc 0x30 64
    (x.compareCommit true (x.vread c.ctx out (160 + 32 * x.vnat c.ctx (out + 0x20) 2))).frameCommit
  else x

/-- The addresses at which a context sees the byte at an address of another one, or of itself (spec/12_memory_system.md R320). -/
def Half.aliases (x : Half) (ctx va ctx' : Nat) : List Nat :=
  match x.tptAt ctx va with
  | some t => (x.mem.tpt.filter (fun e => e.ctx = ctx' && e.dest = t.dest)).map (fun e => e.page * pageBytes + va % pageBytes)
  | none => []

/-- A commit into the input of a running convolution or pooling command, which may fetch the bytes before or after it: the bytes as they
stood are kept until it ends (spec/05_convolution_path.md R146). -/
def Half.noteRaces (x : Half) (n ctx : Nat) (ws : List (Nat × Byte)) : Half :=
  let runs := fun (k : Cmd) => k.id ≠ n && k.st = .running && dUnit k.desc = 2
  if !(x.sched.cmds.any runs) then x
  else { x with sched := { x.sched with cmds := x.sched.cmds.map (fun (k : Cmd) =>
    if runs k then
      { k with raced := k.raced ++ ws.flatMap (fun w => ((x.aliases ctx w.1 k.ctx).filter (fun v =>
          k.reads.any (fun r => r.1 ≤ v && v < r.1 + r.2))).map (fun v => (v, x.vbyte k.ctx v))) }
    else k) } }

/-- The commit of a command: outputs, effect and POST_OP in one step, then its record (R60, R109). -/
def Half.commit (x : Half) (c : Cmd) : Half :=
  let ws := x.commitWrites c.ctx c.writes c.eff
  let y := ((x.noteRaces c.id c.ctx ws).commitBytes c.ctx ws).applyEff c.eff
  let y := (if c.status = stEmpty then y else y.engineCommit c).chainCommit c
  (y.postOp c).record c c.status c.det0.toNat c.det1.toNat

/-! ### Release of waiters (spec/11_scheduling_and_sync.md R306, R308, R312) -/

/-- Next number for the order of waits and starts. -/
def Half.tickSeq (x : Half) : Half := { x with sched := { x.sched with nextCmd := x.sched.nextCmd + 1 } }

/-- The PRE_OP of a waiting command is satisfied by its word as it stands. -/
def Half.preSat (x : Half) (c : Cmd) : Bool :=
  let w := x.wordAt c.ctx (dPreVa c.desc)
  if dPre c.desc = 1 then w.full else !w.full

/-- A started sync operation on a word can take its effect, and its POST_OP with it (R305, R308). -/
def Half.syncCan (x : Half) (c : Cmd) : Bool :=
  let w := x.wordAt c.ctx (df c.desc 0x20 64)
  let op := dOp c.desc
  c.st = .running && dUnit c.desc = 9 &&
    (if op = 0x01 then !w.full else if op = 0x02 then w.full else if op = 0x03 then w.full
     else if op = 0x04 then !w.full else op = 0x05) && x.postOk c

/-- Takes the effect of a sync operation and commits it (Table — Sync operations). -/
def Half.syncCommit (x : Half) (c : Cmd) : Half :=
  let va := df c.desc 0x20 64
  let w := x.wordAt c.ctx va
  let op := dOp c.desc
  let y := if op = 0x01 then x.fillWord c.ctx va (BitVec.ofNat 64 (df c.desc 0x28 64))
    else if op = 0x02 then x.drainWord c.ctx va else x
  y.commit { c with
    det0 := if op = 0x02 || op = 0x03 || op = 0x05 then w.value else 0
    det1 := if op = 0x05 && w.full then 1 else 0 }

/-- One release: a PRE_OP wait, then a WAIT_FULL, WAIT_EMPTY or PEEK, then the oldest FILL, DRAIN or waiting commit that can
proceed, then a huddle whose participants have all arrived (R306, R312). -/
def Half.settleOne (x : Half) : Option Half :=
  let cs := x.sched.cmds
  match cs.find? (fun c => c.st = .waiting && c.checked && !c.preDone && (dPre c.desc = 1 || dPre c.desc = 2) && x.preSat c) with
  | some c => some (x.modCmd c.id (fun k => { k with preDone := true }))
  | none =>
    match cs.find? (fun c => x.syncCan c && 0x03 ≤ dOp c.desc) with
    | some c => some (x.syncCommit c)
    | none =>
      let can := cs.filter (fun c => x.syncCan c || (c.postSeq ≠ 0 && x.postOk c))
      let age := fun (c : Cmd) => if c.postSeq ≠ 0 then c.postSeq else c.waitSeq
      match can.find? (fun c => can.all (fun o => age c ≤ age o)) with
      | some c => some (if c.postSeq ≠ 0 then x.commit c else x.syncCommit c)
      | none =>
        match cs.find? (fun c => c.st = .running && dUnit c.desc = 9 && dOp c.desc = 0x20 && c.postSeq = 0 &&
            (x.mem.huddles.any (fun k => k.cmd = c.id && (x.arrivals k &&& k.mask) = k.mask)) && x.postOk c) with
        | some c =>
          let a := ((x.mem.huddles.find? (fun k => k.cmd = c.id)).map (fun k => x.arrivals k &&& k.mask)).getD 0
          some (x.commit { c with det0 := a })
        | none => none

/-- Releases until nothing can proceed; each release ends a wait, so twice the commands in flight bound them. -/
def settleN : Nat → Half → Half
  | 0, x => x
  | n + 1, x => match x.settleOne with
    | some y => settleN n y
    | none => x

/-- A command whose unit or operation does not exist or is not a client's, or that begins its PRE_OP wait: it is checked when it stands first and
its FENCE is satisfied (R307; log 20). -/
def Half.beginOne (x : Half) : Option Half :=
  match x.sched.cmds.find? (fun c => x.firstUnstarted c && x.fenceOk c && !c.checked &&
      (dPre c.desc = 1 || dPre c.desc = 2 || !(startable (dUnit c.desc) (dOp c.desc)))) with
  | none => none
  | some c =>
    let full := { bad := (dPre c.desc = 1 || dPre c.desc = 2) && !x.preSat c && decide (16384 ≤ x.waiters), st := stBusy
                  retry := some 1000 }
    match worst (x.commonChecks c ++ [full]) with
    | some k => some (x.failCmd c k)
    | none => some ((x.modCmd c.id (fun k => { k with checked := true, preDone := x.preSat c })).tickSeq)

/-- Begins waits until none is left to begin. -/
def beginN : Nat → Half → Half
  | 0, x => x
  | n + 1, x => match x.beginOne with
    | some y => beginN n y
    | none => x

/-- Puts a command among others by tier and round robin. -/
def Half.insertRank (x : Half) (c : Cmd) : List Cmd → List Cmd
  | [] => [c]
  | o :: l => if x.ranks c o then c :: o :: l else o :: x.insertRank c l

/-- Commands that have reached their unit since the last look are numbered in that order, those of one step as the scheduler would
release them (R161, R291). -/
def Half.stampReached (x : Half) : Half :=
  ((x.sched.cmds.filter (fun c => c.reachSeq = 0 && x.atUnit c)).foldl (fun l c => x.insertRank c l) []).foldl
    (fun (y : Half) c => (y.modCmd c.id (fun k => { k with reachSeq := y.sched.nextCmd + 1 })).tickSeq) x

/-- What follows at once from a change: waits begin, waiters are released (R306, R307), and commands reach their units. -/
def Half.settle (x : Half) : Half :=
  let n := 2 * x.sched.cmds.length + 2
  (settleN n (beginN n (settleN n (beginN n x)))).stampReached

/-! ### Start -/

/-- What a unit makes of a command that starts. -/
structure Work where
  /-- Bytes staged for the commit, by virtual address. -/
  writes : List (Nat × Byte) := []
  /-- Ranges (base, length) that the command reads. -/
  reads : List (Nat × Nat) := []
  /-- Ranges it writes, for R324. -/
  outs : List (Nat × Nat) := []
  /-- Ranges of which it reads copies held beside the memory, also for R324 (spec/07_gather_engine.md R193, R195). -/
  held : List (Nat × Nat) := []
  /-- Output footprint for the staging pool. -/
  foot : Nat := 0
  /-- Status of the commit. -/
  status : Nat := stOk
  /-- DETAIL0 of the commit. -/
  det0 : Nat := 0
  /-- DETAIL1 of the commit. -/
  det1 : Nat := 0
  /-- Effect of the commit other than memory. -/
  eff : Eff := .none
  /-- UNIT_INSTANCE of a unit that is no engine. -/
  inst : Nat := 0xFF
  /-- Predicted engine cycles. -/
  predict : Nat := 0
  /-- Cycles reported. -/
  cycles : Nat := 0
  /-- Working epoch of a planning step. -/
  epoch0 : Nat := 0
  /-- Pool pages reserved. -/
  kvPages : List Nat := []
  /-- The command has no output to stage and commits at once. -/
  atOnce : Bool := false
  /-- What the unit finds wrong in data that it reads while the command runs: the command ends with it and commits nothing. -/
  fail : Option Chk := none
  /-- DETAIL0[63:32] of a command that fails so. -/
  failHigh : Nat := 0
  /-- The hot-row directory as the command's lookups and admissions leave it (spec/07_gather_engine.md R191). -/
  hot : Option HotDir := none
  deriving DecidableEq, Repr

/-- Commits a command now, or when its POST_OP can be taken (R305); one that would be a waiter too many ends with ST_BUSY (R307). -/
def Half.tryCommit (x : Half) (n : Nat) : Half :=
  match x.cmd n with
  | none => x
  | some c =>
    if x.postOk c then x.commit c
    else if 16384 ≤ x.waiters then x.took.record c stBusy (x.attempt c) 1000
    else (x.modCmd n (fun k => { k with st := .staged, postSeq := x.sched.nextCmd + 1 })).tickSeq

/-- An uncorrectable block in what a command reads or must merge with (spec/12 R329, spec/11 R295): the log entry, ST_DATA_LOST
with its ENTRY_SEQ, and the context's other commands discarded. -/
def Half.dataLost (x : Half) (c : Cmd) (va : Nat) : Half :=
  let loc := match x.blockAt c.ctx va with
    | some (st, f, b) => x.dramLoc st f b
    | none => 0
  let seq := x.mem.logSeq.toNat
  let y := ((x.abandon c).memErr 0x02 0 loc (some (c.ctx, va))).took.record c stDataLost (x.attempt c) seq
  y.endCmds (y.cmdsOf c.ctx) stDiscarded

/-- Ends a command on what its unit found in its data: DETAIL0 as of an attempt, DETAIL1 by its status (R62). -/
def Half.failRun (x : Half) (c : Cmd) (k : Chk) (high : Nat) : Half :=
  let d1 := if k.st = stMalformed || k.st = stLimit then k.off
    else if k.st = stBusy then k.retry.getD (max 100 (Config.retryAfter x.seed % 2 ^ 32)) else 0
  (x.abandon c).took.record c k.st (x.attempt c + high * 2 ^ 32) d1

/-- Marks that the tier served the queue (R291). -/
def Half.served (x : Half) (c : Cmd) : Half :=
  { x with sched := { x.sched with lastQueue := (c.tier, c.queue) :: x.sched.lastQueue.filter (fun p => p.1 ≠ c.tier) } }

/-- The command starts with the work its unit made of it: it holds its lock, its engine and its staging; what commits at once
commits (R109, R110, R161). -/
def Half.begin (x : Half) (c : Cmd) (eng : Option Nat) (w : Work) : Half :=
  let y := (x.served c).modCmd c.id (fun k => { k with
    st := .running, engine := eng, inst := eng.getD w.inst, started := x.now, order := x.sched.nextCmd + 1
    writes := w.writes, reads := w.reads ++ w.outs, held := w.held, foot := w.foot, status := w.status, det0 := BitVec.ofNat 64 w.det0
    det1 := BitVec.ofNat 32 w.det1, eff := w.eff, kvPages := w.kvPages, checked := true, predict := w.predict
    cycles := w.cycles, epoch0 := w.epoch0, waitSeq := x.sched.nextCmd + 1, lock := (lockOf c).elim 0 (fun l => if l.2.2.2 then 2 else 1) })
  let y := (y.tickSeq.took).touchReads c.ctx w.reads
  let y := match w.hot with
    | some d => { y with sched := { y.sched with hot := d } }
    | none => y
  if w.atOnce then y.tryCommit c.id else y

/-- The scheduler starts the command if it is the one it releases next for its resource: checks under R9, an empty command
commits an empty output (R11), a command without staging space (R110) or an engine waits, one that reads or must merge an
uncorrectable block ends with ST_DATA_LOST, every other begins. `ok` is a unit's own condition for starting. -/
def Half.start (x : Half) (n u op : Nat) (ok : Half → Cmd → Bool) (chk : Half → Cmd → List Chk)
    (work : Half → Cmd → Option Nat → Work) : Half :=
  match x.cmd n with
  | none => x
  | some c =>
    if !(x.alive && dUnit c.desc = u && dOp c.desc = op && x.picks c && ok x c && !x.unitDown c) then x
    else match worst (x.commonChecks c ++ chk x c) with
      | some k =>
        if k.st = stEmpty then
          (((x.served c).modCmd n (fun k => { k with st := .running, status := stEmpty, checked := true })).tryCommit n).settle
        else ((x.served c).failCmd c k).settle
      | none =>
        let (es, eng) := if isEngine c then chooseEngine x.sched.engines (x.freeEngines c) 19 else (x.sched.engines, none)
        if isEngine c && eng.isNone then { x with sched := { x.sched with engines := es } }
        else
          let w := work x c eng
          if x.stagingPool < x.stagingUsed + w.foot then x.modCmd n (fun k => { k with noRoom := true })
          else
            let y := { x with sched := { x.sched with engines := es } }
            match (y.firstBad c.ctx w.reads).or (y.partBad c.ctx (y.commitWrites c.ctx w.writes w.eff)) with
            | some va => (y.served c).dataLost { c with st := .running, inst := eng.getD w.inst, det0 := BitVec.ofNat 64 w.det0 } va |>.settle
            | none => match w.fail with
              | some k => ((y.served c).failRun
                  { c with st := .running, inst := eng.getD w.inst, det0 := BitVec.ofNat 64 w.det0 } k w.failHigh).settle
              | none => (y.begin c eng w).settle

/-! ### Teardown (spec/11_scheduling_and_sync.md R297) -/

/-- Removes Tensor Page Table entries; the words of a sync page whose last mapping goes are forgotten, and a dirty line that
holds a bad codeword is released (spec/12 R322, R332). -/
def Half.removeTpt (x : Half) (gone : Tpt → Bool) : Half :=
  let rest := x.mem.tpt.filter (fun t => !gone t)
  let stays := fun m => rest.any (fun t => t.dest = m)
  { x with mem := { x.mem with
      tpt := rest
      cache := keepLines rest x.mem.cache
      sync := x.mem.sync.filter (fun w => stays (.sync w.page))
      bad := x.mem.bad.filter (fun b => b.line.isNone || stays (.frame b.stack b.frame)) } }

/-- Releases what a context owns: sessions, pools, bindings, inbound slots, windows, hot-row entries, residents, frame rings
(Table — Context teardown step 3; spec/16 R400). -/
def Half.releaseCtx (x : Half) (c : Nat) : Half :=
  let y := if (x.sched.pipe.swdec.any (fun s => s.ctx = c)) then x.detachSw else x
  let rings := fun (tx : Bool) (m : Nat) (l : List Bool) => l.zipIdx.map (fun p =>
    p.1 || y.cfgb.rings.any (fun r => r.port = m && r.num = p.2 && r.tx = tx && r.ctx = c))
  { y with
    sched := { y.sched with
      fusion := y.sched.fusion.filter (fun f => f.ctx ≠ c)
      plan := y.sched.plan.filter (fun p => p.ctx ≠ c)
      pools := y.sched.pools.filter (fun p => p.ctx ≠ c)
      pipe := { y.sched.pipe with bindings := y.sched.pipe.bindings.filter (fun b => b.ctx ≠ c) }
      hot := { y.sched.hot with entries := y.sched.hot.entries.filter (fun e => e.ctx ≠ c) }
      residents := y.sched.residents.filter (fun r => r.ctx ≠ c) }
    mem := { y.mem with
      windows := y.mem.windows.filter (fun w => w.ctx ≠ c)
      inbound := y.mem.inbound.filter (fun i => i.ctx ≠ c)
      huddles := y.mem.huddles.filter (fun k => k.ctx ≠ c) }
    timx := { y.timx with ports := y.timx.ports.zipIdx.map (fun p => { p.1 with
      rxOff := rings false p.2 p.1.rxOff, txOff := rings true p.2 p.1.txOff }) } }

/-- Tears a context down: its in-flight commands end with ST_DISCARDED, every queue's interrupt is raised, what it owns is
released, its queues and pages go, and the client aperture of every core that names it closes (R297, spec/14 R365). -/
def Half.teardown (x : Half) (c : Nat) : Half :=
  let cl := x.ctxClient c
  let y := { x with cores := { x.cores with app := x.cores.app.map (fun (k : AppCore) =>
    if k.nvctx.toNat = c then { k with nvctxValid := false } else k) } }
  let y := y.endCmds (y.cmdsOf c) stDiscarded
  let y := if y.sched.queues.any (fun q => q.ctx = c) then y.queueIrq cl else y
  let y := (y.releaseCtx c).removeTpt (fun t => t.ctx = c)
  { y with sched := { y.sched with
      queues := y.sched.queues.filter (fun q => q.ctx ≠ c)
      ctxs := y.sched.ctxs.filter (fun k => k.id ≠ c) } }

/-- A context fault: the faulting command ends with ST_MALFORMED, its DETAIL1 offset on which the spec is silent a free
value, and the context is torn down (R295, R296). -/
def Half.ctxFault (x : Half) (n : Nat) : Half :=
  match x.cmd n with
  | some c => (x.took.endCmd n stMalformed (Config.freeNat x.seed 16 % 2 ^ 16)).teardown c.ctx
  | none => x

end Sys2Proof.Machine
end

