-- ==== Sys2Proof/Machine/Num.lean ====
section
/-! DEFINITION. Number formats and arithmetic (spec/03_arithmetic_formats.md): exact binary numbers, the element formats, rounding,
out-of-range results, FP32 arithmetic, and the functions that the spec gives only within 2 ulp. -/

namespace Sys2Proof.Machine

/-! ### Numbers -/

/-- A number as a format holds it: NaN, an infinity, or (-1)^neg × mant × 2^exp. -/
inductive Num where
  /-- NaN; signalling and quiet NaNs are not distinguished (R66). -/
  | nan
  /-- An infinity. -/
  | inf (neg : Bool)
  /-- A finite number, with the sign of a zero kept. -/
  | fin (neg : Bool) (mant : Nat) (exp : Int)
  deriving DecidableEq, Repr, Inhabited

/-- An integer as a number. -/
def Num.ofInt (i : Int) : Num := .fin (decide (i < 0)) i.natAbs 0

/-- Plus zero. -/
def Num.zero : Num := .fin false 0 0

/-- One. -/
def Num.one : Num := .fin false 1 0

/-- The number is NaN. -/
def Num.isNan : Num → Bool
  | .nan => true
  | _ => false

/-- The number is finite. -/
def Num.isFin : Num → Bool
  | .fin _ _ _ => true
  | _ => false

/-- The number is a zero of either sign. -/
def Num.isZero : Num → Bool
  | .fin _ 0 _ => true
  | _ => false

/-- The sign. -/
def Num.sign : Num → Bool
  | .nan => false
  | .inf n => n
  | .fin n _ _ => n

/-- The number with the other sign. -/
def Num.neg : Num → Num
  | .nan => .nan
  | .inf n => .inf (!n)
  | .fin n m e => .fin (!n) m e

/-- Multiplies by a power of two, exactly. -/
def Num.scale (k : Int) : Num → Num
  | .fin n m e => .fin n m (e + k)
  | x => x

/-- Signed mantissa. -/
def sgn (n : Bool) (m : Nat) : Int := if n then -(m : Int) else m

/-- The exact sum of two numbers; an exact zero sum is +0 unless both are -0; infinities and NaN follow IEEE 754 (R77). -/
def Num.add : Num → Num → Num
  | .nan, _ => .nan
  | _, .nan => .nan
  | .inf a, .inf b => if a = b then .inf a else .nan
  | .inf a, _ => .inf a
  | _, .inf b => .inf b
  | .fin n1 m1 e1, .fin n2 m2 e2 =>
    let e := min e1 e2
    let v := sgn n1 (m1 * 2 ^ (e1 - e).toNat) + sgn n2 (m2 * 2 ^ (e2 - e).toNat)
    if v = 0 then .fin (n1 && n2 && m1 = 0 && m2 = 0) 0 0 else .fin (decide (v < 0)) v.natAbs e

/-- The exact product of two numbers (R76); zero times infinity is NaN. -/
def Num.mul : Num → Num → Num
  | .nan, _ => .nan
  | _, .nan => .nan
  | .inf a, .inf b => .inf (a != b)
  | .inf a, .fin b m _ => if m = 0 then .nan else .inf (a != b)
  | .fin a m _, .inf b => if m = 0 then .nan else .inf (a != b)
  | .fin n1 m1 e1, .fin n2 m2 e2 => .fin (n1 != n2) (m1 * m2) (e1 + e2)

/-- One number is less than another; false when either is NaN, and zeros are equal. -/
def Num.lt : Num → Num → Bool
  | .nan, _ => false
  | _, .nan => false
  | .inf a, .inf b => a && !b
  | .inf a, _ => a
  | _, .inf b => !b
  | .fin n1 m1 e1, .fin n2 m2 e2 =>
    let e := min e1 e2
    decide (sgn n1 (m1 * 2 ^ (e1 - e).toNat) < sgn n2 (m2 * 2 ^ (e2 - e).toNat))

/-- The integer nearest a fraction m / 2^k, ties to even (R81). -/
def rneShift (m k : Nat) : Nat :=
  let q := m / 2 ^ k
  let r := m % 2 ^ k
  if 2 ^ k < 2 * r || (2 * r = 2 ^ k && q % 2 = 1) then q + 1 else q

/-- m × 2^e as a whole number of units 2^q, to nearest, ties to even. -/
def rneAt (m : Nat) (e q : Int) : Nat :=
  if q ≤ e then m * 2 ^ (e - q).toNat else rneShift m (q - e).toNat

/-- m × 2^e as a whole number of units 2^q with the 16-bit random number r (R82): the top 16 discarded bits, aligned at the
half-unit position, plus r carry into the significand. -/
def srAt (m : Nat) (e q : Int) (r : Nat) : Nat :=
  if q ≤ e then m * 2 ^ (e - q).toNat
  else
    let k := (q - e).toNat
    (m * 2 ^ 16 / 2 ^ k + r % 2 ^ 16) / 2 ^ 16

/-- The exponent of the unit in the last place of m × 2^e in a format of p significand bits whose least exponent is emin. -/
def ulpExp (m : Nat) (e : Int) (p : Nat) (emin : Int) : Int := max ((Nat.log2 m : Int) + e - (p - 1 : Nat)) emin

/-! ### Element formats (R66 to R69) -/

/-- A floating element format: significand bits with the hidden one, bias, largest finite code, and its codes for infinity
and NaN. -/
structure Flt where
  /-- Total bits. -/
  bits : Nat
  /-- Significand bits, hidden one included. -/
  p : Nat
  /-- Exponent bias. -/
  bias : Nat
  /-- Code of the largest finite magnitude. -/
  top : Nat
  /-- Code of infinity, where the format has one. -/
  infCode : Option Nat
  /-- Canonical NaN, where the format has one (R67). -/
  nanCode : Option Nat
  deriving DecidableEq, Repr

/-- FP8 E4M3. -/
def e4m3 : Flt := ⟨8, 4, 7, 0x7E, none, some 0x7F⟩
/-- FP8 E5M2. -/
def e5m2 : Flt := ⟨8, 3, 15, 0x7B, some 0x7C, some 0x7F⟩
/-- The E2M3 elements of MXFP6. -/
def e2m3 : Flt := ⟨6, 4, 1, 0x1F, none, none⟩
/-- The E3M2 elements of MXFP6. -/
def e3m2 : Flt := ⟨6, 3, 3, 0x1F, none, none⟩
/-- The E2M1 elements of MXFP4. -/
def e2m1 : Flt := ⟨4, 2, 1, 0x7, none, none⟩
/-- BF16. -/
def bf16 : Flt := ⟨16, 8, 127, 0x7F7F, some 0x7F80, some 0x7FC0⟩
/-- FP16. -/
def fp16 : Flt := ⟨16, 11, 15, 0x7BFF, some 0x7C00, some 0x7E00⟩
/-- FP32. -/
def fp32 : Flt := ⟨32, 24, 127, 0x7F7FFFFF, some 0x7F800000, some 0x7FC00000⟩

/-- Exponent of the smallest subnormal. -/
def Flt.emin (f : Flt) : Int := 1 - (f.bias : Int) - (f.p - 1 : Nat)

/-- The number that a code stands for: an exponent field of zero denotes zero or a subnormal (R66). -/
def Flt.decode (f : Flt) (c : Nat) : Num :=
  let neg := c / 2 ^ (f.bits - 1) % 2 = 1
  let mag := c % 2 ^ (f.bits - 1)
  if f.top < mag then (if some mag = f.infCode then .inf neg else .nan)
  else
    let field := mag / 2 ^ (f.p - 1)
    let m := mag % 2 ^ (f.p - 1)
    if field = 0 then .fin neg m f.emin else .fin neg (m + 2 ^ (f.p - 1)) (f.emin + (field - 1 : Nat))

/-- The magnitude code of a rounded number r × 2^q, which may exceed the largest finite one. -/
def Flt.code (f : Flt) (r : Nat) (q : Int) : Nat := (q - f.emin).toNat * 2 ^ (f.p - 1) + r

/-- The magnitude code of m × 2^e after rounding, with a random number where SR is set (R81, R82). -/
def Flt.round (f : Flt) (sr : Option Nat) (m : Nat) (e : Int) : Nat :=
  if m = 0 then 0
  else
    let q := ulpExp m e f.p f.emin
    f.code (match sr with
      | some r => srAt m e q r
      | none => rneAt m e q) q

/-- What writing one element counts (R84). -/
inductive Cnt where
  /-- Nothing. -/
  | none
  /-- A NaN read back, or written as 0 in an integer format. -/
  | nan
  /-- A value outside the finite range, written as another value. -/
  | sat
  deriving DecidableEq, Repr

/-- The code of an element in a floating format, with the out-of-range rules (R67, R83). -/
def Flt.encode (f : Flt) (sat : Bool) (sr : Option Nat) (x : Num) : Nat × Cnt :=
  let s := fun (n : Bool) => if n then 2 ^ (f.bits - 1) else 0
  let overdue := fun (n isInf : Bool) =>
    if sat then (s n + f.top, Cnt.sat)
    else match f.infCode with
      | some i => (s n + i, if isInf then Cnt.none else Cnt.sat)
      | none => (f.nanCode.getD 0, Cnt.nan)
  match x with
  | .nan => (f.nanCode.getD 0, .nan)
  | .inf n => overdue n true
  | .fin n m e =>
    let c := f.round sr m e
    if f.top < c then overdue n false else (s n + c, .none)

/-- An integer element format: width and signedness. -/
def intRange (bits : Nat) (signed : Bool) : Int × Int :=
  if signed then (-(2 ^ (bits - 1) : Nat), (2 ^ (bits - 1) : Nat) - 1) else (0, (2 ^ bits : Nat) - 1)

/-- The nearest integer to a finite number, ties to even (R81). -/
def Num.toInt (n : Bool) (m : Nat) (e : Int) : Int := sgn n (rneAt m e 0)

/-- The code of an element in an integer format (R83). -/
def intEncode (bits : Nat) (signed sat : Bool) (x : Num) : Nat × Cnt :=
  let (lo, hi) := intRange bits signed
  match x with
  | .nan => (0, .nan)
  | .inf n => (encInt bits (if n then lo else hi), .sat)
  | .fin n m e =>
    let v := Num.toInt n m e
    if v < lo || hi < v then (encInt bits (if sat then (if v < lo then lo else hi) else v), .sat) else (encInt bits v, .none)

/-- The format codes of Table — Format codes. -/
def formatCodes : List Nat := [0x01, 0x02, 0x03, 0x08, 0x09, 0x0A, 0x0B, 0x0C, 0x0D, 0x0E, 0x10, 0x11, 0x14, 0x18]

/-- Bits of an element. -/
def fmtBits (f : Nat) : Nat :=
  if f = 0x01 || f = 0x0D then 4 else if f = 0x0B || f = 0x0C then 6 else if f = 0x10 || f = 0x11 then 16
  else if f = 0x14 || f = 0x18 then 32 else 8

/-- An MX block format. -/
def isMx (f : Nat) : Bool := 0x0A ≤ f && f ≤ 0x0E

/-- An integer format. -/
def isIntFmt (f : Nat) : Bool := f = 0x01 || f = 0x02 || f = 0x03 || f = 0x18

/-- The element format of a floating code or of the elements of an MX code. -/
def fltOf (f : Nat) : Option Flt :=
  if f = 0x08 || f = 0x0A then some e4m3 else if f = 0x09 then some e5m2 else if f = 0x0B then some e2m3
  else if f = 0x0C then some e3m2 else if f = 0x0D then some e2m1 else if f = 0x10 then some bf16
  else if f = 0x11 then some fp16 else if f = 0x14 then some fp32 else none

/-- The number of an element code without its scale: integers are two's complement but for UINT8; MXINT8 is q × 2^-6 (R66,
R68). -/
def decodeElem (f c : Nat) : Num :=
  match fltOf f with
  | some k => k.decode c
  | none =>
    if f = 0x03 then .ofInt c
    else if f = 0x0E then (Num.ofInt (decInt 8 c)).scale (-6)
    else .ofInt (decInt (fmtBits f) c)

/-- The number of an MX element with its scale byte: 0xFF makes every element NaN (R73). -/
def decodeMx (f c scale : Nat) : Num :=
  if scale = 0xFF then .nan else (decodeElem f c).scale ((scale : Int) - 127)

/-- The code of an element of a format that is not MX (R81 to R83). -/
def encodeElem (f : Nat) (sat : Bool) (sr : Option Nat) (x : Num) : Nat × Cnt :=
  match fltOf f with
  | some k => k.encode sat sr x
  | none => intEncode (fmtBits f) (f ≠ 0x03) sat x

/-! ### MX output blocks (R74) -/

/-- e_max of an MX element format (R74). -/
def mxEmax (f : Nat) : Int := if f = 0x0A then 8 else if f = 0x0B then 2 else if f = 0x0C then 4 else if f = 0x0D then 2 else 0

/-- floor(log2) of the largest magnitude of a list, none when all are zero. -/
def maxLog : List Num → Option Int
  | [] => none
  | x :: l => match x, maxLog l with
    | .fin _ m e, r =>
      if m = 0 then r else some (match r with
        | some k => max k ((Nat.log2 m : Int) + e)
        | none => (Nat.log2 m : Int) + e)
    | _, r => r

/-- An element of an MX block at scale exponent X, always saturated (R68, R74). -/
def mxElem (f : Nat) (x : Int) (v : Num) : Nat × Cnt :=
  if f = 0x0E then
    match v.scale (6 - x) with
    | .fin n m e =>
      let k := Num.toInt n m e
      if k < -127 || 127 < k then (encInt 8 (if k < 0 then -127 else 127), .sat) else (encInt 8 k, .none)
    | _ => (0, .none)
  else match fltOf f with
    | some k => k.encode true none (v.scale (-x))
    | none => (0, .none)

/-- The scale byte and the elements of an MX output block of real values (R74). -/
def mxBlock (f : Nat) (vs : List Num) : Nat × List (Nat × Cnt) :=
  if vs.any (fun v => !v.isFin) then (0xFF, vs.map (fun _ => (0, .nan)))
  else match maxLog vs with
    | none => (0x00, vs.map (fun _ => (0, .none)))
    | some k =>
      let x := max (-127) (min 127 (k - mxEmax f))
      ((x + 127).toNat, vs.map (mxElem f x))

/-! ### FP32 arithmetic (R77) -/

/-- Rounds to FP32; overflow is an infinity. -/
def r32 (x : Num) : Num := fp32.decode (fp32.encode false none x).1

/-- The number of an FP32 code. -/
def f32 (c : Nat) : Num := fp32.decode c

/-- The FP32 code of a number. -/
def f32code (x : Num) : Nat := (fp32.encode false none x).1

/-- FP32 addition. -/
def fadd (a b : Num) : Num := r32 (a.add b)
/-- FP32 subtraction. -/
def fsub (a b : Num) : Num := r32 (a.add b.neg)
/-- FP32 multiplication. -/
def fmul (a b : Num) : Num := r32 (a.mul b)

/-- An FP32 accumulator result that is subnormal becomes a zero of its sign in the MAC array (R77). -/
def flush32 : Num → Num
  | .fin n m e => if m = 0 || -126 ≤ (Nat.log2 m : Int) + e then .fin n m e else .fin n 0 0
  | x => x

/-- The accumulator of the MAC array takes one exact term (R76, R77). -/
def macAdd (acc term : Num) : Num := flush32 (r32 (acc.add term))

/-- The magnitude of a number. -/
def Num.abs : Num → Num
  | .fin _ m e => .fin false m e
  | .inf _ => .inf false
  | .nan => .nan

/-- The unit in the last place of FP32 at the magnitude of m × 2^e. -/
def ulp32 (m : Nat) (e : Int) : Num := .fin false 1 (if m = 0 then -149 else ulpExp m e 24 (-149))

/-- The FP32 number k steps from a code in the order of values: its code, and the value that the code stands for, in which an
infinity stands for ±2^128. -/
def stepFrom (n : Bool) (c : Nat) (k : Int) : Nat × Num :=
  let o : Int := sgn n (c % 2 ^ 31) + k
  let neg := o < 0 || (o = 0 && n)
  let mag := min o.natAbs 0x7F800000
  ((if neg then 2 ^ 31 else 0) + mag, if mag = 0x7F800000 then .fin neg 1 128 else f32 ((if neg then 2 ^ 31 else 0) + mag))

/-- The FP32 codes within 2 ulp of a finite number, from those around the nearest one. -/
def within2 (n : Bool) (m : Nat) (e : Int) : List Nat :=
  let c := f32code (.fin n m e)
  let two := (ulp32 m e).scale 1
  (((List.range 9).map (fun (i : Nat) => stepFrom n c ((i : Int) - 4))).filter (fun p =>
    !(two.lt (p.2.add (Num.fin (!n) m e)).abs))).map (·.1)

/-- An FP32 result that the spec gives only within 2 ulp (R105): a free one of those that lie within the bound; the nearest one,
which may be an infinity, where none does (log 10). -/
def nudge (seed elem : Nat) (x : Num) : Num :=
  match x with
  | .fin n m e =>
    let l := within2 n m e
    f32 ((l[Config.elemNat seed elem 4 % max 1 l.length]?).getD (f32code (.fin n m e)))
  | x => x

/-- The quotient of two finite numbers with 64 bits beyond the significand of FP32, its last bit sticky. -/
def quot (n1 : Bool) (m1 : Nat) (e1 : Int) (n2 : Bool) (m2 : Nat) (e2 : Int) : Num :=
  let k := Nat.log2 m2 + 96
  let q := m1 * 2 ^ k / m2
  .fin (n1 != n2) (2 * q + (if m1 * 2 ^ k % m2 = 0 then 0 else 1)) (e1 - e2 - k - 1)

/-- FP32 division, within 2 ulp (R105). -/
def fdiv (seed elem : Nat) (a b : Num) : Num :=
  match a, b with
  | .nan, _ => .nan
  | _, .nan => .nan
  | .inf _, .inf _ => .nan
  | .inf x, .fin y _ _ => .inf (x != y)
  | .fin x _ _, .inf y => .fin (x != y) 0 0
  | .fin x m1 e1, .fin y m2 e2 =>
    if m2 = 0 then (if m1 = 0 then .nan else .inf (x != y))
    else if m1 = 0 then .fin (x != y) 0 0
    else nudge seed elem (quot x m1 e1 y m2 e2)

/-- Integer square root, bit by bit from the top. -/
def isqrt (n : Nat) : Nat → Nat → Nat
  | 0, r => r
  | k + 1, r => isqrt n k (if (r + 2 ^ k) * (r + 2 ^ k) ≤ n then r + 2 ^ k else r)

/-- FP32 square root, within 2 ulp (log 10). -/
def fsqrt (seed elem : Nat) : Num → Num
  | .nan => .nan
  | .inf n => if n then .nan else .inf false
  | .fin n m e =>
    if m = 0 then .fin n 0 0
    else if n then .nan
    else
      let odd := (e % 2).toNat
      let w := m * 2 ^ (odd + 128)
      nudge seed elem (.fin false (isqrt w (Nat.log2 w + 1) 0) ((e - odd - 128) / 2))

/-! ### Functions within 2 ulp, in fixed point of 192 fraction bits -/

/-- ln 2 in 192 fraction bits. -/
def ln2Fix : Nat := 4350955369971217654477563090224794165364344896676135745069

/-- 2 × sqrt(2/π) in 192 fraction bits. -/
def geluC : Nat := 10016805122507811459578197244997354253072253424553930005347

/-- 0.044715 in 192 fraction bits. -/
def geluA : Nat := 280680604097815430354917324058730803796016823699209303244

/-- Taylor sum of e^r for r in [0, ln 2), from the last of `fuel` terms down. -/
def expTaylor (r : Nat) : Nat → Nat → Nat
  | 0, _ => 2 ^ 192
  | fuel + 1, i => 2 ^ 192 + r * expTaylor r fuel (i + 1) / 2 ^ 192 / i

/-- e^x of a finite number, as a number far more exact than FP32; beyond ±128 any value that FP32 cannot hold. -/
def expNum (n : Bool) (m : Nat) (e : Int) : Num :=
  if m ≠ 0 && 7 ≤ (Nat.log2 m : Int) + e then .fin false 1 (if n then -400 else 400)
  else
    let v : Int := sgn n (if -192 ≤ e then m * 2 ^ (e + 192).toNat else m / 2 ^ (-192 - e).toNat)
    let k := v / (ln2Fix : Int)
    .fin false (expTaylor (v - k * ln2Fix).toNat 50 1) (k - 192)

/-- 1 / (1 + e^-x) of a finite number. -/
def sigmoidNum (n : Bool) (m : Nat) (e : Int) : Num :=
  match expNum true m e with
  | .fin _ t k =>
    let one : Num := .fin false 1 0
    let den := one.add (.fin false t k)
    match den, (if n then Num.fin false t k else one) with
    | .fin _ dm de, .fin _ nm ne => quot false nm ne false dm de
    | _, _ => .nan
  | _ => .nan

/-- tanh of a finite number: x itself where it is tiny, else 2 × sigmoid(2|x|) - 1 with the sign of x. -/
def tanhNum (n : Bool) (m : Nat) (e : Int) : Num :=
  if m = 0 || (Nat.log2 m : Int) + e < -20 then .fin n m e
  else match expNum true m (e + 1) with
    | .fin _ t k =>
      match (Num.fin false 1 0).add (.fin true t k), (Num.fin false 1 0).add (.fin false t k) with
      | .fin _ nm ne, .fin _ dm de => quot n nm ne false dm de
      | _, _ => .nan
    | _ => .nan

/-- The tanh form of GELU of a finite number: x × sigmoid(2 sqrt(2/π) (x + 0.044715 x³)). -/
def geluNum (n : Bool) (m : Nat) (e : Int) : Num :=
  let x : Num := .fin n m e
  let u := (Num.fin false geluC (-192)).mul (x.add ((Num.fin false geluA (-192)).mul (x.mul (x.mul x))))
  match u with
  | .fin a b c => x.mul (sigmoidNum a b c)
  | y => y

/-- FUNC 0x10 to 0x15: RELU, GELU, SILU, SIGMOID, TANH, EXP, the last five within 2 ulp of FP32 (Table — Functions, R105). The
sign of RELU's zero for -0, and whether RELU keeps a NaN, are not stated and free. -/
def activate (seed elem func : Nat) (x : Num) : Num :=
  if func = 0x10 then
    match x with
    | .nan => if Config.elemNat seed elem 1 % 2 = 1 then .nan else .zero
    | .inf n => if n then .zero else .inf false
    | .fin n m e => if m = 0 then .fin (n && Config.elemNat seed elem 1 % 2 = 1) 0 0 else if n then .zero else .fin n m e
  else if func < 0x11 || 0x15 < func then x
  else match x with
    | .nan => .nan
    | .inf n =>
      if func = 0x11 || func = 0x12 then (if n then .fin true 0 0 else .inf false)
      else if func = 0x13 then (if n then .zero else .one)
      else if func = 0x14 then .fin n 1 0
      else if n then .zero else .inf false
    | .fin n m e =>
      nudge seed elem (if func = 0x11 then geluNum n m e
        else if func = 0x12 then x.mul (sigmoidNum n m e)
        else if func = 0x13 then sigmoidNum n m e
        else if func = 0x14 then tanhNum n m e
        else expNum n m e)

/-- EXP of a number within 2 ulp. -/
def fexp (seed elem : Nat) (x : Num) : Num := activate seed elem 0x15 x

/-- The larger of two numbers; with a NaN operand, or between zeros of both signs, either operand (the spec states neither). -/
def fmax (seed elem : Nat) (a b : Num) : Num :=
  if a.isNan || b.isNan then
    (if a.isNan && b.isNan then .nan else if Config.elemNat seed elem 1 % 2 = 1 then .nan else if a.isNan then b else a)
  else if a.lt b then b else if b.lt a then a
  else if Config.elemNat seed elem 1 % 2 = 1 then a else b

/-- The smaller of two numbers, likewise. -/
def fmin (seed elem : Nat) (a b : Num) : Num := (fmax seed elem a.neg b.neg).neg

/-- α × x + β × y in FP32: whether the multiply-add is fused, and which product it takes in, is not stated. -/
def axpby (seed elem : Nat) (α x β y : Num) : Num :=
  match Config.elemNat seed elem 2 % 3 with
  | 0 => fadd (fmul α x) (fmul β y)
  | 1 => r32 ((α.mul x).add (fmul β y))
  | _ => r32 ((fmul α x).add (β.mul y))

/-! ### Accumulation (R78, R79) -/

/-- Inserts a term by its place in the free order. -/
def insertKey (k : Nat) (a : Num) : List (Nat × Num) → List (Nat × Num)
  | [] => [(k, a)]
  | (j, b) :: l => if k < j then (k, a) :: (j, b) :: l else (j, b) :: insertKey k a l

/-- The terms in the order in which the accumulator takes them, which is not specified (R79; log 8). -/
def anyOrder (seed elem : Nat) (l : List Num) : List Num :=
  ((l.zipIdx).foldl (fun acc p => insertKey (Config.orderKey seed elem p.2) p.1 acc) []).map (·.2)

/-- FP32 sum on the vector unit, which keeps subnormals (R77). -/
def fsum (seed elem : Nat) (l : List Num) : Num := (anyOrder seed elem l).foldl fadd .zero

/-- FP32 sum of exact terms in the MAC array. -/
def macSum (seed elem : Nat) (l : List Num) : Num := (anyOrder seed elem l).foldl macAdd .zero

/-- The integer that a number of an integer format is. -/
def Num.int : Num → Int
  | .fin n m e => Num.toInt n m e
  | _ => 0

/-- An INT32 addition with clamping; the flag says whether it saturated (R78). -/
def satAdd (a b : Int) : Int × Bool :=
  let v := a + b
  if v < -2147483648 then (-2147483648, true) else if 2147483647 < v then (2147483647, true) else (v, false)

/-- INT32 accumulation and its number of saturations (R78). -/
def isum (seed elem : Nat) (l : List Num) : Int × Nat :=
  (anyOrder seed elem l).foldl (fun a x =>
    let r := satAdd a.1 x.int
    (r.1, if r.2 then a.2 + 1 else a.2)) (0, 0)

end Sys2Proof.Machine
end

