-- ==== Sys2Proof/Machine/Remote.lean ====
section
/-! DEFINITION. What crosses a link and is answered: the start of COPY_OUT and SIGNAL_REMOTE, what the far side does with them,
and the answer (spec/11_scheduling_and_sync.md R309 to R311, spec/12_memory_system.md R339, R340). -/

namespace Sys2Proof.Machine

/-- Bytes in units of 64; how a part unit counts is free (spec/04 R99, spec/12 R337; log 10). -/
def units64 (seed n : Nat) : Nat := if n % 64 = 0 then n / 64 else n / 64 + Config.freeNat seed 1 % 2

/-- Cycles that a command took: a free 32-bit count (log 10). -/
def cyclesOf (x : Half) : Nat := Config.freeNat x.seed 32 % 2 ^ 32

/-- The descriptor's LINK bit of a copy command, or of a sync command: the Tether. -/
def dTether (d : Desc) : Bool := if dUnit d = 8 then db d 0x49 0 else db d 0x3D 0

/-- Ends a command that was started and cannot cross its link. -/
def Half.endRemote (x : Half) (n st retry : Nat) : Half :=
  match x.cmd n with
  | some c => (x.took.record c st (x.attempt c) retry).settle
  | none => x

/-- A started COPY_OUT or SIGNAL_REMOTE goes out on its link: a retraining link answers ST_BUSY, a far side that is lost, off or
not admitted ST_DISCARDED (Table — Remote copy outcomes, Table — Remote signal outcomes, spec/17 R434). -/
def State.sendStarted (s : State) (h : HalfId) (n : Nat) (msg : Half → Cmd → LinkMsg) : State :=
  let x := s.half h
  match x.cmd n with
  | none => s
  | some c =>
    if c.st ≠ .running then s
    else
      let tether := dTether c.desc
      let l := x.link (if tether then tetherLink else handoffLink)
      let far := if tether then x.ptn.admitted else (s.half (other h)).alive
      if l.st = .retraining then s.setHalf h (x.endRemote n stBusy 100000)
      else if !l.works || !far then s.setHalf h (x.endRemote n stDiscarded 0)
      else
        let y := x.modCmd n (fun k => { k with st := .sent })
        s.setHalf h (if tether then y else y.send (msg x c))

/-- The class 0x07 violation of a refused remote transaction, from the other half or from the Tether peer (spec/17 R426); a refused
transaction of the Tether interrupts (spec/14 R374). -/
def Half.remoteVio (x : Half) (tether : Bool) (code st num : Nat) : Half :=
  let y := x.violate (if tether then .partner 11 else .half) 0x07 code 2 st num
  if tether then y.announce 78 else y

/-- CODE of a source or link that is not the bound one; the source goes first (spec/17 R426). -/
def mismatchCode (srcOk : Bool) : Nat := if srcOk then 4 else 3

/-- A Tether inbound transaction is refused while the peer is quarantined (spec/17 R426). -/
def Half.tetherRefused (x : Half) (tether : Bool) : Bool := tether && (x.partner 11).st = .quarantined

/-- The far side's treatment of a copy: the window, the source, the link, the rows, the staging space and the blocks it would
merge with; on ST_OK every byte becomes visible in one step (R340). Answers the state, the status and RETRY_AFTER. -/
def Half.farCopy (x : Half) (tether : Bool) (client window : Nat) (rows : List (Nat × List Byte)) : Half × Nat × Nat :=
  if x.tetherRefused tether then (x.announce 78, stDenied, 0)
  else match x.mem.windows.find? (fun w => w.num = window) with
  | none => (x.remoteVio tether 1 stMalformed window, stMalformed, 0)
  | some w =>
    let ws := rows.flatMap (fun r => r.2.zipIdx.map (fun b => (w.va + r.1 + b.2, b.1)))
    if w.src ≠ client || w.tether ≠ tether then
      (x.remoteVio tether (mismatchCode (w.src = client)) stDenied window, stDenied, 0)
    else if rows.any (fun r => w.bytes < r.1 + r.2.length) then (x.remoteVio tether 1 stMalformed window, stMalformed, 0)
    else if x.stagingPool < x.stagingUsed + ws.length then (x, stBusy, 1000)
    else match x.partBad w.ctx ws with
      | some va =>
        let loc := match x.blockAt w.ctx va with
          | some (st, f, b) => x.dramLoc st f b
          | none => 0
        (x.memErr 0x02 0 loc (some (w.ctx, va)), stDataLost, 0)
      | none => ((x.commitBytes w.ctx ws).settle, stOk, 0)

/-- The far side's treatment of a signal (R311, R313): the slot, its source and link, and the word or huddle behind it. -/
def Half.farSignal (x : Half) (tether : Bool) (client slot : Nat) (v : BitVec 64) : Half × Nat × Nat :=
  if x.tetherRefused tether then (x.announce 78, stDenied, 0)
  else match x.mem.inbound.find? (fun i => i.num = slot) with
  | none => (x.remoteVio tether 2 stMalformed slot, stMalformed, 0)
  | some i =>
    if i.src ≠ client || i.tether ≠ tether then
      (x.remoteVio tether (mismatchCode (i.src = client)) stDenied slot, stDenied, 0)
    else match i.target with
      | .word va => if (x.wordAt i.ctx va).full then (x, stBusy, 100) else ((x.fillWord i.ctx va v).settle, stOk, 0)
      | .huddle key =>
        let bit := if tether then 44 else 43
        if x.mem.huddles.any (fun k => k.ctx = i.ctx && k.key = key) then
          ((x.applyEff (.arrive i.ctx key bit)).settle, stOk, 0)
        else (x, stBusy, 100)

/-- The sender learns that the far side has committed (R340). -/
def Half.markFar (x : Half) (n : Nat) (st : Nat) : Half :=
  if st = stOk then x.modCmd n (fun c => { c with farDone := true }) else x

/-- The far side serves the first copy that waits on the Handoff link and answers it (R340). -/
def State.serveCopy (s : State) (h : HalfId) : State :=
  let o := s.half (other h)
  match o.takeOut (fun m => match m with
      | .copy cmd cl w rows => some (cmd, cl, w, rows)
      | _ => none) with
  | none => s
  | some ((cmd, cl, w, rows), rest) =>
    if !((s.half h).alive && (s.half h).handoffUp) then s
    else
      let (y, st, retry) := (s.half h).farCopy false cl w rows
      let o := ({ o with links := { o.links with outbox := rest } } : Half).markFar cmd st
      (s.setHalf (other h) o).setHalf h (y.send (.answer cmd st retry))

/-- The far side serves the first signal that waits on the Handoff link and answers it (R311). -/
def State.serveSignal (s : State) (h : HalfId) : State :=
  let o := s.half (other h)
  match o.takeOut (fun m => match m with
      | .signal cmd cl sl v => some (cmd, cl, sl, v)
      | _ => none) with
  | none => s
  | some ((cmd, cl, sl, v), rest) =>
    if !((s.half h).alive && (s.half h).handoffUp) then s
    else
      let (y, st, retry) := (s.half h).farSignal false cl sl v
      let o := ({ o with links := { o.links with outbox := rest } } : Half).markFar cmd st
      (s.setHalf (other h) o).setHalf h (y.send (.answer cmd st retry))

/-- REMOTE_COPY_RECEIVE: over the Handoff link, or over the Tether with the copy that arrives (R340). -/
def execRemoteCopyReceive (h : HalfId) (tether : Option RemoteCopy) (s : State) : Host.Outcome State Fault Refusal :=
  .next (match tether with
    | none => s.serveCopy h
    | some r => s.mod h (fun x => if x.alive && x.ptn.admitted then (x.farCopy true r.client r.window r.rows).1 else x))

/-- REMOTE_SIGNAL_RECEIVE: over the Handoff link, or over the Tether with the signal that arrives (R311). -/
def execRemoteSignalReceive (h : HalfId) (tether : Option RemoteSignal) (s : State) : Host.Outcome State Fault Refusal :=
  .next (match tether with
    | none => s.serveSignal h
    | some r => s.mod h (fun x => if x.alive && x.ptn.admitted then (x.farSignal true r.client r.slot r.value).1 else x))

/-- The statuses with which a far side answers a copy or a signal (Table — Remote copy outcomes, Table — Remote signal outcomes): no
other is an answer (spec/00_scope.md R8). -/
def answerCodes : List Nat := [stOk, stDiscarded, stDataLost, stMalformed, stDenied, stBusy]

/-- The sender takes an answer (R311, R340): ST_OK commits with its POST_OP; ST_BUSY carries RETRY_AFTER; ST_MALFORMED names
WINDOW or KEY (log 24); an uncorrectable far block discards nothing on this side. -/
def Half.takeAnswer (x : Half) (n st retry : Nat) : Half :=
  match x.cmd n with
  | none => x
  | some c =>
    if c.st ≠ .sent || st ∉ answerCodes then x
    else if st = stOk then (x.tryCommit n).settle
    else
      let det1 := if st = stBusy then max 100 retry else if st = stMalformed then (if dUnit c.desc = 8 then 0x48 else 0x38) else 0
      (x.took.record c st (x.attempt c) det1).settle

/-- REMOTE_ANSWER_RECEIVE: the first answer that waits on the Handoff link, or one that arrives over the Tether (R311, R340). -/
def execRemoteAnswerReceive (h : HalfId) (tether : Option RemoteAnswer) (s : State) : Host.Outcome State Fault Refusal :=
  .next (match tether with
    | some r => s.mod h (fun x => match x.cmd r.cmd with
      | some c => if dTether c.desc then x.takeAnswer r.cmd r.status r.retry else x
      | none => x)
    | none =>
      let o := s.half (other h)
      match o.takeOut (fun m => match m with
          | .answer cmd st retry => some (cmd, st, retry)
          | _ => none) with
      | none => s
      | some ((cmd, st, retry), rest) =>
        if !((s.half h).handoffUp) then s
        else (s.setHalf (other h) { o with links := { o.links with outbox := rest } }).mod h (fun x => x.takeAnswer cmd st retry))

end Sys2Proof.Machine
end

