-- ==== Sys2Proof/Machine/Tensor.lean ====
section
/-! DEFINITION. Tensors in memory: the tensor descriptor, layouts and planes, the checks of an operand, reading an operand and
staging an output (spec/03_arithmetic_formats.md, spec/04_tensor_engines.md, spec/05_convolution_path.md). -/

namespace Sys2Proof.Machine

/-! ### The tensor descriptor (spec/04_tensor_engines.md R92) -/

/-- A tensor descriptor as read from memory; `raw` are its 64 bytes. -/
structure TD where
  /-- The 64 bytes. -/
  raw : BitVec 512 := 0
  /-- Extents of dimensions 0 to 5; those at or above NDIMS are 1. -/
  ext : List Nat := [1, 1, 1, 1, 1, 1]
  /-- Element strides of dimensions 0 to 5. -/
  str : List Nat := [0, 0, 0, 0, 0, 0]
  deriving DecidableEq, Repr

/-- BASE_VA. -/
def TD.base (t : TD) : Nat := fld t.raw 0 48
/-- FORMAT. -/
def TD.fmt (t : TD) : Nat := fld t.raw 48 8
/-- LAYOUT. -/
def TD.layout (t : TD) : Nat := fld t.raw 56 4
/-- NDIMS. -/
def TD.nd (t : TD) : Nat := fld t.raw 64 8
/-- OUT_CTRL. -/
def TD.outCtrl (t : TD) : Nat := fld t.raw 72 8
/-- SPARSE24. -/
def TD.sparse (t : TD) : Bool := bitAt t.raw 80
/-- Extent of dimension i. -/
def TD.e (t : TD) (i : Nat) : Nat := t.ext[i]?.getD 1
/-- Stride of dimension i. -/
def TD.s (t : TD) (i : Nat) : Nat := t.str[i]?.getD 0

/-- The descriptor that 64 bytes are; dimensions at or above NDIMS have extent 1 (R92). -/
def tdOf (raw : BitVec 512) : TD :=
  let nd := fld raw 64 8
  { raw := raw
    ext := (List.range 6).map (fun i => if i < nd then fld raw (128 + 64 * i) 32 else 1)
    str := (List.range 6).map (fun i => if i < nd then fld raw (160 + 64 * i) 32 else 0) }

/-- The descriptor whose 64 bytes lie at an address. -/
def Half.tdesc (x : Half) (ctx va : Nat) : TD := tdOf (BitVec.ofNat 512 (x.vnat ctx va 64))

/-- Channel lanes of a blocked layout, 1 for the others (spec/05 R126). -/
def TD.lanes (t : TD) : Nat := if t.layout = 1 then 16 else if t.layout = 2 then 32 else 1

/-- Layout NC16HW or NC32HW. -/
def TD.blocked (t : TD) : Bool := t.layout = 1 || t.layout = 2

/-- The dimension along which MX blocks and padding run: channels of a blocked layout, dimension 0 of the others (spec/03
R70). -/
def TD.axis (t : TD) : Nat := if t.blocked then 2 else 0

/-- Every index of a box of extents, dimension 0 fastest. -/
def boxIdx : List Nat → List (List Nat)
  | [] => [[]]
  | e :: es => (boxIdx es).flatMap (fun t => (List.range e).map (fun i => i :: t))

/-- The indices of the tensor's elements. -/
def TD.indices (t : TD) : List (List Nat) := boxIdx t.ext

/-- Component i of an index. -/
def at' (idx : List Nat) (i : Nat) : Nat := idx[i]?.getD 0

/-- Sum of index times a per-dimension step, over dimensions `lo` and up. -/
def dotFrom (lo : Nat) (idx : List Nat) (step : Nat → Nat) : Nat :=
  (List.range 6).foldl (fun a i => if lo ≤ i then a + at' idx i * step i else a) 0

/-- Element offset from BASE_VA (R92, spec/05 R126). -/
def TD.off (t : TD) (idx : List Nat) : Nat :=
  if t.blocked then
    at' idx 3 * t.s 3 + at' idx 2 / t.lanes * t.s 2 + at' idx 1 * t.s 1 + at' idx 0 * t.s 0 + at' idx 2 % t.lanes
  else dotFrom 0 idx t.s

/-- Stored values of one MX block: 32, or 16 with 2:4 sparsity (spec/03 R70, R85). -/
def TD.unit (t : TD) : Nat := if t.sparse then 16 else 32

/-- Scale-plane offset of the block that holds an element (spec/03 R71), also of a 2:4 sparse operand (R85). -/
def TD.scaleOff (t : TD) (idx : List Nat) : Nat :=
  if t.blocked then t.off (idx.set 2 (at' idx 2 / 32 * 32)) / 32
  else at' idx 0 / 32 + dotFrom 1 idx (fun i => cdiv (t.s i) 32)

/-- Extents with the padding that the tensor stores: lanes of the last channel group, elements of a partial MX block; a 2:4
sparse tensor stores half the values along dimension 0 (spec/03 R71, R72, R85, spec/05 R128). -/
def TD.stored (t : TD) : List Nat :=
  if t.blocked then t.ext.set 2 (cdiv (t.e 2) t.lanes * t.lanes)
  else
    let n := if t.sparse then t.e 0 / 2 else t.e 0
    t.ext.set 0 (if isMx t.fmt then cdiv n t.unit * t.unit else n)

/-- The largest element offset that the tensor stores. -/
def TD.lastOff (t : TD) : Nat := t.off (t.stored.map (fun e => e - 1))

/-- Bytes of the element data. -/
def TD.dataBytes (t : TD) : Nat := cdiv ((t.lastOff + 1) * fmtBits t.fmt) 8

/-- The lowest 4 KiB-aligned address above a byte. -/
def above (last : Nat) : Nat := (last / 4096 + 1) * 4096

/-- Where the scale plane begins (spec/03 R71). -/
def TD.scaleVa (t : TD) : Nat := above (t.base + t.dataBytes - 1)

/-- Bytes of the scale plane. -/
def TD.scaleBytes (t : TD) : Nat := if isMx t.fmt then t.scaleOff (t.ext.map (fun e => e - 1)) + 1 else 0

/-- Group number, in the metadata plane, of the group of four that holds an element: outer strides count stored values, two for
each group (spec/03 R85; log 8). -/
def TD.groupOff (t : TD) (idx : List Nat) : Nat := at' idx 0 / 4 * t.s 0 + dotFrom 1 idx (fun i => cdiv (t.s i) 2)

/-- Where the metadata plane begins (spec/03 R85). -/
def TD.metaVa (t : TD) : Nat :=
  if isMx t.fmt then above (t.scaleVa + t.scaleBytes - 1) else above (t.base + t.dataBytes - 1)

/-- Bytes of the metadata plane. -/
def TD.metaBytes (t : TD) : Nat := if t.sparse then cdiv (t.groupOff (t.ext.map (fun e => e - 1)) + 1) 2 else 0

/-- The planes of the tensor: base and length (R96). -/
def TD.planes (t : TD) : List (Nat × Nat) :=
  [(t.base, t.dataBytes)] ++ (if isMx t.fmt then [(t.scaleVa, t.scaleBytes)] else []) ++
    (if t.sparse then [(t.metaVa, t.metaBytes)] else [])

/-- The footprint in bytes, scale and metadata planes included (R107). That each plane counts whole, with the gaps that its strides
leave, is the model's choice (log 86). -/
def TD.foot (t : TD) : Nat := (t.planes.map (·.2)).sum

/-- The tensor is empty (R93, R11). -/
def TD.empty (t : TD) : Bool := t.nd = 0 || t.ext.any (fun e => e = 0)

/-- Format, layout and dimensions are such that the tensor's places are defined. -/
def TD.sane (t : TD) : Bool :=
  formatCodes.contains t.fmt && t.layout ≤ 4 && t.layout ≠ 3 && t.nd ≤ 6 && !t.empty && (!t.blocked || t.nd = 4)

/-- The dimensions of an output in the order in which its overlap is judged: a stride's dimension, and its stored extent. -/
def TD.overlapAt (t : TD) : Option Nat :=
  let full := t.stored
  (List.range 6).find? (fun i =>
    let part := (List.range 6).map (fun j => if j ≤ i || (t.blocked && j = 2 && i < 2) then full[j]?.getD 1 else 1)
    let part := if t.blocked && i < 2 then part.set 2 (min t.lanes (part[2]?.getD 1)) else part
    !decide (((boxIdx part).map t.off).Nodup))

/-- Two MX blocks that hold different elements share a scale byte (spec/03 R71): the first dimension at which they do. -/
def TD.scaleClash (t : TD) : Option Nat :=
  if t.blocked then none
  else (List.range 6).find? (fun i =>
    let part := (List.range 6).map (fun j => if j = 0 then cdiv (t.e 0) 32 else if j ≤ i then t.e j else 1)
    let blocks := (boxIdx part).map (fun o => (t.scaleOff (o.set 0 (32 * at' o 0)), at' o 0 * t.unit + dotFrom 1 o t.s))
    blocks.any (fun a => blocks.any (fun b => a.1 = b.1 && a.2 ≠ b.2)))

/-- Formats of layout NC16HW (spec/05 R129). -/
def nc16Formats : List Nat := [0x02, 0x03, 0x08, 0x09, 0x10, 0x11, 0x14, 0x18]

/-! ### Checks of one operand -/

/-- A stride of dimension i, as an offset in the descriptor. -/
def strideOff (i : Nat) : Nat := 0x14 + 8 * i

/-- The checks of a tensor descriptor, with offsets from `b` = 0x100 × k (R66, R69, R71, R80, R86, R92 to R98, spec/05 R127,
R129). A zero stride of an output along an extent above 1 is refused whatever the other extents are (R12, R94). -/
def TD.checks (t : TD) (x : Half) (ctx b : Nat) (out : Bool) : List Chk :=
  let known := formatCodes.contains t.fmt
  let mal := fun (bad : Bool) (o : Nat) => ({ bad := bad, st := stMalformed, off := b + o } : Chk)
  [mal (!known) 0x06, mal (decide (4 < t.layout)) 0x07, mal (decide (fld t.raw 60 4 ≠ 0)) 0x07,
   { bad := decide (6 < t.nd), st := stLimit, off := b + 0x08 },
   { bad := t.empty, st := stEmpty },
   mal (decide (fld t.raw 81 7 ≠ 0)) 0x0A, mal (decide (fld t.raw 88 40 ≠ 0)) 0x0B,
   mal (if out then decide (t.outCtrl / 4 ≠ 0) else decide (t.outCtrl ≠ 0)) 0x09,
   { bad := out && known && t.outCtrl / 2 % 2 = 1 && !(t.fmt = 0x08 || t.fmt = 0x09 || t.fmt = 0x10), st := stUnsupported },
   mal (known && 16 ≤ fmtBits t.fmt && decide (t.base % (fmtBits t.fmt / 8) ≠ 0)) 0x00,
   mal (t.sparse && decide (t.e 0 % 4 ≠ 0)) 0x10,
   mal (known && isMx t.fmt && (t.layout = 0 || t.layout = 4) && decide (1 ≤ t.nd) && decide (t.s 0 ≠ 1)) 0x14,
   { bad := t.layout = 1 && known && !(nc16Formats.contains t.fmt), st := stUnsupported },
   mal (t.blocked && decide (t.nd ≠ 4)) 0x08, mal (t.blocked && decide (t.base % 64 ≠ 0)) 0x00,
   mal (t.blocked && decide (t.s 0 ≠ t.lanes)) 0x14] ++
  ((List.range 6).map (fun i => mal (out && decide (i < t.nd) && decide (t.s i = 0) && decide (1 < t.e i)) (strideOff i))) ++
  ((List.range 6).drop 1).map (fun i =>
    mal (decide (i < t.nd) && ((t.blocked && (decide (t.s i % t.lanes ≠ 0) || (decide (t.s i = 0) && decide (i < 3)))) ||
      (!t.blocked && known && fmtBits t.fmt = 4 && decide (t.s i % 2 ≠ 0)) ||
      (!t.blocked && known && fmtBits t.fmt = 6 && decide (t.s i % 4 ≠ 0)))) (strideOff i)) ++
  (if t.sane then
    [mal (if out then !(t.planes.all (fun p => x.writable ctx p.1 p.2)) else !(t.planes.all (fun p => x.mapped ctx p.1 p.2))) 0x00] ++
    (match (if isMx t.fmt then t.scaleClash else none) with
      | some i => [mal true (strideOff i)]
      | none => []) ++
    (match (if out then t.overlapAt else none) with
      | some i => [mal true (strideOff i)]
      | none => [])
   else [])

/-- The address of a descriptor in a command's body is usable: 48 bits, 64-byte aligned, its descriptor mapped (R98). -/
def descAddrOk (x : Half) (c : Cmd) (off : Nat) : Bool :=
  let va := df c.desc off 64
  va < vaLimit && va % 64 = 0 && x.mapped c.ctx va 64

/-- The checks of an operand k whose descriptor address is at `off` of the body; `lays` are the layouts that the operation
accepts (R95, R98). -/
def operandChecks (x : Half) (c : Cmd) (off k : Nat) (out : Bool) (lays : List Nat) : List Chk :=
  if descAddrOk x c off then
    let t := x.tdesc c.ctx (df c.desc off 64)
    t.checks x c.ctx (0x100 * k) out ++
      [{ bad := decide (t.layout ≤ 4) && !(lays.contains t.layout), st := stUnsupported }]
  else [{ bad := true, st := stMalformed, off := off }]

/-- The operand, when its address is usable. -/
def operand (x : Half) (c : Cmd) (off : Nat) : TD := x.tdesc c.ctx (df c.desc off 64)

/-- A mismatch of an operand's extents with those wanted, named at the first that differs (R102, R106). Which of two operands that
disagree is named is the model's choice: k is B, D or DST against A, an input against DST, and DST for REDUCE; and an operand with NDIMS 0
has no extent that could disagree (R93; log 86). -/
def extentChecks (k : Nat) (t : TD) (want : List Nat) : List Chk :=
  (List.range 6).map (fun i =>
    { bad := decide (t.nd ≠ 0) && decide (t.e i ≠ want[i]?.getD 1), st := stMalformed, off := 0x100 * k + 0x10 + 8 * i })

/-- The output footprint limit, named at the output's address field (R98, R107). -/
def footCheck (t : TD) (off : Nat) : Chk := { bad := t.sane && decide (64000000 < t.foot), st := stLimit, off := off }

/-! ### Reading -/

/-- The code of an element of `bits` bits at an element offset, packed as R69 gives (spec/03). -/
def Half.elemCode (x : Half) (ctx base off bits : Nat) : Nat :=
  let b := off * bits
  x.vnat ctx (base + b / 8) 4 / 2 ^ (b % 8) % 2 ^ bits

/-- The bytes that an element occupies. -/
def elemRange (base off bits : Nat) : Nat × Nat := (base + off * bits / 8, (off * bits + bits - 1) / 8 + 1 - off * bits / 8)

/-- The scale byte of the block that holds an element. -/
def TD.scaleAt (t : TD) (x : Half) (ctx : Nat) (idx : List Nat) : Nat := (x.vbyte ctx (t.scaleVa + t.scaleOff idx)).toNat

/-- The metadata nibble of the group that holds an element of a sparse operand (spec/03 R85). -/
def TD.nibble (t : TD) (x : Half) (ctx : Nat) (idx : List Nat) : Nat := x.elemCode ctx t.metaVa (t.groupOff idx) 4

/-- Offset of the stored value of a sparse element, or none where it is one of the group's two zeros (spec/03 R85). -/
def TD.sparseOff (t : TD) (x : Half) (ctx : Nat) (idx : List Nat) : Option Nat :=
  let g := at' idx 0 / 4
  let nib := t.nibble x ctx idx
  let slot := fun j => t.off (idx.set 0 (2 * g + j))
  if nib % 4 = at' idx 0 % 4 then some (slot 0) else if nib / 4 = at' idx 0 % 4 then some (slot 1) else none

/-- The element of an operand at an index, as a number (spec/03 R66 to R73, R85). -/
def TD.get (t : TD) (x : Half) (ctx : Nat) (idx : List Nat) : Num :=
  let num := fun off =>
    let c := x.elemCode ctx t.base off (fmtBits t.fmt)
    if isMx t.fmt then decodeMx t.fmt c (t.scaleAt x ctx idx) else decodeElem t.fmt c
  if t.sparse then
    match t.sparseOff x ctx idx with
    | some o => num o
    | none => if isMx t.fmt && t.scaleAt x ctx idx = 0xFF then .nan else .zero
  else num (t.off idx)

/-- A nibble with IDX0 ≥ IDX1 stands in a sparse operand (spec/03 R86). -/
def TD.badNibble (t : TD) (x : Half) (ctx : Nat) : Bool :=
  t.sparse && t.indices.any (fun idx => let n := t.nibble x ctx idx; decide (n / 4 ≤ n % 4))

/-- The byte ranges that reading the elements at some indices reads, scales and metadata included. -/
def TD.readsAt (t : TD) (x : Half) (ctx : Nat) (l : List (List Nat)) : List (Nat × Nat) :=
  l.flatMap (fun idx =>
    (if t.sparse then
      [elemRange t.metaVa (t.groupOff idx) 4] ++ (match t.sparseOff x ctx idx with
        | some o => [elemRange t.base o (fmtBits t.fmt)]
        | none => [])
     else [elemRange t.base (t.off idx) (fmtBits t.fmt)]) ++
    (if isMx t.fmt then [(t.scaleVa + t.scaleOff idx, 1)] else []))

/-- The byte ranges that reading a whole operand reads. -/
def TD.reads (t : TD) (x : Half) (ctx : Nat) : List (Nat × Nat) := t.readsAt x ctx t.indices

/-! ### Writing -/

/-- Bytes that hold elements of fewer than 8 bits, merged with what stands around them (spec/03 R69). -/
def packBits (x : Half) (ctx base bits : Nat) (l : List (Nat × Nat)) : List (Nat × Byte) :=
  let places := (l.flatMap (fun p => (List.range ((p.1 * bits + bits - 1) / 8 + 1 - p.1 * bits / 8)).map
    (fun i => p.1 * bits / 8 + i))).eraseDups
  places.map (fun b => (base + b,
    (List.range 8).foldl (fun (acc : Byte) i =>
      let pos := 8 * b + i
      let v := match l.find? (fun p => p.1 = pos / bits) with
        | some p => p.2.testBit (pos % bits)
        | none => (x.vbyte ctx (base + b)).getLsbD i
      if v then acc ||| (1#8 <<< i) else acc) 0))

/-- Bytes of element codes at element offsets from a base. -/
def packElems (x : Half) (ctx base bits : Nat) (l : List (Nat × Nat)) : List (Nat × Byte) :=
  if bits < 8 then packBits x ctx base bits l
  else l.flatMap (fun p => (leBytes (bits / 8) p.2).zipIdx.map (fun q => (base + p.1 * (bits / 8) + q.2, q.1)))

/-- An element to write: its number, and whether its accumulator saturated (spec/03 R84). -/
abbrev Out := Num × Bool

/-- Counts of R84 for the elements written. An element counts once. -/
def counts (l : List (Cnt × Bool)) : Nat :=
  let nan := (l.filter (fun p => p.1 = .nan)).length
  let sat := (l.filter (fun p => p.1 ≠ .nan && (p.1 = .sat || p.2))).length
  min nan 0xFFFF * 65536 + min sat 0xFFFF

/-- The bytes of an output and its counts: `val` gives each element's number by its place in the order of indices. Padding is
written as zero (spec/03 R72, R74, R80 to R84, spec/05 R128). -/
def TD.write (t : TD) (x : Half) (ctx : Nat) (val : Nat → List Nat → Out) : List (Nat × Byte) × Nat :=
  let bits := fmtBits t.fmt
  let sat := t.outCtrl % 2 = 1
  let sr := fun i => if t.outCtrl / 2 % 2 = 1 then some (Config.elemNat x.seed i 16 % 65536) else none
  let vals := t.indices.zipIdx.map (fun p => (p.1, val p.2 p.1, p.2))
  let ax := t.axis
  let padding := ((boxIdx t.stored).filter (fun idx => t.e ax ≤ at' idx ax)).map (fun idx => (t.off idx, 0))
  if isMx t.fmt then
    let blocks := (boxIdx (t.ext.set ax (cdiv (t.e ax) 32))).map (fun o =>
      let mem := vals.filter (fun v => v.1.set ax (at' v.1 ax / 32) = o)
      let b := mxBlock t.fmt (mem.map (fun v => v.2.1.1))
      (t.scaleOff (o.set ax (32 * at' o ax)), b.1, mem.zip b.2))
    let els := blocks.flatMap (fun b => b.2.2.map (fun m => (t.off m.1.1, m.2.1)))
    (packElems x ctx t.base bits (els ++ padding) ++ blocks.map (fun b => (t.scaleVa + b.1, BitVec.ofNat 8 b.2.1)),
      counts (blocks.flatMap (fun b => b.2.2.map (fun m => (m.2.2, m.1.2.1.2)))))
  else
    let els := vals.map (fun v => (t.off v.1, encodeElem t.fmt sat (sr v.2.2) v.2.1.1, v.2.1.2))
    (packElems x ctx t.base bits (els.map (fun e => (e.1, e.2.1.1)) ++ padding), counts (els.map (fun e => (e.2.1.2, e.2.2))))

/-! ### Cycles (R99, R108, log 10) -/

/-- Cycles of a command that the timing tables predict within 10 %, with whatever its port waited: free above that bound. -/
def cyclesFrom (x : Half) (pred : Nat) : Nat := min 0xFFFFFFFF (pred - pred / 10 + Config.freeNat x.seed 32)

/-- DETAIL0 of units 0x01 to 0x03: cycles in [31:0], bytes committed in units of 64 in [62:32], the load flag in [63]. -/
def engineDetail (x : Half) (cycles bytes : Nat) (load : Bool) : Nat :=
  cycles + units64 x.seed bytes % 2 ^ 31 * 2 ^ 32 + b2n load * 2 ^ 63

end Sys2Proof.Machine
end

