-- ==== Sys2Proof/Machine/TensorOps.lean ====
section
/-! DEFINITION. Unit 0x01, the tensor engine operations (spec/04_tensor_engines.md R97 to R108, R121, R122). -/

namespace Sys2Proof.Machine

/-! ### Keys of free values: one number for each use -/

/-- A number for a pair of numbers. -/
def sub (a b : Nat) : Nat := (a + b) * (a + b + 1) / 2 + b

/-- Key of use j of a row's free values. -/
def rk (row j : Nat) : Nat := sub (2 * row) j

/-- Key of use j of an element's free values. -/
def ek (i j : Nat) : Nat := sub (2 * i + 1) j

/-- The place of an index in a box of extents. -/
def linear (ext idx : List Nat) : Nat :=
  ((ext.zip idx).foldr (fun p acc => p.2 + p.1 * acc) 0)

/-! ### MAC array (spec/03_arithmetic_formats.md R75, R76) -/

/-- Width class (8, 4 or 16) of an operand pair and whether B may be 2:4 sparse, or none where the array refuses the pair
(Table — MAC array pairs and rates). -/
def macPair (a b : Nat) : Option (Nat × Bool) :=
  if a ∈ [0x01, 0x02, 0x03] && b ∈ [0x02, 0x03] then some (8, true)
  else if a ∈ [0x01, 0x02, 0x03] && b = 0x01 then some (4, true)
  else if a ∈ [0x08, 0x09] && b ∈ [0x08, 0x09] then some (8, true)
  else if a ∈ [0x0A, 0x0B, 0x0C, 0x0D, 0x0E] && b ∈ [0x0A, 0x0B, 0x0C, 0x0E] then some (8, true)
  else if a ∈ [0x0A, 0x0B, 0x0C, 0x0D] && b = 0x0D then some (4, true)
  else if (a = 0x10 || a = 0x11) && a = b then some (16, false)
  else none

/-- The exact sum of a block of products; a sum that overflows FP32 on scaling becomes an infinity (R76). -/
def blockTerm (ps : List Num) : Num :=
  let v := ps.foldl Num.add .zero
  match r32 v with
  | .inf n => .inf n
  | _ => v

/-- The terms that the accumulator of one output takes: exact products, summed by pairs of blocks for MX formats (R76). -/
def macTerms (mx : Bool) (k : Nat) (fa fb : Nat → Num) : List Num :=
  if mx then (List.range (cdiv k 32)).map (fun b =>
    blockTerm (((List.range 32).filter (fun j => 32 * b + j < k)).map (fun j => (fa (32 * b + j)).mul (fb (32 * b + j)))))
  else (List.range k).map (fun j => (fa j).mul (fb j))

/-- An accumulated result: INT32 with its saturation, or FP32 (R77, R78). -/
def accumulate (seed elem : Nat) (isInt : Bool) (terms : List Num) : Out :=
  if isInt then
    let r := isum seed elem terms
    (.ofInt r.1, 0 < r.2)
  else (macSum seed elem terms, false)

/-! ### Checks of the body (R97, R100, R101, R121) -/

/-- A reserved body field for an operation that does not use it. -/
def unusedAt (c : Cmd) (off w : Nat) (used : Bool) : Chk :=
  { bad := !used && decide (df c.desc off w ≠ 0), st := stMalformed, off := off }

/-- FUNC of unit 0x01. -/
def tFunc (c : Cmd) : Nat := df c.desc 0x44 8

/-- AXIS. -/
def tAxis (c : Cmd) : Nat := df c.desc 0x45 8

/-- ELEMENTWISE with a binary FUNC. -/
def binary (f : Nat) : Bool := 1 ≤ f && f ≤ 5

/-- Permitted FUNC values of an operation (Table — Functions). -/
def funcOk (op f : Nat) : Bool :=
  if op = 0x01 then f = 0 || (0x10 ≤ f && f ≤ 0x15)
  else if op = 0x10 then f ≤ 6 || (0x10 ≤ f && f ≤ 0x15)
  else if op = 0x11 then 1 ≤ f && f ≤ 4
  else if op = 0x12 then f = 1 || f = 2
  else f = 0

/-- An operation of unit 0x01 carries SRC1. -/
def hasSrc1 (c : Cmd) : Bool :=
  let op := dOp c.desc
  op = 0x01 || (op = 0x10 && binary (tFunc c)) || (op = 0x12 && df c.desc 0x28 64 ≠ 0)

/-- An operation of unit 0x01 carries SRC2. -/
def hasSrc2 (c : Cmd) : Bool :=
  let op := dOp c.desc
  (op = 0x01 || op = 0x10 || op = 0x12) && df c.desc 0x30 64 ≠ 0

/-- The half has a Quick lane (R120). -/
def Half.hasQuick (x : Half) : Bool := x.sched.engines.any Engine.isQuickLane

/-- Layouts that an operation of unit 0x01 accepts (R95). -/
def tLayouts (c : Cmd) : List Nat := if dOp c.desc = 0x10 || dOp c.desc = 0x20 then [0, 1, 2] else [0]

/-- The operands of a command of unit 0x01, with their k and address fields. -/
def tOperands (c : Cmd) : List (Nat × Nat × Bool) :=
  [(1, 0x20, false)] ++ (if hasSrc1 c then [(2, 0x28, false)] else []) ++ (if hasSrc2 c then [(3, 0x30, false)] else []) ++
    [(4, 0x38, true)]

/-- Every operand's descriptor can be read, so that checks across operands are made, whatever else is wrong with one (R9). -/
def tRead (x : Half) (c : Cmd) : Bool := (tOperands c).all (fun o => descAddrOk x c o.2.1)

/-- Checks that every operation of unit 0x01 shares. -/
def tChecks (x : Half) (c : Cmd) : List Chk :=
  let d := c.desc
  let op := dOp d
  let f := tFunc c
  let quick := db d 0x46 0
  [unusedAt c 0x28 64 (op = 0x01 || (op = 0x10 && binary f) || op = 0x12),
   { bad := (op = 0x01 || (op = 0x10 && binary f)) && df d 0x28 64 = 0, st := stMalformed, off := 0x28 },
   unusedAt c 0x30 64 (op = 0x01 || op = 0x10 || op = 0x12),
   unusedAt c 0x45 8 (op = 0x11 || op = 0x12 || op = 0x13),
   unusedAt c 0x48 32 (op = 0x01 || op = 0x10), unusedAt c 0x4C 32 ((op = 0x01 || op = 0x10) && hasSrc2 c),
   unusedAt c 0x50 32 ((op = 0x10 && f = 6) || op = 0x12 || op = 0x13),
   unusedAt c 0x54 32 ((op = 0x10 && f = 6) || (op = 0x11 && f = 4)),
   dRsvBits d 0x46 1 15, dRsv d 0x58 320,
   { bad := !funcOk op f, st := stMalformed, off := 0x44 },
   { bad := 5 < tAxis c && (op = 0x11 || op = 0x12 || op = 0x13), st := stMalformed, off := 0x45 },
   { bad := op = 0x11 && f = 4 && df d 0x54 32 = 0, st := stMalformed, off := 0x54 },
   { bad := op = 0x13 && df d 0x50 31 = 0, st := stMalformed, off := 0x50 },
   { bad := quick && !(x.cfg.quickClients.contains c.client), st := stDenied },
   { bad := quick && !x.hasQuick, st := stUnsupported }] ++
  ((tOperands c).filter (fun o => !(o.2.1 = 0x28 && df d 0x28 64 = 0))).flatMap (fun o =>
    operandChecks x c o.2.1 o.1 o.2.2 (tLayouts c) ++
    (if descAddrOk x c o.2.1 then
      [{ bad := (operand x c o.2.1).sparse && !(op = 0x01 && o.1 = 2), st := stUnsupported }]
     else [])) ++
  (if descAddrOk x c 0x38 then [footCheck (operand x c 0x38) 0x38] else [])

/-! ### Work that unit 0x01 shares -/

/-- ALPHA, BETA, PARAM0 and PARAM1 as FP32. -/
def tF32 (c : Cmd) (off : Nat) : Num := f32 (df c.desc off 32)

/-- FP32 one. -/
def one32 : Nat := 0x3F800000

/-- A number as the vector unit loads it (spec/03 R75). That an MX element whose scaled value lies beyond FP32's range, which the load
could not hold exactly, is loaded as an infinity is the model's choice (log 86). -/
def ld (x : Num) : Num := r32 x

/-- B must be loaded into the Quick lane: its footprint is above the region or it is not resident (R122). -/
def Half.mustLoad (x : Half) (c : Cmd) (b : TD) : Bool :=
  !(x.sched.residents.any (fun r => r.ctx = c.ctx && r.base = b.base && r.foot = b.foot))

/-- The staged output of a unit 0x01 command and its account (R84, R99, R108). -/
def tWork (x : Half) (c : Cmd) (pred : Nat) (val : Nat → List Nat → Out) : Work :=
  let dst := operand x c 0x38
  let w := dst.write x c.ctx val
  let ins := (tOperands c).filter (fun o => !o.2.2)
  let cyc := cyclesFrom x pred
  let b := operand x c 0x28
  { writes := w.1, det1 := w.2, foot := dst.foot, outs := dst.planes
    reads := (tOperands c).map (fun o => (df c.desc o.2.1 64, 64)) ++ ins.flatMap (fun o => (operand x c o.2.1).reads x c.ctx)
    det0 := engineDetail x cyc w.1.length (isQuick c && dOp c.desc = 0x01 && x.mustLoad c b)
    predict := pred, cycles := cyc
    fail := if dOp c.desc = 0x01 && b.badNibble x c.ctx then some { bad := true, st := stMalformed, off := 0x20A } else none }

/-- Cycles of a vector operation (R108). -/
def vecCycles (x : Half) (c : Cmd) : Nat :=
  let op := dOp c.desc
  let src := operand x c 0x20
  let e := src.ext.foldl (· * ·) 1
  let comp := if op = 0x12 then 2 * cdiv e 256 else if op = 0x13 then 2 * cdiv e 256 + cdiv e 64
    else if 0x11 ≤ tFunc c && tFunc c ≤ 0x15 && op = 0x10 then cdiv e 64 else cdiv e 256
  let bytes := ((tOperands c).map (fun o => (operand x c o.2.1).foot)).sum
  200 + max comp (cdiv bytes 256) + 64

/-- Cycles of a GEMM (R108). -/
def gemmCycles (a b cc : TD) (dFoot w : Nat) : Nat :=
  let k := a.e 0
  let m := a.e 1
  let n := b.e 1
  let kb := (if w = 16 then 32 else if w = 4 then 256 else 128) * (if b.sparse then 2 else 1)
  let least := if b.sparse then 72 else if w = 16 then 32 else 64
  let tiles := List.replicate (m / 512) 512 ++ (if m % 512 = 0 then [] else [m % 512])
  let nb := cdiv n 256
  let comp := (a.ext.drop 2).foldl (· * ·) 1 * nb * (tiles.map (fun t => cdiv k kb * max t least + 24)).sum
  let bytes := a.foot * nb + b.foot * tiles.length + cc.foot + dFoot
  200 + max comp (cdiv bytes 256) + tiles.getLastD 0 + 64

/-- Every operand and the output of a command have integer formats (R105). -/
def allInt (x : Half) (c : Cmd) : Bool := (tOperands c).all (fun o => isIntFmt (operand x c o.2.1).fmt)

/-! ### GEMM (R102 to R104) -/

/-- The checks of GEMM beyond those of the unit. -/
def gemmChecks (x : Half) (c : Cmd) : List Chk :=
  if tRead x c then
    let a := operand x c 0x20
    let b := operand x c 0x28
    let want := [b.e 1, a.e 1] ++ a.ext.drop 2
    let want := if a.nd = 0 || b.nd = 0 then none else some want
    let against := fun (k off : Nat) => (want.map (fun w => extentChecks k (operand x c off) w)).getD []
    [{ bad := (macPair a.fmt b.fmt).isNone, st := stUnsupported },
     { bad := b.sparse && (macPair a.fmt b.fmt).any (fun p => !p.2), st := stUnsupported },
     { bad := decide (16777216 < a.e 0), st := stLimit, off := 0x110 }] ++
    (if a.nd = 0 then [] else extentChecks 2 b ([a.e 0, b.e 1] ++ a.ext.drop 2)) ++
    (if hasSrc2 c then against 3 0x30 else []) ++ against 4 0x38
  else []

/-- One output of GEMM: ALPHA × Σ A × B + BETA × D, then FUNC, in INT32 or FP32 (R103). -/
def gemmOut (x : Half) (c : Cmd) (i : Nat) (idx : List Nat) : Out :=
  let a := operand x c 0x20
  let b := operand x c 0x28
  let dt := operand x c 0x30
  let isInt := isIntFmt a.fmt
  let acc := accumulate x.seed i isInt (macTerms (isMx a.fmt) (a.e 0)
    (fun k => a.get x c.ctx ((idx.set 0 k).set 1 (at' idx 1))) (fun k => b.get x c.ctx ((idx.set 0 k).set 1 (at' idx 0))))
  let f := tFunc c
  if isInt && (operand x c 0x38).fmt = 0x18 && df c.desc 0x48 32 = one32 && f = 0 &&
      (!hasSrc2 c || (dt.fmt = 0x18 && df c.desc 0x4C 32 = one32)) then
    if hasSrc2 c then
      let r := satAdd acc.1.int (dt.get x c.ctx idx).int
      (.ofInt r.1, acc.2 || r.2)
    else acc
  else
    let v := ld acc.1
    let y := if hasSrc2 c then axpby x.seed (ek i 0) (tF32 c 0x48) v (tF32 c 0x4C) (ld (dt.get x c.ctx idx))
      else fmul (tF32 c 0x48) v
    (activate x.seed (ek i 1) f y, acc.2)

/-! ### Vector operations (R105, R106) -/

/-- The largest integer not above a number, within INT32. -/
def floor32 (hi : Bool) (y : Num) : Option Int :=
  let lim := fun v => max (-2147483648) (min 2147483647 v)
  match y with
  | .nan => none
  | .inf n => some (if n then -2147483648 else 2147483647)
  | .fin n m e =>
    let v := sgn n m
    some (lim (if 0 ≤ e then v * 2 ^ e.toNat else if hi then v / 2 ^ (-e).toNat else -(-v / 2 ^ (-e).toNat)))

/-- FUNC of ELEMENTWISE in FP32 (Table — Functions, R106). -/
def elemF32 (seed i f : Nat) (lo hi a b : Num) : Num :=
  if f = 1 then fadd a b else if f = 2 then fsub a b else if f = 3 then fmul a b
  else if f = 4 then fmax seed (ek i 2) a b else if f = 5 then fmin seed (ek i 2) a b
  else if f = 6 then
    if a.isNan then .nan
    else
      let y := if lo.isNan then a else fmax seed (ek i 3) a lo
      if hi.isNan then y else fmin seed (ek i 4) y hi
  else activate seed (ek i 1) f a

/-- FUNC 0x00 to 0x06 of ELEMENTWISE in INT32: a sum or difference is clamped to INT32 and counted (R78); a product is exact, and the
output conversion brings it into range (R83; log 49). -/
def elemInt (f : Nat) (lo hi : Num) (a b : Int) : Int × Bool :=
  if f = 1 then satAdd a b else if f = 2 then satAdd a (-b) else if f = 3 then (a * b, false)
  else if f = 4 then (max a b, false) else if f = 5 then (min a b, false)
  else if f = 6 then
    let y := match floor32 false lo with
      | some l => max a l
      | none => a
    (match floor32 true hi with
      | some h => min y h
      | none => y, false)
  else (a, false)

/-- ELEMENTWISE runs in INT32 (R105). -/
def elemIsInt (x : Half) (c : Cmd) : Bool :=
  allInt x c && tFunc c ≤ 6 && df c.desc 0x48 32 = one32 && (!hasSrc2 c || df c.desc 0x4C 32 = one32)

/-- One output of ELEMENTWISE: ALPHA × f(SRC0, SRC1) + BETA × SRC2. -/
def elemOut (x : Half) (c : Cmd) (i : Nat) (idx : List Nat) : Out :=
  let v := fun off => (operand x c off).get x c.ctx idx
  let b := if hasSrc1 c then v 0x28 else .zero
  if elemIsInt x c then
    let r := elemInt (tFunc c) (tF32 c 0x50) (tF32 c 0x54) (v 0x20).int b.int
    if hasSrc2 c then
      let s := satAdd r.1 (v 0x30).int
      (.ofInt s.1, r.2 || s.2)
    else (.ofInt r.1, r.2)
  else
    let r := elemF32 x.seed i (tFunc c) (tF32 c 0x50) (tF32 c 0x54) (ld (v 0x20)) (ld b)
    (if hasSrc2 c then axpby x.seed (ek i 0) (tF32 c 0x48) r (tF32 c 0x4C) (ld (v 0x30)) else fmul (tF32 c 0x48) r, false)

/-- The row of SRC0 along AXIS through an output index. -/
def rowOf (x : Half) (c : Cmd) (idx : List Nat) : List Num :=
  let s := operand x c 0x20
  (List.range (s.e (tAxis c))).map (fun j => s.get x c.ctx (idx.set (tAxis c) j))

/-- The number of the row along AXIS that holds an index. -/
def rowNum (x : Half) (c : Cmd) (idx : List Nat) : Nat := linear (operand x c 0x38).ext (idx.set (tAxis c) 0)

/-- Folds a choice of two over a row. -/
def foldRow (g : Nat → Num → Num → Num) (l : List Num) : Num :=
  match l with
  | [] => .zero
  | a :: r => (r.zipIdx).foldl (fun acc p => g p.2 acc p.1) a

/-- One output of REDUCE: SUM, MAX, MIN, or MEAN with MEAN_DIVISOR; INT32 for all but MEAN of integer formats (R105). -/
def reduceOut (x : Half) (c : Cmd) (i : Nat) (idx : List Nat) : Out :=
  let row := rowOf x c idx
  let f := tFunc c
  let rows := row.map ld
  if allInt x c && f ≠ 4 then
    if f = 1 then
      let r := isum x.seed i row
      (.ofInt r.1, 0 < r.2)
    else (.ofInt (match row.map Num.int with
      | [] => 0
      | a :: l => l.foldl (fun p q => if f = 2 then max p q else min p q) a), false)
  else if f = 1 then (fsum x.seed i rows, false)
  else if f = 2 then (foldRow (fun j => fmax x.seed (sub (ek i 2) j)) rows, false)
  else if f = 3 then (foldRow (fun j => fmin x.seed (sub (ek i 2) j)) rows, false)
  else (fdiv x.seed (ek i 3) (fsum x.seed i rows) (ld (.ofInt (df c.desc 0x54 32))), false)

/-- One output of NORM: LAYER or RMS over AXIS, with gain and shift (R106). -/
def normOut (x : Half) (c : Cmd) (i : Nat) (idx : List Nat) : Out :=
  let row := (rowOf x c idx).map ld
  let r := rowNum x c idx
  let n := ld (.ofInt row.length)
  let v := ld ((operand x c 0x20).get x c.ctx idx)
  let gain := if hasSrc1 c then ld ((operand x c 0x28).get x c.ctx idx) else .one
  let mean := fun (j : Nat) (l : List Num) => fdiv x.seed (rk r (2 * j)) (fsum x.seed (rk r (2 * j + 1)) l) n
  let eps := tF32 c 0x50
  let mu := mean 0 row
  let y := if tFunc c = 1 then
      let var := mean 1 (row.map (fun a => fmul (fsub a mu) (fsub a mu)))
      fdiv x.seed (ek i 2) (fsub v mu) (fsqrt x.seed (rk r 4) (fadd var eps))
    else fdiv x.seed (ek i 2) v (fsqrt x.seed (rk r 4) (fadd (mean 1 (row.map (fun a => fmul a a))) eps))
  (if hasSrc2 c then axpby x.seed (ek i 0) gain y .one (ld ((operand x c 0x30).get x c.ctx idx)) else fmul y gain, false)

/-- The softmax of a row: every input divided by the temperature, the row maximum subtracted, exponentials over their sum
(R106). -/
def softRow (seed r : Nat) (t : Num) (row : List Num) : List Num :=
  let y := row.zipIdx.map (fun p => fdiv seed (rk r (3 * p.2 + 3)) p.1 t)
  let m := foldRow (fun j => fmax seed (rk r (3 * j + 4))) y
  let e := y.zipIdx.map (fun p => fexp seed (rk r (3 * p.2 + 5)) (fsub p.1 m))
  let s := fsum seed (rk r 0) e
  e.zipIdx.map (fun p => fdiv seed (sub (rk r 1) p.2) p.1 s)

/-- One output of SOFTMAX. -/
def softmaxOut (x : Half) (c : Cmd) (_ : Nat) (idx : List Nat) : Out :=
  ((softRow x.seed (rowNum x c idx) (tF32 c 0x50) ((rowOf x c idx).map ld))[at' idx (tAxis c)]?.getD .nan, false)

/-- One output of CONVERT: only the format and layout change. -/
def convertOut (x : Half) (c : Cmd) (_ : Nat) (idx : List Nat) : Out :=
  let v := (operand x c 0x20).get x c.ctx idx
  (if allInt x c then v else ld v, false)

/-- Extents of the operands of a vector operation (R106). -/
def vecChecks (x : Half) (c : Cmd) : List Chk :=
  if tRead x c then
    let dst := operand x c 0x38
    let src := operand x c 0x20
    if (if dOp c.desc = 0x11 then src.nd else dst.nd) = 0 then []
    else if dOp c.desc = 0x11 then extentChecks 4 dst (src.ext.set (tAxis c) 1)
    else ((tOperands c).filter (fun o => !o.2.2)).flatMap (fun o => extentChecks o.1 (operand x c o.2.1) dst.ext)
  else []

/-! ### The commands -/

/-- A command that stands waiting and arrives at the Quick lane kills a warm-up slice that is not forced (R124). -/
def Half.quickArrives (x : Half) (n : Nat) : Half :=
  match x.cmd n with
  | none => x
  | some c =>
    if isQuick c && c.st = .waiting && x.ready c then
      { x with sched := { x.sched with engines := x.sched.engines.map (fun (e : Engine) =>
        if e.st = .quick && !e.warmForced then { e with warmRunning := false } else e) } }
    else x

/-- The Quick lane keeps the B operand of a GEMM that it has started resident, dropping the least recently used until it fits
(R122). -/
def Half.admitB (before x : Half) (n : Nat) : Half :=
  match before.cmd n, x.cmd n with
  | some c0, some c =>
    if c0.st = .waiting && c.st ≠ .waiting && isQuick c && c.engine.isSome then
      let b := operand before c 0x28
      let r : Resident := { ctx := c.ctx, base := b.base, foot := b.foot }
      let rest := x.sched.residents.filter (fun q => q ≠ r)
      if 1048576 < b.foot then x
      else
        let keep := rest.foldl (fun (acc : List Resident × Nat) q =>
          if acc.2 + q.foot ≤ 1048576 then (acc.1 ++ [q], acc.2 + q.foot) else (acc.1, 1048577)) (([] : List Resident), b.foot)
        { x with sched := { x.sched with residents := r :: keep.1 } }
    else x
  | _, _ => x

/-- The checks of an operation of unit 0x01: those of the unit, then its own. -/
def tAll (chk : Half → Cmd → List Chk) (x : Half) (c : Cmd) : List Chk := tChecks x c ++ chk x c

/-- The work of an operation of unit 0x01. -/
def tRun (pred : Half → Cmd → Nat) (val : Half → Cmd → Nat → List Nat → Out) (x : Half) (c : Cmd) (_ : Option Nat) : Work :=
  tWork x c (pred x c) (val x c)

/-- The start of a command of unit 0x01. -/
def tensorStart (h : HalfId) (cmd op : Nat) (chk : Half → Cmd → List Chk) (work : Half → Cmd → Option Nat → Work) (s : State) : State :=
  s.mod h (fun x => (x.quickArrives cmd).start cmd 1 op (fun _ _ => true) chk work)

/-- Predicted cycles of GEMM (R108). -/
def gemmPred (x : Half) (c : Cmd) : Nat :=
  let a := operand x c 0x20
  let b := operand x c 0x28
  gemmCycles a b (operand x c 0x38) (if hasSrc2 c then (operand x c 0x30).foot else 0) ((macPair a.fmt b.fmt).elim 8 (·.1))

/-- GEMM (R102). -/
def execGemm (h : HalfId) (cmd : Nat) (s : State) : Host.Outcome State Fault Refusal :=
  let t := tensorStart h cmd 0x01 (tAll gemmChecks) (tRun gemmPred gemmOut) s
  .next (t.mod h (fun x => Half.admitB (s.half h) x cmd))

/-- ELEMENTWISE (R106). -/
def execElementwise (h : HalfId) (cmd : Nat) (s : State) : Host.Outcome State Fault Refusal :=
  .next (tensorStart h cmd 0x10 (tAll vecChecks) (tRun vecCycles elemOut) s)

/-- REDUCE (R106). -/
def execReduce (h : HalfId) (cmd : Nat) (s : State) : Host.Outcome State Fault Refusal :=
  .next (tensorStart h cmd 0x11 (tAll vecChecks) (tRun vecCycles reduceOut) s)

/-- NORM (R106). -/
def execNorm (h : HalfId) (cmd : Nat) (s : State) : Host.Outcome State Fault Refusal :=
  .next (tensorStart h cmd 0x12 (tAll vecChecks) (tRun vecCycles normOut) s)

/-- SOFTMAX (R106). -/
def execSoftmax (h : HalfId) (cmd : Nat) (s : State) : Host.Outcome State Fault Refusal :=
  .next (tensorStart h cmd 0x13 (tAll vecChecks) (tRun vecCycles softmaxOut) s)

/-- CONVERT (R106). -/
def execConvert (h : HalfId) (cmd : Nat) (s : State) : Host.Outcome State Fault Refusal :=
  .next (tensorStart h cmd 0x20 (tAll vecChecks) (tRun vecCycles convertOut) s)

end Sys2Proof.Machine
end

