-- ==== Sys2Proof/Machine/Conv.lean ====
section
/-! DEFINITION. Unit 0x02, convolution and pooling (spec/05_convolution_path.md R126 to R149). -/

namespace Sys2Proof.Machine

/-! ### The body (R130) -/

/-- KH. -/
def cvKh (d : Desc) : Nat := df d 0x4E 8
/-- KW. -/
def cvKw (d : Desc) : Nat := df d 0x4F 8
/-- SH. -/
def cvSh (d : Desc) : Nat := df d 0x50 8
/-- SW. -/
def cvSw (d : Desc) : Nat := df d 0x51 8
/-- Vertical dilation. -/
def cvDh (d : Desc) : Nat := df d 0x52 8 + 1
/-- Horizontal dilation. -/
def cvDw (d : Desc) : Nat := df d 0x53 8 + 1
/-- PAD_T. -/
def cvPt (d : Desc) : Nat := df d 0x54 8
/-- PAD_L. -/
def cvPl (d : Desc) : Nat := df d 0x56 8
/-- GROUPS. -/
def cvGroups (d : Desc) : Nat := df d 0x58 32
/-- OUT_ROW0. -/
def cvRow0 (d : Desc) : Nat := df d 0x5C 32
/-- FUNC. -/
def cvFunc (d : Desc) : Nat := df d 0x4C 8
/-- A bias is given. -/
def cvBias (d : Desc) : Bool := df d 0x30 64 ≠ 0
/-- A per-channel scale is given. -/
def cvScale (d : Desc) : Bool := df d 0x40 64 ≠ 0
/-- Effective window height. -/
def cvEh (d : Desc) : Nat := (cvKh d - 1) * cvDh d + 1
/-- Effective window width. -/
def cvEw (d : Desc) : Nat := (cvKw d - 1) * cvDw d + 1

/-- Height of the padded input. -/
def cvHp (d : Desc) (src : TD) : Nat := src.e 1 + cvPt d + df d 0x55 8
/-- Width of the padded input. -/
def cvWp (d : Desc) (src : TD) : Nat := src.e 0 + cvPl d + df d 0x57 8

/-- The window fits the padded height: H + PAD_T + PAD_B ≥ EH, with EH = KH × DH + 1 - DH also for a KH of 0 (R134). -/
def cvFitsH (d : Desc) (src : TD) : Bool := cvKh d * cvDh d + 1 ≤ cvHp d src + cvDh d
/-- The window fits the padded width. -/
def cvFitsW (d : Desc) (src : TD) : Bool := cvKw d * cvDw d + 1 ≤ cvWp d src + cvDw d

/-- OH (R134). -/
def cvOh (d : Desc) (src : TD) : Nat := (cvHp d src + cvDh d - 1 - cvKh d * cvDh d) / cvSh d + 1
/-- OW (R134). -/
def cvOw (d : Desc) (src : TD) : Nat := (cvWp d src + cvDw d - 1 - cvKw d * cvDw d) / cvSw d + 1

/-- The operands of a command of unit 0x02, with their k and address fields. -/
def cvOperands (d : Desc) : List (Nat × Nat × Bool) :=
  if dOp d = 0x01 then
    [(1, 0x20, false), (2, 0x28, false)] ++ (if cvBias d then [(3, 0x30, false)] else []) ++ [(4, 0x38, true)] ++
      (if cvScale d then [(5, 0x40, false)] else [])
  else [(1, 0x20, false), (4, 0x38, true)]

/-- Layouts of operand k (R130, R136, R138). -/
def cvLayouts (k : Nat) : List Nat := if k = 1 || k = 4 then [1, 2] else [0]

/-- The descriptors of the input and the output can be read and both are blocked, so that their W, H, C and N are defined (R126), whatever
else is wrong (R9). -/
def cvRead (x : Half) (c : Cmd) : Bool :=
  descAddrOk x c 0x20 && descAddrOk x c 0x38 && (operand x c 0x20).blocked && (operand x c 0x38).blocked

/-- Checks that every operation of unit 0x02 shares (R129 to R135, R148). -/
def cvChecks (x : Half) (c : Cmd) : List Chk :=
  let d := c.desc
  let conv := dOp d = 0x01
  let lim := fun (bad : Bool) (o : Nat) => ({ bad := bad, st := stLimit, off := o } : Chk)
  let mal := fun (bad : Bool) (o : Nat) => ({ bad := bad, st := stMalformed, off := o } : Chk)
  [dRsvBits d 0x4D 1 7, mal (dOp d ≠ 0x11 && db d 0x4D 0) 0x4D, dRsv d 0x68 192,
   mal (!conv && df d 0x28 64 ≠ 0) 0x28, mal (!conv && df d 0x30 64 ≠ 0) 0x30, mal (!conv && df d 0x40 64 ≠ 0) 0x40,
   mal (if conv then !(cvFunc d = 0 || (0x10 ≤ cvFunc d && cvFunc d ≤ 0x15)) else cvFunc d ≠ 0) 0x4C,
   mal (if conv then cvGroups d = 0 else cvGroups d ≠ 0) 0x58,
   mal (!conv && df d 0x60 32 ≠ 0) 0x60, mal (!(conv && cvBias d) && df d 0x64 32 ≠ 0) 0x64,
   mal (cvSh d = 0) 0x50, mal (cvSw d = 0) 0x51, lim (16 < cvSh d) 0x50, lim (16 < cvSw d) 0x51,
   mal (!conv && cvKh d = 0) 0x4E, mal (!conv && cvKw d = 0) 0x4F,
   { bad := conv && (cvKh d = 0 || cvKw d = 0), st := stEmpty },
   lim (32 < cvKh d) 0x4E, lim (32 < cvKw d) 0x4F, lim (64 < cvDh d) 0x52, lim (64 < cvDw d) 0x53] ++
  (cvOperands d).flatMap (fun o => operandChecks x c o.2.1 o.1 o.2.2 (cvLayouts o.1) ++
    (if descAddrOk x c o.2.1 then [{ bad := (operand x c o.2.1).sparse && o.1 ≠ 2, st := stUnsupported }] else [])) ++
  (if descAddrOk x c 0x38 then [footCheck (operand x c 0x38) 0x38] else []) ++
  (if cvRead x c then
    let s := operand x c 0x20
    let t := operand x c 0x38
    [lim (16384 < s.e 0) 0x110, lim (16384 < s.e 1) 0x118, lim (65536 < s.e 2) 0x120, lim (1024 < s.e 3) 0x128,
     lim (65536 < t.e 2) 0x420,
     mal (!cvFitsH d s) 0x4E, mal (!cvFitsW d s) 0x4F,
     mal (cvFitsW d s && cvSw d ≠ 0 && t.e 0 ≠ cvOw d s) 0x410, mal (t.e 3 ≠ s.e 3) 0x428,
     mal (cvFitsH d s && cvSh d ≠ 0 && cvOh d s < cvRow0 d + t.e 1) 0x5C]
   else [])

/-- A per-channel vector of CONV: ROW, one dimension, of the output's channels; every other form is malformed (R138). -/
def vecChecks1 (x : Half) (c : Cmd) (off k : Nat) (fmts : List Nat) : List Chk :=
  let mal := fun (bad : Bool) (o : Nat) => ({ bad := bad, st := stMalformed, off := 0x100 * k + o } : Chk)
  if descAddrOk x c off then
    let o := operand x c off
    [mal (o.layout ≠ 0) 0x07, mal (o.nd ≠ 1) 0x08, mal (cvRead x c && o.e 0 ≠ (operand x c 0x38).e 2) 0x10,
     { bad := !(fmts.contains o.fmt), st := stUnsupported }]
  else []

/-- The checks of CONV beyond those of the unit (R75, R87, R136 to R138, and the limit on K of spec/04_tensor_engines.md R107). -/
def convChecks (x : Half) (c : Cmd) : List Chk :=
  let d := c.desc
  let mal := fun (bad : Bool) (o : Nat) => ({ bad := bad, st := stMalformed, off := o } : Chk)
  (if descAddrOk x c 0x20 && descAddrOk x c 0x28 then
    let s := operand x c 0x20
    let w := operand x c 0x28
    [{ bad := (macPair s.fmt w.fmt).isNone, st := stUnsupported },
     { bad := w.sparse && (macPair s.fmt w.fmt).any (fun p => !p.2), st := stUnsupported }]
   else []) ++
  (if cvRead x c then
    let s := operand x c 0x20
    let t := operand x c 0x38
    let g := max 1 (cvGroups d)
    let k := cvKh d * cvKw d * (s.e 2 / g)
    let w := operand x c 0x28
    [mal (cvGroups d ≠ 0 && (s.e 2 % g ≠ 0 || t.e 2 % g ≠ 0)) 0x58,
     mal (isMx s.fmt && s.e 2 / g % 32 ≠ 0) 0x58,
     mal ((s.fmt = 0x01 || s.fmt = 0x0D) && s.e 2 / g % 2 ≠ 0) 0x58,
     { bad := 16777216 < k, st := stLimit, off := 0x210 }] ++
    (if descAddrOk x c 0x28 && cvGroups d ≠ 0 then
      [mal (w.nd ≠ 3) 0x208, mal (w.e 0 ≠ k) 0x210, mal (w.e 1 ≠ t.e 2 / g) 0x218, mal (w.e 2 ≠ g) 0x220]
     else [])
   else []) ++
  (if cvBias d then vecChecks1 x c 0x30 3 [0x14, 0x18] else []) ++ (if cvScale d then vecChecks1 x c 0x40 5 [0x14] else [])

/-- Equal channels of input and output for pooling (R139). -/
def poolChecks (x : Half) (c : Cmd) : List Chk :=
  if cvRead x c then
    [{ bad := (operand x c 0x20).e 2 ≠ (operand x c 0x38).e 2, st := stMalformed, off := 0x420 }]
  else []

/-! ### Geometry (R134, R135) -/

/-- The input position of a tap of an output position, none for a padding tap (R135). -/
def tapAt (d : Desc) (src : TD) (idx : List Nat) (kh kw : Nat) : Option (Nat × Nat) :=
  let ih := (cvRow0 d + at' idx 1) * cvSh d + kh * cvDh d
  let iw := at' idx 0 * cvSw d + kw * cvDw d
  if cvPt d ≤ ih && ih < cvPt d + src.e 1 && cvPl d ≤ iw && iw < cvPl d + src.e 0 then some (ih - cvPt d, iw - cvPl d) else none

/-- The in-bounds taps of an output's window, as values of its channel (R139). -/
def window (x : Half) (c : Cmd) (idx : List Nat) : List Num :=
  let d := c.desc
  let s := operand x c 0x20
  (List.range (cvKh d * cvKw d)).filterMap (fun k =>
    (tapAt d s idx (k / cvKw d) (k % cvKw d)).map (fun p => s.get x c.ctx [p.2, p.1, at' idx 2, at' idx 3]))

/-! ### Results -/

/-- One output of CONV (R137, R138). -/
def convOut (x : Half) (c : Cmd) (i : Nat) (idx : List Nat) : Out :=
  let d := c.desc
  let s := operand x c 0x20
  let w := operand x c 0x28
  let t := operand x c 0x38
  let cg := s.e 2 / cvGroups d
  let jg := t.e 2 / cvGroups d
  let g := at' idx 2 / jg
  let isInt := isIntFmt s.fmt
  let fa := fun k => match tapAt d s idx (k / cg / cvKw d) (k / cg % cvKw d) with
    | some p => s.get x c.ctx [p.2, p.1, g * cg + k % cg, at' idx 3]
    | none => .zero
  let acc := accumulate x.seed i isInt (macTerms (isMx s.fmt) (w.e 0) fa (fun k => w.get x c.ctx [k, at' idx 2 % jg, g]))
  let bias := (operand x c 0x30).get x c.ctx [at' idx 2]
  if isInt && t.fmt = 0x18 && (!cvBias d || ((operand x c 0x30).fmt = 0x18 && df d 0x64 32 = one32)) &&
      df d 0x60 32 = one32 && !cvScale d && cvFunc d = 0 then
    if cvBias d then
      let r := satAdd acc.1.int bias.int
      (.ofInt r.1, acc.2 || r.2)
    else acc
  else
    let v := ld acc.1
    let α := f32 (df d 0x60 32)
    let sc := (operand x c 0x40).get x c.ctx [at' idx 2]
    let first := Config.elemNat x.seed (ek i 6) 1 % 2 = 1
    let a := if cvScale d && first then fmul α sc else α
    let b := if cvScale d && !first then fmul sc v else v
    let y := if cvBias d then axpby x.seed (ek i 0) a b (f32 (df d 0x64 32)) (ld bias) else fmul a b
    (activate x.seed (ek i 1) (cvFunc d) y, acc.2)

/-- The larger of two numbers of POOL_MAX: NaN wins, and +0 is larger than -0 (R140). -/
def poolMax2 (a b : Num) : Num :=
  if a.isNan || b.isNan then .nan else if a.lt b then b else if b.lt a then a else if a.sign then b else a

/-- One output of POOL_MAX (R140, R142). -/
def poolMaxOut (x : Half) (c : Cmd) (_ : Nat) (idx : List Nat) : Out :=
  let isInt := isIntFmt (operand x c 0x20).fmt
  match (window x c idx).map (fun v => if isInt then v else ld v) with
  | [] => (.zero, false)
  | a :: l => (l.foldl poolMax2 a, false)

/-- One output of POOL_AVG (R141, R142). -/
def poolAvgOut (x : Half) (c : Cmd) (i : Nat) (idx : List Nat) : Out :=
  let d := c.desc
  let w := window x c idx
  if w = [] then (.zero, false)
  else
    let n := if db d 0x4D 0 then cvKh d * cvKw d else w.length
    let sum : Out := if isIntFmt (operand x c 0x20).fmt then
        let r := isum x.seed i w
        (.ofInt r.1, 0 < r.2)
      else (fsum x.seed i (w.map ld), false)
    (fdiv x.seed (ek i 3) (ld sum.1) (ld (.ofInt n)), sum.2)

/-! ### Stripes and timing (R143, R144, R147) -/

/-- Output pixels of each stripe of R rows of width OW (R143). -/
def stripes (ow r : Nat) : List Nat :=
  if ow = 0 then []
  else if ow ≤ 512 then
    let rs := 512 / ow
    List.replicate (r / rs) (rs * ow) ++ (if r % rs = 0 then [] else [r % rs * ow])
  else
    let n := cdiv ow 512
    (List.replicate r (List.replicate (ow % n) (ow / n + 1) ++ List.replicate (n - ow % n) (ow / n))).flatten

/-- Bytes of an element in 1/32 byte, with the scale of an MX format (R144). -/
def bytes32 (f : Nat) : Nat := fmtBits f * 4 + (if isMx f then 1 else 0)

/-- The elements of K in each of a stripe's chunks, with the K-blocks of each (R144): `blocks` K-blocks divided among n chunks, larger
chunks first, the last K-block partial. -/
def chunkSizes (k kb blocks n : Nat) : List (Nat × Nat) :=
  let l := List.replicate (blocks % n) (blocks / n + 1) ++ List.replicate (n - blocks % n) (blocks / n)
  (l.foldl (fun (acc : List (Nat × Nat) × Nat) m => (acc.1 ++ [(m, min (m * kb) (k - acc.2))], acc.2 + m * kb)) ([], 0)).1

/-- Predicted cycles of a CONV (R147). The b of the weight tiles is that of R144 (log 10). -/
def convCycles (x : Half) (c : Cmd) : Nat :=
  let s := operand x c 0x20
  let w := operand x c 0x28
  let t := operand x c 0x38
  let b := bytes32 s.fmt
  let cls := (macPair s.fmt w.fmt).elim 8 (·.1)
  let kb := (if cls = 16 then 32 else if cls = 4 then 256 else 128) * (if w.sparse then 2 else 1)
  let least := if w.sparse then 72 else if cls = 16 then 32 else 64
  let blocks := cdiv (w.e 0) kb
  let chunksOf := fun m => let per := max 1 (393216 * 32 / (max 1 m * b * kb)); chunkSizes (w.e 0) kb blocks (max 1 (cdiv blocks per))
  let expand := fun (m : Nat) (k : Nat × Nat) => cdiv (m * k.2 * b) (256 * 32)
  let port := fun (m : Nat) (k : Nat × Nat) => expand m k + k.1 * cdiv (kb * 256 * b) (256 * 32)
  let one := fun m => let cs := chunksOf m
    ((cs.zip (cs.drop 1 ++ cs.take 1)).map (fun p => max (p.1.1 * max m least) (port m p.2))).sum + 24
  let st := stripes (t.e 0) (t.e 1)
  let m0 := st.headD 0
  200 + expand m0 ((chunksOf m0).headD (0, 0)) + t.e 3 * (w.e 2 * cdiv (w.e 1) 256) * (st.map one).sum + st.getLastD 0 + 64

/-- Predicted cycles of a pooling command (R147). -/
def poolCycles (x : Half) (c : Cmd) : Nat :=
  let s := operand x c 0x20
  let t := operand x c 0x38
  let pad := cdiv (s.e 2) s.lanes * s.lanes
  let taps := cvKh c.desc * cvKw c.desc
  200 + t.e 3 * ((stripes (t.e 0) (t.e 1)).map (fun m =>
    cdiv (m * pad * taps * max 32 (bytes32 s.fmt)) (256 * 32) + cdiv (m * pad) 256)).sum + 64

/-- The input rows that the stripes of a command read: for each, from the first tap of its first output row to the last tap of its last
one, clipped to the image (R143, R145). -/
def cvRows (d : Desc) (src dst : TD) : List Nat :=
  let r := dst.e 1
  let rs := if dst.e 0 ≤ 512 then 512 / max 1 (dst.e 0) else 1
  ((List.range (cdiv r rs)).flatMap (fun i =>
    let first := (cvRow0 d + i * rs) * cvSh d
    let n := (min rs (r - i * rs) - 1) * cvSh d + cvEh d
    ((List.range n).map (fun j => first + j)).filterMap (fun h =>
      if cvPt d ≤ h && h < cvPt d + src.e 1 then some (h - cvPt d) else none))).eraseDups

/-- What a command of unit 0x02 reads: its descriptors, the input rows of its stripes, and its other inputs whole (R145). -/
def cvReads (x : Half) (c : Cmd) : List (Nat × Nat) :=
  let s := operand x c 0x20
  let rows := cvRows c.desc s (operand x c 0x38)
  let rest := (cvOperands c.desc).filter (fun o => !o.2.2 && o.1 ≠ 1)
  (cvOperands c.desc).map (fun o => (df c.desc o.2.1 64, 64)) ++
    s.readsAt x c.ctx (s.indices.filter (fun i => rows.contains (at' i 1))) ++
    rest.flatMap (fun o => (operand x c o.2.1).reads x c.ctx)

/-- The staged output of a unit 0x02 command and its account (R99, R133, R149). -/
def cvWork (x : Half) (c : Cmd) (pred : Nat) (val : Nat → List Nat → Out) : Work :=
  let dst := operand x c 0x38
  let w := dst.write x c.ctx val
  let cyc := cyclesFrom x pred
  { writes := w.1, det1 := w.2, foot := dst.foot, outs := dst.planes, reads := cvReads x c
    det0 := engineDetail x cyc w.1.length false, predict := pred, cycles := cyc
    fail := if dOp c.desc = 0x01 && (operand x c 0x28).badNibble x c.ctx then
      some { bad := true, st := stMalformed, off := 0x20A } else none }

/-! ### Commits into the input of a running command (R146) -/

/-- The half as the fetch for output n of a command may have seen it: every byte of the input that another command's commit wrote while
the command ran as it stood before one of those commits or as it is now. -/
def Half.fetchView (x : Half) (c : Cmd) (n : Nat) : Half :=
  let vas := (c.raced.map (·.1)).eraseDups
  x.vputs c.ctx (vas.map (fun va =>
    let seen := (c.raced.filter (fun r => r.1 = va)).map (·.2) ++ [x.vbyte c.ctx va]
    (va, (seen[Config.elemNat x.seed (sub (ek n 9) va) 32 % seen.length]?).getD 0)))

/-- Stages the outputs of a unit 0x02 command again for the commits that its fetches may or may not have seen (R146). -/
def Half.refetch (x : Half) (c : Cmd) : Half :=
  if dUnit c.desc ≠ 2 || c.raced = [] || c.status = stEmpty then x
  else
    let val := if dOp c.desc = 0x01 then convOut else if dOp c.desc = 0x10 then poolMaxOut else poolAvgOut
    let w := (operand x c 0x38).write x c.ctx (fun n idx => val (x.fetchView c n) c n idx)
    x.took.modCmd c.id (fun k => { k with writes := w.1, det1 := BitVec.ofNat 32 w.2 })

/-- The checks of an operation of unit 0x02: those of the unit, then its own. -/
def cvAll (chk : Half → Cmd → List Chk) (x : Half) (c : Cmd) : List Chk := cvChecks x c ++ chk x c

/-- The work of an operation of unit 0x02. -/
def cvRun (pred : Half → Cmd → Nat) (val : Half → Cmd → Nat → List Nat → Out) (x : Half) (c : Cmd) (_ : Option Nat) : Work :=
  cvWork x c (pred x c) (val x c)

/-- The start of a command of unit 0x02. -/
def convStart (h : HalfId) (cmd op : Nat) (chk : Half → Cmd → List Chk) (pred : Half → Cmd → Nat)
    (val : Half → Cmd → Nat → List Nat → Out) (s : State) : State :=
  s.mod h (fun x => x.start cmd 2 op (fun _ _ => true) (cvAll chk) (cvRun pred val))

/-- CONV (R137). -/
def execConv (h : HalfId) (cmd : Nat) (s : State) : Host.Outcome State Fault Refusal :=
  .next (convStart h cmd 0x01 convChecks convCycles convOut s)

/-- POOL_MAX (R140). -/
def execPoolMax (h : HalfId) (cmd : Nat) (s : State) : Host.Outcome State Fault Refusal :=
  .next (convStart h cmd 0x10 poolChecks poolCycles poolMaxOut s)

/-- POOL_AVG (R141). -/
def execPoolAvg (h : HalfId) (cmd : Nat) (s : State) : Host.Outcome State Fault Refusal :=
  .next (convStart h cmd 0x11 poolChecks poolCycles poolAvgOut s)

end Sys2Proof.Machine
end

