-- ==== Sys2Proof/Machine/Pages.lean ====
section
/-! DEFINITION. TPT_MAP and TPT_UNMAP: the map records, their checks before any page changes, and the change itself
(spec/12_memory_system.md R319 to R324). -/

namespace Sys2Proof.Machine

/-- VA of a map record (R320). -/
def recVa (r : BitVec 256) : Nat := fld r 0 64
/-- PAGES. -/
def recPages (r : BitVec 256) : Nat := fld r 64 32
/-- KIND: 0 NEW, 1 SHARE. -/
def recKind (r : BitVec 256) : Nat := fld r 96 8
/-- READ_ONLY. -/
def recRo (r : BitVec 256) : Bool := bitAt r 104
/-- STACK. -/
def recStack (r : BitVec 256) : Nat := fld r 105 2
/-- SYNC. -/
def recSync (r : BitVec 256) : Bool := bitAt r 107
/-- REPLACE. -/
def recReplace (r : BitVec 256) : Bool := bitAt r 108
/-- SHARE_VA. -/
def recShareVa (r : BitVec 256) : Nat := fld r 128 64
/-- SHARE_CTX. -/
def recShareCtx (r : BitVec 256) : Nat := fld r 192 12

/-- The virtual pages that a record names. -/
def recPageList (r : BitVec 256) : List Nat := (List.range (recPages r)).map (fun i => recVa r / pageBytes + i)

/-- The records of a message: the payload, or the input buffer of the long form (R320). -/
def Half.mapRecords (x : Half) (m : Msg) : List (BitVec 256) :=
  if msgLong m then
    (List.range (inLen m / 32)).map (fun i => BitVec.ofNat 256 (x.vnat (msgCtx m) (inAddr m + 32 * i) 32))
  else [m.extractLsb' 128 256]

/-- FAULT_OFFSET of a field: its place in a short message, 0x10 for any record of a long one (R321). -/
def recOff (lng : Bool) (off : Nat) : Nat := if lng then 0x10 else off

/-- The page holds a ring or the header of a queue of the context (R52, R321). -/
def Half.ringPage (x : Half) (ctx page : Nat) : Bool :=
  x.sched.queues.any (fun q => q.ctx = ctx &&
    (page ∈ pagesOf q.cmdRing (2 ^ q.log2 * 128) || page ∈ pagesOf q.cplRing (2 ^ q.log2 * 32) || page ∈ pagesOf q.header 64))

/-- The range a record names fits in the 48-bit space. -/
def recFits (va pages : Nat) : Bool := va + pages * pageBytes ≤ vaLimit

/-- Checks of a record that both messages share (R321). -/
def recCommon (lng : Bool) (r : BitVec 256) : List Chk :=
  [{ bad := decide (recVa r % pageBytes ≠ 0) || decide (vaLimit ≤ recVa r), st := stMalformed, off := recOff lng 0x10 },
   { bad := decide (recPages r = 0) || !(recFits (recVa r) (recPages r)), st := stMalformed, off := recOff lng 0x18 }]

/-- The pages of a record worth looking at: none when its range is malformed. -/
def recPagesOk (r : BitVec 256) : List Nat := if recFits (recVa r) (recPages r) then recPageList r else []

/-- Checks of one TPT_MAP record (R320, R321). -/
def Half.mapChecks (x : Half) (lng : Bool) (ctx client : Nat) (r : BitVec 256) : List Chk :=
  let share := recKind r = 1
  let o := recOff lng
  let src := fun i => x.tptOf (recShareCtx r) (recShareVa r / pageBytes + i)
  let fits := recFits (recShareVa r) (recPages r)
  recCommon lng r ++
  [{ bad := decide share && decide (client ≠ 0) && (x.ctx (recShareCtx r)).any (fun k => k.client ≠ client), st := stDenied
     off := o 0x28 },
   { bad := decide (1 < recKind r), st := stMalformed, off := o 0x1C },
   { bad := decide (fld r 109 3 ≠ 0) || decide (recKind r = 0 ∧ recStack r = 3) || decide (share ∧ recStack r ≠ 0) ||
       (recSync r && recRo r), st := stMalformed, off := o 0x1D },
   { bad := decide (fld r 112 16 ≠ 0), st := stMalformed, off := o 0x1E },
   { bad := decide (recKind r = 0 ∧ recShareVa r ≠ 0), st := stMalformed, off := o 0x20 },
   { bad := decide (recKind r = 0 ∧ recShareCtx r ≠ 0) || decide (fld r 204 4 ≠ 0), st := stMalformed, off := o 0x28 },
   { bad := decide (fld r 208 48 ≠ 0), st := stMalformed, off := o 0x2A },
   { bad := !recReplace r && (recPagesOk r).any (fun p => (x.tptOf ctx p).isSome), st := stMalformed, off := o 0x10 },
   { bad := recReplace r && (recPagesOk r).any (fun p => x.ringPage ctx p), st := stMalformed, off := o 0x10 },
   { bad := decide share && (x.ctx (recShareCtx r)).isNone, st := stMalformed, off := o 0x28 },
   { bad := decide share && (decide (recShareVa r % pageBytes ≠ 0) || !fits ||
       (List.range (recPages r)).any (fun i => (src i).isNone)), st := stMalformed, off := o 0x20 },
   { bad := decide share && fits && (List.range (recPages r)).any (fun i => (src i).any (fun t => t.isSync ≠ recSync r))
     st := stMalformed, off := o 0x1D }]

/-- Two records of a message name one page: reported at VA of the later (R321). -/
def overlapChk (lng : Bool) : List (BitVec 256) → List Chk
  | [] => []
  | r :: rs => { bad := rs.any (fun q => recVa r < recVa q + recPages q * pageBytes && recVa q < recVa r + recPages r * pageBytes)
                 st := stMalformed, off := recOff lng 0x10 } :: overlapChk lng rs

/-- Checks of the record list as a whole: its length and its number of pages (R320). -/
def listChecks (m : Msg) (rs : List (BitVec 256)) : List Chk :=
  [{ bad := msgLong m && (decide (inLen m = 0) || decide (inLen m % 32 ≠ 0)), st := stMalformed, off := 0x18 },
   { bad := decide (65536 < (rs.map recPages).foldl (· + ·) 0), st := stLimit, off := recOff (msgLong m) 0x18 }]

/-- The stack of the i-th page of a NEW record: alternate from stack 0, stack 0, or stack 1 (R320). -/
def recStackOf (r : BitVec 256) (i : Nat) : Nat := if recStack r = 0 then i % 2 else recStack r - 1

/-- Frames that the NEW pages of a message need in a stack. -/
def framesNeeded (rs : List (BitVec 256)) (stack : Nat) : Nat :=
  (rs.map (fun r => if recKind r = 0 && !recSync r then
    ((List.range (recPages r)).filter (fun i => recStackOf r i = stack)).length else 0)).foldl (· + ·) 0

/-- Sync pages that the NEW pages of a message need. -/
def syncNeeded (rs : List (BitVec 256)) : Nat :=
  (rs.map (fun r => if recKind r = 0 && recSync r then recPages r else 0)).foldl (· + ·) 0

/-- Sync pages in use. -/
def Half.syncUsed (x : Half) : List Nat :=
  (x.mem.tpt.filterMap (fun t => match t.dest with
    | .sync p => some p
    | .frame _ _ => none)).eraseDups

/-- Pages of a message that have no Tensor Page Table entry yet (R321). -/
def Half.entriesNeeded (x : Half) (ctx : Nat) (rs : List (BitVec 256)) : Nat :=
  (rs.flatMap recPagesOk |>.filter (fun p => (x.tptOf ctx p).isNone)).length

/-- Too few free entries or frames, or a 17th sync page, counted as they stand before the message (R321). -/
def Half.mapBusy (x : Half) (ctx : Nat) (rs : List (BitVec 256)) : Chk :=
  { bad := decide (262144 < x.mem.tpt.length + x.entriesNeeded ctx rs) || decide (x.freeFrames 0 < framesNeeded rs 0) ||
      decide (x.freeFrames 1 < framesNeeded rs 1) || decide (16 < x.syncUsed.length + syncNeeded rs)
    st := stBusy, retry := some 10000 }

/-- The started commands of a context that a change of the page makes faulty: those that read or write it, and those that
wait on a word of it (R324, spec/11_scheduling_and_sync.md R296). -/
def Half.pageFaults (x : Half) (ctx : Nat) (pages : List Nat) : List Nat :=
  let touches := fun (r : Nat × Nat) => (pagesOf r.1 r.2).any (fun p => p ∈ pages)
  let on := fun va => (va / pageBytes) ∈ pages && ((x.tptAt ctx va).any Tpt.isSync)
  (x.sched.cmds.filter (fun c => c.ctx = ctx &&
    ((c.st ≠ .waiting && (c.reads.any touches || c.held.any touches)) ||
     (c.checked && (((dPre c.desc = 1 || dPre c.desc = 2) && on (dPreVa c.desc)) ||
       ((dPost c.desc = 1 || dPost c.desc = 2) && on (dPostVa c.desc)) || (usesSyncVa c.desc && on (df c.desc 0x20 64))))))).map (·.id)

/-- What else a change of pages ends: hot-row entries and residents of the pages, windows over them, and inbound slots bound
to a word of them (R193, R339, spec/04 R122, spec/11 R309). -/
def Half.loosen (x : Half) (ctx : Nat) (pages : List Nat) : Half :=
  let overdue := fun va n => (pagesOf va n).any (fun p => p ∈ pages)
  { x with
    sched := { x.sched with
      hot := { x.sched.hot with entries := x.sched.hot.entries.filter (fun e => !(e.ctx = ctx && e.ranges.any (fun r => overdue r.1 r.2))) }
      residents := x.sched.residents.filter (fun r => !(r.ctx = ctx && overdue r.base r.foot)) }
    mem := { x.mem with
      windows := x.mem.windows.filter (fun w => !(w.ctx = ctx && overdue w.va w.bytes))
      inbound := x.mem.inbound.filter (fun i => match i.target with
        | .word va => !(i.ctx = ctx && (va / pageBytes) ∈ pages)
        | .huddle _ => true) } }

/-- Ends the faulting commands with ST_MALFORMED and tears the context down, when there are any (R295, R324). -/
def Half.faultAll (x : Half) (ctx : Nat) (ns : List Nat) : Half :=
  if ns = [] then x
  else (ns.foldl (fun y n => y.took.endCmd n stMalformed (Config.freeNat y.seed 16 % 2 ^ 16)) x).teardown ctx

/-- Adds one mapping, in place of the page's old one. -/
def Half.putTpt (x : Half) (t : Tpt) : Half :=
  { x with mem := { x.mem with tpt := x.mem.tpt.filter (fun k => !(k.ctx = t.ctx && k.page = t.page)) ++ [t] } }

/-- Maps one page of a record. A NEW frame is zero-filled and not one of those in use before the message (R321, R322). -/
def mapPage (x0 : Half) (ctx : Nat) (r : BitVec 256) (y : Half) (i : Nat) : Half :=
  let page := recVa r / pageBytes + i
  if recKind r = 1 then
    match x0.tptOf (recShareCtx r) (recShareVa r / pageBytes + i) with
    | some t => y.putTpt { ctx := ctx, page := page, dest := t.dest, ro := t.ro || recRo r }
    | none => y
  else if recSync r then
    match lowestFree (x0.syncUsed ++ y.syncUsed) 0 16 with
    | some p =>
      let z := { y with mem := { y.mem with sync := y.mem.sync.filter (fun w => w.page ≠ p) } }
      z.putTpt { ctx := ctx, page := page, dest := .sync p, ro := false }
    | none => y
  else
    let stack := recStackOf r i
    let used := x0.usedFrames stack ++ y.usedFrames stack
    match lowestFree used reservedFrames (used.length + 1) with
    | some f =>
      let z := { y with mem := { y.mem with
        cells := memClear y.mem.cells (physAddr stack f 0) pageBytes
        bad := y.mem.bad.filter (fun b => !(b.stack = stack && b.frame = f)) } }
      z.putTpt { ctx := ctx, page := page, dest := .frame stack f, ro := recRo r }
    | none => y

/-- The pages of the records that are mapped already, so that a REPLACE remaps them. -/
def Half.remapped (x : Half) (ctx : Nat) (rs : List (BitVec 256)) : List Nat :=
  (rs.flatMap recPageList).filter (fun p => (x.tptOf ctx p).isSome)

/-- Takes a whole TPT_MAP into effect (R321, R322, R324). -/
def Half.mapAll (x : Half) (ctx : Nat) (rs : List (BitVec 256)) : Half :=
  let old := x.remapped ctx rs
  let bad := x.pageFaults ctx old
  let y := x.loosen ctx old
  let y := rs.foldl (fun y r => (List.range (recPages r)).foldl (mapPage x ctx r) y) y
  let y := y.removeTpt (fun _ => false)
  (y.faultAll ctx bad).settle

/-- Takes a whole TPT_UNMAP into effect (R321, R324). -/
def Half.unmapAll (x : Half) (ctx : Nat) (rs : List (BitVec 256)) : Half :=
  let pages := rs.flatMap recPageList
  let bad := x.pageFaults ctx pages
  let y := (x.loosen ctx pages).removeTpt (fun t => t.ctx = ctx && t.page ∈ pages)
  (y.faultAll ctx bad).settle

/-- Outbound payload of both messages on ST_OK (R321, R40). -/
def Half.mapReply (x : Half) (m : Msg) : List (Nat × Nat × Nat) :=
  [(0x04, 32, 262144 - x.mem.tpt.length), (0x08, 32, x.freeFrames 0 + x.freeFrames 1)] ++
    (if msgLong m then [(0x00, 32, 0)] else [])

/-- TPT_MAP (R320 to R322). -/
def execTptMap (h : HalfId) (slot : Nat) (s : State) : Host.Outcome State Fault Refusal :=
  .next (s.runMsg h slot 0x0208 { lens := [0x20], long := true }
    (fun x m =>
      let rs := x.mapRecords m
      listChecks m rs ++ rs.flatMap (x.mapChecks (msgLong m) (msgCtx m) (msgClient m)) ++ overlapChk (msgLong m) rs ++
        [x.mapBusy (msgCtx m) rs])
    (fun t m =>
      let x := (t.half h).mapAll (msgCtx m) ((t.half h).mapRecords m)
      .done (t.setHalf h x) stOk (x.mapReply m)))

/-- Checks of one TPT_UNMAP record: VA and PAGES only, every other field reserved (R320, R321). -/
def Half.unmapChecks (x : Half) (lng : Bool) (ctx : Nat) (r : BitVec 256) : List Chk :=
  let o := recOff lng
  recCommon lng r ++
  [{ bad := decide (fld r 96 8 ≠ 0), st := stMalformed, off := o 0x1C },
   { bad := decide (fld r 104 8 ≠ 0), st := stMalformed, off := o 0x1D },
   { bad := decide (fld r 112 16 ≠ 0), st := stMalformed, off := o 0x1E },
   { bad := decide (fld r 128 64 ≠ 0), st := stMalformed, off := o 0x20 },
   { bad := decide (fld r 192 16 ≠ 0), st := stMalformed, off := o 0x28 },
   { bad := decide (fld r 208 48 ≠ 0), st := stMalformed, off := o 0x2A },
   { bad := (recPagesOk r).any (fun p => (x.tptOf ctx p).isNone || x.ringPage ctx p), st := stMalformed, off := o 0x10 }]

/-- TPT_UNMAP (R320, R321, R324). -/
def execTptUnmap (h : HalfId) (slot : Nat) (s : State) : Host.Outcome State Fault Refusal :=
  .next (s.runMsg h slot 0x0209 { lens := [0x20], long := true }
    (fun x m =>
      let rs := x.mapRecords m
      listChecks m rs ++ rs.flatMap (x.unmapChecks (msgLong m) (msgCtx m)) ++ overlapChk (msgLong m) rs)
    (fun t m =>
      let x := (t.half h).unmapAll (msgCtx m) ((t.half h).mapRecords m)
      .done (t.setHalf h x) stOk (x.mapReply m)))

end Sys2Proof.Machine
end

