-- ==== Sys2Proof/Machine/Integrity.lean ====
section
/-! DEFINITION. Memory integrity: uncorrectable and corrected errors, scrubbing, frame retirement, and map-out
(spec/12_memory_system.md R325 to R336). -/

namespace Sys2Proof.Machine

/-- A replace-board advisory (R331, R334): counted for SAF_STATUS and logged. -/
def Half.advisory (x : Half) (loc : Nat) : Half :=
  ({ x with links := { x.links with advisories := x.links.advisories + 1 } }).memErr 0x09 0 loc none

/-- The owner of a block of a frame: the context and virtual address of the first mapping (R333). -/
def Half.blockOwner (x : Half) (stack frame block : Nat) : Option (Nat × Nat) :=
  (x.mem.tpt.find? (fun t => t.dest = .frame stack frame)).map (fun t => (t.ctx, t.page * pageBytes + block * 64))

/-- Starts the retirement of a frame (R331): a free frame is retired at once, a mapped one moves to a free frame of its stack,
and where there is none an advisory is logged. -/
def Half.retireFrame (x : Half) (stack frame : Nat) : Half :=
  if (stack, frame) ∈ x.mem.retired || x.mem.moves.any (fun m => m.stack = stack && m.old = frame) then x
  else if !(x.mem.tpt.any (fun t => t.dest = .frame stack frame)) then
    ({ x with mem := { x.mem with retired := (stack, frame) :: x.mem.retired } }).memErr 0x05 0 (stack * 256) none
  else match x.freeFrame stack with
    | some n => { x with mem := { x.mem with moves := x.mem.moves ++ [{ stack := stack, old := frame, new := n }] } }
    | none => x.advisory (stack * 256)

/-- FRAME_MOVE_COMPLETE: the frame's blocks stand in the new frame as raw codewords, every mapping is repointed, the frame is
retired and logged (R331). -/
def Half.finishMove (x : Half) : Half :=
  match x.mem.moves with
  | [] => x
  | m :: rest =>
    let lo := physAddr m.stack m.old 0
    let nlo := physAddr m.stack m.new 0
    let cells := (x.mem.cells.filter (fun c => lo ≤ c.1 && c.1 < lo + pageBytes)).foldl
      (fun acc c => memWrite acc (nlo + (c.1 - lo)) c.2) (memClear (memClear x.mem.cells nlo pageBytes) lo pageBytes)
    let x := x.moveLines lo nlo
    let y : Half := { x with mem := { x.mem with
      cells := cells, moves := rest, retired := (m.stack, m.old) :: x.mem.retired
      tpt := x.mem.tpt.map (fun (t : Tpt) => if t.dest = .frame m.stack m.old then { t with dest := .frame m.stack m.new } else t)
      bad := x.mem.bad.map (fun (b : BadBlock) => if b.stack = m.stack && b.frame = m.old then { b with frame := m.new } else b) } }
    (y.memErr 0x05 0 (m.stack * 256) none).settle

/-- FRAME_MOVE_COMPLETE (R331). -/
def execFrameMoveComplete (h : HalfId) (s : State) : Host.Outcome State Fault Refusal := .next (s.mod h Half.finishMove)

/-- A block's codeword is uncorrectable from now on, and its stack's controller keeps it among its last 1,024 for health tracking
for 24 h (R328, R330). -/
def Half.markBad (x : Half) (stack frame block : Nat) (line : Option Nat) : Half :=
  let b : BadBlock := { stack := stack, frame := frame, block := block, line := line }
  let day := 86400000000000
  let hl := (x.mem.health.filter (fun k => x.now < k.time + day)).filter
    (fun k => !(k.stack = stack && k.frame = frame && k.block = block))
  { x with mem := { x.mem with
      bad := if x.mem.bad.any (fun k => k.stack = stack && k.frame = frame && k.block = block) then x.mem.bad else b :: x.mem.bad
      health := hl.filter (fun k => k.stack ≠ stack) ++ ringPush 1024 (hl.filter (fun k => k.stack = stack)) { stack := stack, frame := frame, block := block, time := x.now } } }

/-- Whether a running command reads the 64-byte block at a virtual address. -/
def Cmd.readsBlock (c : Cmd) (va : Nat) : Bool := c.reads.any (fun r => (blocksOf r.1 r.2).contains (va / 64 * 64))

/-- An uncorrectable block in the decode state of a stream leaves the stream awaiting an IRAP picture (spec/08_input_pipeline.md
R229). -/
def Half.streamLost (x : Half) (ctx va : Nat) : Half :=
  x.modPipe (fun p => { p with bindings := p.bindings.map (fun (b : Binding) =>
    if b.ctx = ctx && b.stateVa ≠ 0 && b.stateVa ≤ va && va < b.stateVa + b.stateBytes then { b with awaitIrap := true } else b) })

/-- An uncorrectable block that a fusion step finds among its grid's cells is rewritten as unknown (spec/09_fusion_engine.md R253). -/
def Half.gridLost (x : Half) (c : Cmd) (va : Nat) : Half :=
  match x.sched.fusion with
  | some f =>
    if dUnit c.desc = 6 && c.ctx = f.ctx && f.gridVa + 64 ≤ va && va < f.gridVa + 64 + f.gridW * f.gridH then
      x.commitBytes f.ctx ((List.range 64).map (fun i => (va + i, 255)))
    else x
  | none => x

/-- The health list holds the block, which has been written since: its read-back is due. Each entry is dropped after 24 h (R330). -/
def Half.readBackDue (x : Half) (st f b : Nat) : Bool :=
  x.mem.health.any (fun k => k.written && k.stack = st && k.frame = f && k.block = b && x.now < k.time + 86400000000000)

/-- MEMORY_UE_DETECTED (R329, R330): the consuming command ends with ST_DATA_LOST and its context's other commands are
discarded; a failed read-back of a block of the health list, made after the block is next written, retires the frame and, as in Table — Example uncorrectable block, writes
no entry of its own and fails no reader (log 47). -/
def execMemoryUeDetected (h : HalfId) (by' : UeReader) (s : State) : Host.Outcome State Fault Refusal :=
  .next (s.mod h (fun x => match by' with
    | .command n va =>
      match x.cmd n with
      | none => x
      | some c => match x.blockAt c.ctx va with
        | some (st, f, b) =>
          if c.st ≠ .waiting && c.readsBlock va then
            ((((x.markBad st f b none).dataLost c (va / 64 * 64)).streamLost c.ctx (va / 64 * 64)).gridLost c (va / 64 * 64)).settle
          else x
        | none => x
    | .readBack st f b =>
      if x.readBackDue st f b then x.retireFrame st f else x))

/-- In-service limits of map-out: 2 slices, and 2 pseudo-channels of a stack (R334). -/
def Half.mapOutRoom (x : Half) (pc : Bool) (idx : Nat) : Bool :=
  if pc then (x.mem.pcsOut.filter (fun p => p / 32 = idx / 32)).length < 2 else x.mem.slicesOut.length < 2

/-- The Captain's own map-out under R327: beyond the limits it logs an advisory and the element stays in service; one map-out
runs at a time (R334). -/
def Half.selfMapOut (x : Half) (pc : Bool) (idx : Nat) : Half :=
  if (if pc then idx ∈ x.mem.pcsOut else idx ∈ x.mem.slicesOut) || x.mem.mapOut.isSome then x
  else if x.mapOutRoom pc idx then ({ x with mem := { x.mem with mapOut := some { pc := pc, idx := idx } } } : Half).cause 5 true
  else x.advisory (if pc then idx / 32 * 256 + idx % 32 else idx)

/-- A threshold of R327 in the active configuration. -/
def Half.memThr (x : Half) (i : Nat) : Nat := x.cfgb.memThresh[i]?.getD 0

/-- Corrected errors kept within a window of the site. -/
def Half.corrWithin (x : Half) (w loc ns : Nat) : List Corr :=
  x.mem.corr.filter (fun k => k.where' = w && k.loc = loc && x.now < k.time + ns)

/-- Keeps a corrected error for the thresholds; those older than 24 h are forgotten. -/
def Half.keepCorr (x : Half) (k : Corr) : Half :=
  { x with mem := { x.mem with corr := x.mem.corr.filter (fun c => x.now < c.time + 86400000000000) ++ [k] } }

/-- A corrected DRAM error and what its repetition brings (R327): 16 distinct blocks of a frame within 24 h retire it; 1,000
errors of a pseudo-channel within 1 h, or the same DQ pin in 64 blocks within 1 h, map it out. -/
def Half.corrDram (x : Half) (st f b pin : Nat) : Half :=
  let loc := x.dramLoc st f b
  let y := (x.memErr 0x01 0 loc (x.blockOwner st f b)).keepCorr { where' := 0, loc := loc, unit := f, block := b, pin := pin, time := x.now }
  let hour := y.corrWithin 0 loc 3600000000000
  let blocks := ((y.mem.corr.filter (fun k => k.where' = 0 && k.loc / 256 = st && k.unit = f &&
    y.now < k.time + 86400000000000)).map (·.block)).eraseDups
  let y := if y.memThr 1 ≤ blocks.length then y.retireFrame st f else y
  let pins := ((hour.filter (fun k => k.pin = pin)).map (fun k => (k.unit, k.block))).eraseDups
  if y.memThr 2 ≤ hour.length || y.memThr 3 ≤ pins.length then y.selfMapOut true (st * 32 + loc % 256) else y

/-- A corrected tile-cache error (R327): a word corrected 3 times within one scrub period of 10 s disables its line, and more
than 1 % of the 250,000 lines of a slice (16 MB in lines of 64 bytes, R314) disabled map the slice out. -/
def Half.corrCache (x : Half) (sl line word : Nat) : Half :=
  let y := (x.memErr 0x03 1 sl none).keepCorr { where' := 1, loc := sl, unit := line, block := word, time := x.now }
  let n := ((y.corrWithin 1 sl 10000000000).filter (fun k => k.unit = line && k.block = word)).length
  if y.memThr 0 ≤ n && (sl, line) ∉ y.mem.lines then
    let z := (({ y with mem := { y.mem with lines := (sl, line) :: y.mem.lines } } : Half).dropWay sl line).memErr 0x06 1 sl none
    if 250000 * z.memThr 4 < 100 * (z.mem.lines.filter (fun l => l.1 = sl)).length then z.selfMapOut false sl else z
  else y

/-- CORRECTED_ERROR: corrected data are returned and the location is rewritten, so no byte changes (R327). -/
def execCorrectedError (h : HalfId) (site : CorrSite) (s : State) : Host.Outcome State Fault Refusal :=
  .next (s.mod h (fun x => match site with
    | .dram st f b pin => x.corrDram st f b pin
    | .cache sl line word => x.corrCache sl line word
    | .scratch n => (x.modEngine n (fun e => { e with scratchCE := satInc e.scratchCE })).memErr 0x03 2 n none
    | .store w loc => x.memErr 0x03 w loc none))

/-- SCRUB_READ (R326, R329): scrubbing stops in HIBERNATE; an uncorrectable block is logged and fails nothing, and in a free
frame retires the frame. -/
def execScrubRead (h : HalfId) (stack frame block : Nat) (found : Scrub) (s : State) : Host.Outcome State Fault Refusal :=
  .next (s.mod h (fun x =>
    if x.pow.st = .hibernate then x
    else match found with
      | .clean => x
      | .corrected pin => x.corrDram stack frame block pin
      | .uncorrectable =>
        let y := (x.markBad stack frame block none).memErr 0x02 0 (x.dramLoc stack frame block) (x.blockOwner stack frame block)
        if x.frameUsed stack frame then y else y.retireFrame stack frame))

/-- An engine resets: its running commands end with ST_KILLED, what is resident on the Quick lane engine is lost, and it reruns its
warm-up before it takes further work (spec/04_tensor_engines.md R113, spec/20_power_thermal_reset.md R514). -/
def Half.engineReset (x : Half) (n : Nat) : Half :=
  let e := x.engine n
  let y := x.endCmds ((x.sched.cmds.filter (fun c => c.engine = some n && c.st ≠ .waiting)).map (·.id)) stKilled
  let y : Half := if e.isQuickLane then { y with sched := { y.sched with residents := [] } } else y
  y.modEngine n (fun k => { k with
    st := .resetting, back := if e.st = .resetting then e.back else e.st, rerunNext := true, warmRunning := false })

/-- SRAM_UNCORRECTABLE by where the error lies (R332, R113, R196, R253, R281). The kind logged for the sites on which R332 and
the unit's chapter name no entry is 0x04 (log 26). -/
def execSramUncorrectable (h : HalfId) (site : SramSite) (s : State) : Host.Outcome State Fault Refusal :=
  .next (s.mod h (fun x => match site with
    | .cleanLine sl => x.memErr 0x03 1 sl none
    | .dirtyLine sl c va => match x.blockAt c va with
      | some (st, f, b) =>
        if x.dirtyIn sl st f b then (x.markBad st f b (some sl)).memErr 0x04 1 sl (some (c, va)) else x
      | none => x
    | .staged sl n => match x.cmd n with
      | some c => if c.st = .waiting then x else ((x.memErr 0x04 1 sl none).endCmd n stKilled 0).settle
      | none => x
    | .tptEntry _ => x.memErr 0x04 6 0 none
    | .syncWord sl p w =>
      let y := x.memErr 0x04 1 sl none
      let seq := x.mem.logSeq.toNat
      let on := fun (c : Cmd) va => x.syncAt c.ctx va = some (p, w)
      let hit := x.sched.cmds.filter (fun c =>
        (c.checked && c.st = .waiting && (dPre c.desc = 1 || dPre c.desc = 2) && !c.preDone && on c (dPreVa c.desc)) ||
        (c.postSeq ≠ 0 && on c (dPostVa c.desc)) ||
        (c.st = .running && usesSyncVa c.desc && dOp c.desc ≤ 5 && on c (df c.desc 0x20 64)))
      let z := hit.foldl (fun z c => z.endCmd c.id stDataLost seq) y
      (z.setSync { page := p, word := w }).settle
    | .scratch n => ((x.modEngine n (fun e => { e with scratchUE := satInc e.scratchUE })).engineReset n).settle
    | .hotRow sl c va =>
      ({ x with sched := { x.sched with hot := { x.sched.hot with
        entries := x.sched.hot.entries.filter (fun e => !(e.ctx = c && e.va = va)) } } }).memErr 0x03 1 sl none
    | .fuseParams =>
      let seq := x.mem.logSeq.toNat
      let y := x.memErr 0x04 3 0 none
      let steps := y.sched.cmds.filter (fun c => dUnit c.desc = 6 && dOp c.desc = 0x10 && c.st ≠ .waiting)
      let z := steps.foldl (fun z c => z.endCmd c.id stDataLost seq) y
      (steps.foldl (fun z c => z.endCmds (z.cmdsOf c.ctx) stDiscarded) z).settle
    | .track id =>
      let seq := x.mem.logSeq.toNat
      let y := x.memErr 0x04 3 0 none
      let y : Half := { y with sched := { y.sched with fusion := y.sched.fusion.map (fun (f : Fusion) =>
        { f with tracks := f.tracks.filter (fun t => t.id.toNat ≠ id) }) } }
      let steps := (y.sched.cmds.filter (fun c => dUnit c.desc = 6 && dOp c.desc = 0x10 && c.st ≠ .waiting)).map (·.id)
      (steps.foldl (fun z n => z.endCmd n stDataLost seq) y).settle
    | .planTree | .planFamily _ =>
      let seq := x.mem.logSeq.toNat
      let y := x.memErr 0x04 4 0 none
      let y : Half := { y with sched := { y.sched with plan := y.sched.plan.map (fun (p : Plan) => match site with
        | .planFamily true => { p with family := [], copy := [] }
        | .planFamily false => { p with family := [] }
        | _ => { p with tree := [], queue := [], run := none }) } }
      let steps := (y.sched.cmds.filter (fun c => dUnit c.desc = 7 && dOp c.desc = 0x10 && c.st ≠ .waiting)).map (·.id)
      (steps.foldl (fun z n => z.endCmd n stDataLost seq) y).settle))

/-- Checks of MAP_OUT (R334). -/
def mapOutChecks (x : Half) (m : Msg) : List Chk :=
  let kind := pay m 0 8
  let idx := pay m 1 8
  let act := pay m 2 8
  [{ bad := decide (1 < kind), st := stMalformed, off := 0x10 },
   { bad := decide (kind = 0 ∧ 11 < idx) || decide (kind = 1 ∧ 63 < idx), st := stMalformed, off := 0x11 },
   { bad := decide (1 < act), st := stMalformed, off := 0x12 },
   { bad := decide (kind = 1 ∧ act = 1), st := stUnsupported },
   { bad := decide (act = 0) && !(x.mapOutRoom (kind = 1) idx) && !(decide (kind = 0) && decide (idx ∈ x.mem.slicesOut)) &&
       !(decide (kind = 1) && decide (idx ∈ x.mem.pcsOut)), st := stLimit, off := 0x11 },
   { bad := x.mem.mapOut.isSome, st := stBusy, retry := some 100000 },
   { bad := decide (kind = 0) && x.mem.bad.any (fun b => b.line = some idx), st := stBusy }]

/-- MAP_OUT: the map-out or restore is accepted and takes effect at the next frame boundary (R334 to R336); one that finds the
element already so completes with nothing changed (log 23). -/
def execMapOut (h : HalfId) (slot : Nat) (s : State) : Host.Outcome State Fault Refusal :=
  .next (s.runMsg h slot 0x0404 { lens := [3] } mapOutChecks
    (fun t m =>
      let pc := pay m 0 8 = 1
      let idx := pay m 1 8
      let restore := pay m 2 8 = 1
      let x := t.half h
      let out := if pc then decide (idx ∈ x.mem.pcsOut) else decide (idx ∈ x.mem.slicesOut)
      if out ≠ restore then .done t stOk []
      else .wait (t.setHalf h (({ x with mem := { x.mem with
        mapOut := some { pc := pc, idx := idx, restore := restore, slot := some slot } } } : Half).cause 5 true))))

/-- Entries that the hot-row directory holds with the slices in service (spec/07 R190). -/
def Half.hotCap (x : Half) : Nat := 65536 * (12 - x.mem.slicesOut.length) / 12

/-- Entries that a row takes (spec/07 R190). -/
def HotEntry.size (e : HotEntry) : Nat := cdiv e.len 256

/-- The partition of a client: its number and its entries, or none when the directory is divided and the client is assigned to
no partition (R192). A divided directory is divided evenly (log 7). -/
def Half.hotPart (x : Half) (client : Nat) : Option (Nat × Nat) :=
  let ps := x.cfgb.hotParts
  if ps = [] then some (0, x.hotCap)
  else (ps.findIdx? (fun l => l.contains client)).map (fun i => (i, x.hotCap / ps.length))

/-- Entries in use in a partition. -/
def partUsed (l : List HotEntry) (p : Nat) : Nat := ((l.filter (fun e => e.part = p)).map HotEntry.size).sum

/-- The clock sweep (R191): it passes over other partitions' entries and over any hit since its last visit, and evicts until the
partition has room. -/
def sweep (p room : Nat) : Nat → List HotEntry → List HotEntry
  | 0, l => l
  | _ + 1, [] => []
  | n + 1, e :: l =>
    if partUsed (e :: l) p ≤ room then e :: l
    else if e.part ≠ p then sweep p room n (l ++ [e])
    else if e.hit then sweep p room n (l ++ [{ e with hit := false }])
    else sweep p room n l

/-- Every partition within the entries that the slices in service leave it (spec/07 R190, R193). -/
def Half.fitHot (x : Half) (l : List HotEntry) : List HotEntry :=
  let n := max 1 x.cfgb.hotParts.length
  (List.range n).foldl (fun (l : List HotEntry) p => sweep p (x.hotCap / n) (2 * l.length + 1) l) (l.filter (fun e => e.part < n))

/-- The step of a map-out at a frame boundary: the slice or pseudo-channel leaves service, or the slice returns; the entry is
logged and the message completes (R335, R336, spec/07 R193). -/
def Half.mapOutBoundary (x : Half) : Half :=
  match x.mem.mapOut with
  | none => x
  | some j =>
    let y : Half := { x with mem := { x.mem with
      mapOut := none
      slicesOut := if j.pc then x.mem.slicesOut else if j.restore then x.mem.slicesOut.filter (fun i => i ≠ j.idx)
        else j.idx :: x.mem.slicesOut
      pcsOut := if j.pc then j.idx :: x.mem.pcsOut else x.mem.pcsOut } }
    let y := if j.pc then y else y.rehome
    let y : Half := if j.pc || j.restore then y
      else ({ y with sched := { y.sched with hot := { y.sched.hot with
        entries := y.fitHot (y.sched.hot.entries.filter (fun e => j.idx ∉ e.slices)) } } } : Half)
    let y := if j.pc then y.memErr 0x07 0 (j.idx / 32 * 256 + j.idx % 32) none else y.memErr 0x08 1 j.idx none
    let y := y.cause 5 false
    match j.slot with
    | some sl => y.finishWaiting sl stOk []
    | none => y

end Sys2Proof.Machine
end

