-- ==== Sys2Proof/Machine/Engines.lean ====
section
/-! DEFINITION. The engines themselves: warm-up runs, pre-emption, budgets, resets, retirement, the Quick lane's designation and
the measure of slow engines (spec/04_tensor_engines.md R107 to R125, spec/11_scheduling_and_sync.md R291 to R303). -/

namespace Sys2Proof.Machine

/-! ### Frame time (spec/01_two_halves.md R32) -/

/-- Synchronised time of frame boundary k, in ns (spec/21_configuration_and_update.md R518). -/
def Half.boundaryNs (x : Half) (k : Nat) : Nat := k * 1000000000 / max 1 x.cfg.frameRate

/-- Number of the newest frame boundary at or before the synchronised time. -/
def Half.frameNow (x : Half) : Nat := ((x.st + 1) * max 1 x.cfg.frameRate - 1) / 1000000000

/-- The synchronised time is at least `ns` after the current frame's boundary. -/
def Half.afterBoundary (x : Half) (ns : Nat) : Bool := x.boundaryNs x.frame + ns ≤ x.st

/-- Time until the next frame boundary in µs, rounded up. -/
def Half.untilBoundary (x : Half) : Nat := cdiv (x.boundaryNs (x.frame + 1) - x.st) 1000

/-! ### Warm-up (R292, R113, R124, spec/18_safety.md R443) -/

/-- The engine runs a command. -/
def Half.running (x : Half) (n : Nat) : Bool := x.sched.cmds.any (fun c => c.engine = some n && c.st ≠ .waiting)

/-- Engine n owes a warm-up that runs in one piece: the frame's on an ACTIVE engine, one after a reset, a rerun after a
disagreement, a spare's before it replaces an engine, or one with a new microcode (spec/21_configuration_and_update.md R532). -/
def Half.owesWarmup (x : Half) (n : Nat) : Bool :=
  let e := x.engine n
  x.pow.domains.getLsbD (1 + n) && ((e.st = .active && e.wantWarmup) || ((e.st = .active || e.st = .quick) && e.rerunNext) ||
    ((e.st = .active || e.st = .quick) && x.ump.rerun.any (fun r => r.1 = n)) ||
    (e.st = .spare && (x.sched.retireSpare = some n || x.owedSpares.contains n) && e.warmup = 0) ||
    (e.st = .draining && x.svc.upd.any (fun u => u.cur = some n)))

/-- WARMUP: engine n runs the warm-up pattern once no command runs on it, and its output awaits its Umpire's verdict. -/
def execWarmup (h : HalfId) (n : Nat) (s : State) : Host.Outcome State Fault Refusal :=
  .next (s.mod h (fun x =>
    if x.alive && x.owesWarmup n && !x.running n && !(x.engine n).warmDone then
      x.modEngine n (fun e => { e with wantWarmup := false, warmDone := true })
    else x))

/-- Slices of the Quick lane's warm-up: 144,000 cycles in slices of 20 µs at 800 MHz (R123, R124, spec/18 R443). -/
def quickSlices : Nat := 9

/-- QUICK_WARMUP_SLICE: in a gap between quick-lane commands a slice begins, or the slice in progress ends; the last one leaves
the output for the verdict (R124). -/
def execQuickWarmupSlice (h : HalfId) (s : State) : Host.Outcome State Fault Refusal :=
  .next (s.mod h (fun x => { x with sched := { x.sched with engines := x.sched.engines.map (fun (e : Engine) =>
    if x.alive && e.st = .quick && e.wantWarmup && !x.running e.num then
      if !e.warmRunning then { e with warmRunning := true }
      else if e.warmSlices + 1 < quickSlices then { e with warmRunning := false, warmSlices := e.warmSlices + 1 }
      else { e with warmRunning := false, warmForced := false, warmSlices := 0, wantWarmup := false, warmDone := true }
    else e) } }))

/-- QUICK_WARMUP_FORCE: 1.75 ms after the boundary the remaining slices are forced (R124). -/
def execQuickWarmupForce (h : HalfId) (s : State) : Host.Outcome State Fault Refusal :=
  .next (s.mod h (fun x => { x with sched := { x.sched with engines := x.sched.engines.map (fun (e : Engine) =>
    if x.alive && e.st = .quick && e.wantWarmup && x.afterBoundary 1750000 then { e with warmForced := true } else e) } }))

/-- Running commands of an engine that a test of the command picks. -/
def Half.onEngines (x : Half) (p : Nat → Cmd → Bool) : List Nat :=
  (x.sched.cmds.filter (fun c => c.st ≠ .waiting && c.engine.any (fun n => p n c))).map (·.id)

/-- WARMUP_DEADLINE_KILL: 200 µs after the boundary, NORMAL and BACKGROUND commands that keep an engine from its warm-up are
killed (R292). -/
def execWarmupDeadlineKill (h : HalfId) (s : State) : Host.Outcome State Fault Refusal :=
  .next (s.mod h (fun x =>
    if x.alive && x.afterBoundary 200000 then
      (x.endCmds (x.onEngines (fun n c => (x.engine n).st = .active && (x.engine n).wantWarmup && 2 ≤ c.tier && !isQuick c))
        stKilled).settle
    else x))

/-! ### Pre-emption and budgets -/

/-- The running commands that a ready command may pre-empt: of a lower tier on an ACTIVE engine that could then take it
(R289, R293; log 18). -/
def Half.victims (x : Half) (c : Cmd) : List Cmd :=
  x.sched.cmds.filter (fun v => v.st ≠ .waiting && !isQuick v && c.tier < v.tier && v.engine.any (fun n =>
    let e := x.engine n
    e.st = .active && !e.wantWarmup && (c.tier ≠ 0 || e.passedFrame)))

/-- One victim goes before another: lower tier, then later start, then higher engine (R293). -/
def victimBefore (a b : Cmd) : Bool :=
  b.tier < a.tier || (a.tier = b.tier && (b.started < a.started || (a.started = b.started && b.engine.getD 0 < a.engine.getD 0)))

/-- No ACTIVE engine other than the Quick lane is free (R293). -/
def Half.noEngineFree (x : Half) : Bool :=
  (List.range 18).all (fun n => (x.engine n).st ≠ .active || x.engineBusy n)

/-- PREEMPTION: the CHAIN or REALTIME command that the scheduler would place next finds no free engine (R293). -/
def execPreemption (h : HalfId) (s : State) : Host.Outcome State Fault Refusal :=
  .next (s.mod h (fun x =>
    let wants := x.sched.cmds.filter (fun c => x.ready c && isEngine c && !isQuick c && c.tier ≤ 1)
    match wants.find? (fun c => x.alive && x.noEngineFree && wants.all (fun o => !x.prefers o c)) with
    | none => x
    | some c =>
      let vs := x.victims c
      match vs.find? (fun v => vs.all (fun o => !victimBefore o v)) with
      | some v => (x.endCmd v.id stKilled 0).settle
      | none => x))

/-- BUDGET_US, or the default of the command's unit (R59, R107, spec/05 to spec/12). -/
def budgetUs (c : Cmd) : Nat :=
  if dBudget c.desc ≠ 0 then dBudget c.desc
  else
    let u := dUnit c.desc
    if isQuick c then 50 else if u = 5 then 50000 else if u = 7 then 20000 else if u = 9 then 100000
    else if u = 8 && dOp c.desc = 0x10 then 100000 else 10000

/-- BUDGET_EXPIRY: a started command whose budget has passed before its commit ends with ST_TIMEOUT (R107). A batch has its
own fallback (spec/08 R230). -/
def execBudgetExpiry (h : HalfId) (cmd : Nat) (s : State) : Host.Outcome State Fault Refusal :=
  .next (s.mod h (fun x =>
    match x.cmd cmd with
    | some c =>
      if x.alive && c.st ≠ .waiting && x.since c.started (budgetUs c * 1000) && !(dUnit c.desc = 5 && dOp c.desc = 0x10) then
        (x.endCmd cmd stTimeout 0).settle
      else x
    | none => x))

/-! ### Retirement (R115 to R119, R125) -/

/-- The lowest-numbered SPARE engine. -/
def Half.lowestSpare (x : Half) : Option Nat := (x.sched.engines.find? (fun e => e.st = .spare)).map (·.num)

/-- The Captain records a retirement and selects the spare (R115 step 1). -/
def Half.decideRetire (x : Half) (n : Nat) : Half :=
  let e := x.engine n
  let spare := if e.st = .spare || (e.st = .off && e.back = .off) then none else x.lowestSpare
  { x with sched := { x.sched with
      retiring := some n, retireSpare := spare, retireReady := spare.any (fun m => (x.engine m).warmup = 1) } }

/-- Retires engine n for good: its running commands are killed and the state is recorded (R113, R115, R118). -/
def Half.retireNow (x : Half) (n : Nat) : Half :=
  let y := x.endCmds (x.onEngines (fun m _ => m = n)) stKilled
  let y := y.modEngine n (fun e => { e with
    st := .retired, wantWarmup := false, warmDone := false, warmRunning := false, warmForced := false, passedFrame := false
    rerunNext := false })
  let y : Half := { y with
    sched := { y.sched with spareEngs := y.sched.spareEngs.filter (fun k => k ≠ n)
                            residents := if (x.engine n).isQuickLane then [] else y.sched.residents }
    ump := { y.ump with rerun := y.ump.rerun.filter (fun r => r.1 ≠ n) } }
  y.umpEvent 1

/-- No retirement is pending any more. -/
def Half.retireDone (x : Half) : Half :=
  { x with sched := { x.sched with retiring := none, retireSpare := none, retireReady := false } }

/-- A SPARE takes the place of a retired engine; it leaves the bullpen for good (spec/01_two_halves.md R15). -/
def Half.activateSpare (x : Half) (m : Nat) (st : EngState) : Half :=
  let y := x.modEngine m (fun e => { e with st := st, passedFrame := false })
  { y with sched := { y.sched with spareEngs := y.sched.spareEngs.filter (fun k => k ≠ m) } }

/-- Selects the lowest-numbered SPARE, if there is one, for the pending retirement. -/
def Half.selectSpare (x : Half) : Half :=
  { x with sched := { x.sched with
      retireSpare := x.lowestSpare
      retireReady := x.lowestSpare.any (fun m => (x.engine m).warmup = 1) } }

/-- The pending retirement at a frame boundary: with a spare that has passed, the spare takes the engine's place, and the Quick
lane's if it was that; without any SPARE engine the half goes on with one engine fewer; a spare that has not passed leaves the
engine ACTIVE, and one that has failed is itself retired and the next one selected (R115 to R117, R119, R125). -/
def Half.retireBoundary (x : Half) : Half :=
  match x.sched.retiring with
  | none => x
  | some n =>
    let e := x.engine n
    if e.st = .retired then x.retireDone
    else if e.st = .spare || (e.st = .off && e.back = .off) then (x.retireNow n).retireDone
    else match x.sched.retireSpare with
      | some m =>
        let k := x.engine m
        if k.st ≠ .spare then x.selectSpare
        else if k.warmup = 3 then (x.retireNow m).selectSpare
        else if x.sched.retireReady then
          ((x.retireNow n).activateSpare m (if e.isQuickLane then .quick else .active)).retireDone
        else x
      | none => if x.lowestSpare.isSome then x.selectSpare else (x.retireNow n).retireDone

/-- Spares that have passed their warm-up take the places of engines lost with a die, the Quick lane's first where `quick` says that it
was among them; those that have failed are retired; with no SPARE left the half goes on with fewer engines (R115 to R117, R125). -/
def Half.paySpares (x : Half) (quick : Bool) : Half :=
  let due := x.owedSpares
  let ready := due.filter (fun m => (x.engine m).warmup = 1)
  let y := ready.zipIdx.foldl (fun (y : Half) p => y.activateSpare p.1 (if quick && p.2 = 0 then .quick else .active)) x
  let bad := (y.sched.engines.filter (fun e => e.st = .spare && e.warmup = 3 && y.sched.retireSpare ≠ some e.num)).map (·.num)
  let z := bad.foldl (fun (z : Half) m => z.retireNow m) y
  { z with sched := { z.sched with owed := if z.lowestSpare.isNone then 0 else z.sched.owed - ready.length } }

/-- The engines of a compute die whose modules are all DOWN are retired at the boundary (spec/15_die_to_die_links.md R386), and the SPARE
engines of the other die that have passed take their places. -/
def Half.deadDie (x : Half) (die : Nat) : Half :=
  let lost := x.sched.engines.filter (fun e => x.lost e && e.num / 9 = die)
  if lost = [] then x
  else
    let live := lost.filter (fun e => e.st ≠ .spare)
    let y := lost.foldl (fun (y : Half) e => y.retireNow e.num) x
    let y := if y.sched.retiring.any (fun m => (y.engine m).st = .retired) then y.retireDone else y
    let y : Half := { y with sched := { y.sched with owed := y.sched.owed + live.length } }
    y.paySpares (live.any Engine.isQuickLane)

/-- The next retirement that waits for its turn: a warm-up failure, then an engine slow for ten measured frames while a SPARE
exists, the lower number first (R303, spec/18_safety.md R445). -/
def Half.nextRetire (x : Half) : Half :=
  if x.sched.retiring.isSome then x
  else
    let live := fun (e : Engine) => e.st = .active || e.st = .quick
    match x.sched.engines.find? (fun e => live e && e.warmup = 3) with
    | some e => x.decideRetire e.num
    | none => match x.sched.engines.find? (fun e => live e && 10 ≤ e.slowFrames.toNat) with
      | some e => if x.lowestSpare.isSome then x.decideRetire e.num else x
      | none => x

/-- The retirement of engine n is pending: decided, waiting for its turn after a warm-up failure or slow frames, or that of an engine whose
die is lost (R119, R303, R445, spec/15_die_to_die_links.md R386). -/
def Half.retirePends (x : Half) (n : Nat) : Bool :=
  let e := x.engine n
  x.sched.retiring = some n || (decide (n < 18) && x.lost e) ||
    ((e.st = .active || e.st = .quick) && (e.warmup = 3 || (10 ≤ e.slowFrames.toNat && x.lowestSpare.isSome)))

/-- ENG_RETIRE (R119). -/
def execEngRetire (h : HalfId) (slot : Nat) (s : State) : Host.Outcome State Fault Refusal :=
  .next (s.runMsg h slot 0x0403 { lens := [1] }
    (fun x m =>
      let n := pay m 0 8
      [{ bad := msgCtx m ≠ 0, st := stMalformed, off := 0x0A },
       { bad := 17 < n || (x.engine n).st = .retired, st := stMalformed, off := 0x10 },
       { bad := !x.retirePends n && (List.range 18).any x.retirePends, st := stBusy, retry := some (max 100 x.untilBoundary) }])
    (fun s m =>
      let n := pay m 0 8
      .done (s.mod h (fun x => if x.retirePends n then x else x.decideRetire n)) stOk []))

/-! ### The Quick lane (R120) -/

/-- Designates the Quick lane at a boundary, or gives it up when it is disabled or no other engine is ACTIVE. -/
def Half.quickBoundary (x : Half) : Half :=
  let act := (x.sched.engines.filter (fun e => e.st = .active)).map (·.num)
  let quick := (x.sched.engines.filter Engine.isQuickLane).map (·.num)
  let back := fun (y : Half) => { y with sched := { y.sched with
    quickOn := false, residents := []
    engines := y.sched.engines.map (fun (e : Engine) =>
      if e.st = .quick then { e with st := .active } else if e.isQuickLane then { e with back := .active } else e) } }
  let y := { x with sched := { x.sched with quickOn := x.cfg.quickLane } }
  if !x.cfg.quickLane || act.length + quick.length < 2 then back y
  else if quick ≠ [] then y
  else
    let die1 := act.filter (fun n => 9 ≤ n)
    match (if die1 = [] then act else die1).getLast? with
    | some n => y.modEngine n (fun e => { e with st := .quick })
    | none => y

/-! ### Slow engines (R301, R302) -/

/-- Insertion of an efficiency, predicted and taken cycles, into an ascending list. -/
def insertEff (a : Nat × Nat) : List (Nat × Nat) → List (Nat × Nat)
  | [] => [a]
  | b :: l => if a.1 * b.2 ≤ b.1 * a.2 then a :: b :: l else b :: insertEff a l

/-- Twice the median of a list of efficiencies, as numerator and denominator. -/
def medianEff2 (l : List (Nat × Nat)) : Nat × Nat :=
  let s := l.foldl (fun acc a => insertEff a acc) []
  let p := s[(s.length - 1) / 2]?.getD (0, 1)
  let q := s[s.length / 2]?.getD (0, 1)
  (p.1 * q.2 + q.1 * p.2, p.2 * q.2)

/-- The measure of the frame that ends: ENG_RELATIVE and ENG_SLOW_FRAMES of every measured engine when at least four were
measured (R301, R303); those of engines whose compute die is narrow keep their values (spec/15_die_to_die_links.md R388). -/
def Half.measureBoundary (x : Half) : Half :=
  let live := fun n => ((x.engine n).st = .active || (x.engine n).st = .quick) && !(x.narrowDie (n / 9))
  let ms := x.sched.load.filter (fun l => live l.eng && 1000000 ≤ l.busy && 0 < l.cycles)
  let m2 := medianEff2 (ms.map (fun (l : EngLoad) => (l.predict, l.cycles)))
  let y := { x with sched := { x.sched with load := [] } }
  if ms.length < 4 || m2.1 = 0 then y
  else ms.foldl (fun z l => z.modEngine l.eng (fun e =>
    let r := min 0xFFFF (2048 * l.predict * m2.2 / (l.cycles * m2.1))
    { e with relative := BitVec.ofNat 16 r, measRelative := true
             slowFrames := if r < 0x0200 then satInc e.slowFrames else 0
             credit := if 0x0366 < r then 1024 else e.credit })) y

/-- The warm-up of a new frame is issued on every ACTIVE engine and on the Quick lane (R292, R124). -/
def Half.warmupBoundary (x : Half) : Half :=
  { x with sched := { x.sched with engines := x.sched.engines.map (fun (e : Engine) =>
    if e.st = .active || e.st = .quick then
      { e with wantWarmup := true, passedFrame := false, warmDone := false, warmSlices := 0, warmForced := false }
    else e) } }

end Sys2Proof.Machine
end

