-- ==== Sys2Proof/Machine/Kv.lean ====
section
/-! DEFINITION. Unit 0x03, the paged KV cache: pools, sequences, pages, append, eviction and maintenance
(spec/06_attention_and_kv.md R151 to R164, R171 to R174, R177 to R179). -/

namespace Sys2Proof.Machine

/-! ### Pools (R151 to R154) -/

/-- Bytes of one half (keys or values) of a page's element data. -/
def vecBytes (d fmt : Nat) : Nat := 64 * d * fmtBits fmt / 8

/-- Scale bytes of one half of a page. -/
def vecScales (d fmt : Nat) : Nat := if isMx fmt then 64 * d / 32 else 0

/-- PAGE_STRIDE (R154). -/
def Pool.stride (p : Pool) : Nat :=
  cdiv (vecBytes p.d p.kFmt + vecBytes p.d p.vFmt + vecScales p.d p.kFmt + vecScales p.d p.vFmt) 64 * 64

/-- INDEX_STRIDE (R154). -/
def Pool.indexStride (p : Pool) : Nat := cdiv (16 + 2 * p.d) 64 * 64

/-- Page n of a pool is in use in the free map (R151). -/
def Half.pageUsed (x : Half) (p : Pool) (n : Nat) : Bool := (x.vbyte p.ctx (p.freeMap + n / 8)).getLsbD (n % 8)

/-- The pool descriptor in memory, as the pool that it describes. -/
def Half.poolDesc (x : Half) (ctx va : Nat) : Pool :=
  let f := fun off w => x.vnat ctx (va + off) w
  { ctx := ctx, va := va, hdr := f 0x00 6, data := f 0x08 6, index := f 0x10 6, freeMap := f 0x18 6, pages := f 0x20 4
    d := f 0x24 2, kFmt := f 0x26 1, vFmt := f 0x27 1 }

/-- Formats of keys and values (R152). -/
def kvFormats : List Nat := [0x08, 0x09, 0x0A, 0x0B, 0x0C, 0x0D, 0x0E, 0x10, 0x11]

/-- The four arrays of a pool: base and length. -/
def Pool.arrays (p : Pool) : List (Nat × Nat) :=
  [(p.hdr, p.pages * 0x240), (p.data, p.pages * p.stride), (p.index, p.pages * p.indexStride), (p.freeMap, cdiv p.pages 64 * 8)]

/-! ### Sequences (R157, R158) -/

/-- A sequence record as read from memory. -/
structure Seqr where
  /-- Its address. -/
  va : Nat := 0
  /-- POOL_DESC_VA. -/
  pool : Nat := 0
  /-- PAGE_LIST_VA. -/
  list : Nat := 0
  /-- MAX_PAGES. -/
  maxPages : Nat := 0
  /-- SEQ_TAG. -/
  tag : Nat := 0
  /-- PAGE_COUNT. -/
  pages : Nat := 0
  /-- LIVE_TOKENS. -/
  live : Nat := 0
  /-- NEXT_POS. -/
  next : Nat := 0
  /-- MOD_COUNT. -/
  mods : Nat := 0
  /-- STEP. -/
  step : Nat := 0
  /-- DECAY, an FP32 code. -/
  decay : Nat := 0
  /-- TOKEN_BUDGET. -/
  budget : Nat := 0
  /-- SINK_TOKENS. -/
  sink : Nat := 0
  /-- RECENT_WINDOW. -/
  recent : Nat := 0
  /-- EVICT. -/
  evict : Bool := false
  /-- Reserved bits that are not zero: their offset. -/
  bad : Option Nat := none
  deriving DecidableEq, Repr

/-- SEQ_VA of a command. -/
def kvVa (c : Cmd) : Nat := df c.desc 0x20 64

/-- The sequence record that a command names. -/
def Half.seqr (x : Half) (ctx va : Nat) : Seqr :=
  let f := fun off w => x.vnat ctx (va + off) w
  { va := va, pool := f 0x00 8, list := f 0x08 8, maxPages := f 0x10 2, tag := f 0x14 4, pages := f 0x18 4, live := f 0x1C 4
    next := f 0x20 4, mods := f 0x24 4, step := f 0x28 4, decay := f 0x2C 4, budget := f 0x30 4, sink := f 0x34 2
    recent := f 0x36 2, evict := f 0x38 1 % 2 = 1
    bad := if f 0x12 2 ≠ 0 then some 0x12 else if f 0x38 1 / 2 ≠ 0 then some 0x38 else if f 0x39 7 ≠ 0 then some 0x39 else none }

/-- The page numbers of a sequence, in position order. -/
def Half.pageList (x : Half) (ctx : Nat) (q : Seqr) : List Nat := (List.range q.pages).map (fun i => x.vnat ctx (q.list + 4 * i) 4)

/-- A page's header as read from memory (R155). -/
structure KPage where
  /-- Page number. -/
  num : Nat := 0
  /-- VALID_MASK. -/
  valid : BitVec 64 := 0
  /-- PIN_MASK. -/
  pin : BitVec 64 := 0
  /-- SEQ_TAG. -/
  tag : Nat := 0
  /-- SCORE_STEP. -/
  step : Nat := 0
  /-- FILL. -/
  fill : Nat := 0
  /-- POSITION_t. -/
  pos : List Nat := []
  /-- SCORE_t, FP32 codes. -/
  score : List Nat := []
  deriving DecidableEq, Repr

/-- The header of a page. -/
def Half.kpage (x : Half) (p : Pool) (n : Nat) : KPage :=
  let f := fun off w => x.vnat p.ctx (p.hdr + n * 0x240 + off) w
  { num := n, valid := BitVec.ofNat 64 (f 0 8), pin := BitVec.ofNat 64 (f 8 8), tag := f 0x10 4, step := f 0x14 4, fill := f 0x18 1
    pos := (List.range 64).map (fun t => f (0x40 + 8 * t) 4), score := (List.range 64).map (fun t => f (0x44 + 8 * t) 4) }

/-- The live slots of a page. -/
def KPage.live (k : KPage) : List Nat := (List.range 64).filter (fun t => k.valid.getLsbD t)

/-- The page has no live slot. -/
def KPage.dead (k : KPage) : Bool := k.valid = 0

/-- Position of a slot. -/
def KPage.posAt (k : KPage) (t : Nat) : Nat := k.pos[t]?.getD 0

/-- Page numbers that an operation reads (R158): the tail of an append that does not evict, the range of a compaction, all the
others. -/
def kvReadPages (c : Cmd) (q : Seqr) (l : List Nat) : List Nat :=
  if dOp c.desc = 0x10 && !q.evict then l.drop (l.length - 1)
  else if dOp c.desc = 0x13 then (l.drop (df c.desc 0x64 32)).take (df c.desc 0x68 32)
  else l

/-- The sequence's record can be read. -/
def seqOk (x : Half) (c : Cmd) : Bool := kvVa c < vaLimit && kvVa c % 64 = 0 && x.mapped c.ctx (kvVa c) 64

/-- The sequence and its page list can be read and its pool is registered. -/
def seqSane (x : Half) (c : Cmd) : Bool :=
  let q := x.seqr c.ctx (kvVa c)
  seqOk x c && (x.pool c.ctx q.pool).isSome && q.pages ≤ q.maxPages && q.list < vaLimit && q.list % 4 = 0 &&
    x.mapped c.ctx q.list (4 * q.maxPages)

/-- The checks of a sequence when a command starts (R157, R158, R177). -/
def seqChecks (x : Half) (c : Cmd) : List Chk :=
  let q := x.seqr c.ctx (kvVa c)
  let mal := fun (bad : Bool) (o : Nat) => ({ bad := bad, st := stMalformed, off := o } : Chk)
  if !seqOk x c then [mal true 0x20]
  else
    let dec := f32 q.decay
    [mal (x.pool c.ctx q.pool).isNone 0x100, mal (vaLimit ≤ q.list || q.list % 4 ≠ 0) 0x108,
     mal (q.list < vaLimit && !x.mapped c.ctx q.list (4 * q.maxPages)) 0x108,
     mal (q.maxPages < q.pages) 0x118, mal (64 * q.pages < q.live) 0x11C, mal (q.tag = 0xFFFFFFFF) 0x114,
     mal (!(Num.zero.lt dec) || Num.one.lt dec || dec.isNan) 0x12C,
     mal (q.evict && (q.budget < q.sink + q.recent || 64 * q.maxPages < q.budget)) 0x130,
     mal q.bad.isSome (0x100 + q.bad.getD 0),
     { bad := 16384 < q.maxPages, st := stLimit, off := 0x110 }, { bad := 1024 < q.sink, st := stLimit, off := 0x134 },
     { bad := q.maxPages = 0, st := stEmpty }] ++
    (if seqSane x c then
      match x.pool c.ctx q.pool with
      | some p =>
        [mal ((kvReadPages c q (x.pageList c.ctx q)).any (fun n =>
          p.pages ≤ n || !x.pageUsed p n || (x.kpage p n).tag ≠ q.tag)) 0x108,
         mal ((kvReadPages c q (x.pageList c.ctx q)).any (fun n => !(x.mapped c.ctx (p.hdr + n * 0x240) 0x240 &&
          x.mapped c.ctx (p.data + n * p.stride) p.stride && x.mapped c.ctx (p.index + n * p.indexStride) p.indexStride))) 0x100]
      | none => []
     else [])

/-- Reserved fields of the body: those at the listed offsets that the operation does not use (R159). -/
def kvRsv (c : Cmd) (used : List Nat) (flags : Nat) : List Chk :=
  let fields := [(0x20, 64), (0x28, 64), (0x30, 64), (0x38, 64), (0x40, 64), (0x48, 64), (0x50, 64), (0x58, 32), (0x5C, 32),
    (0x60, 32), (0x64, 32), (0x68, 32), (0x6C, 32), (0x70, 16), (0x72, 16)]
  fields.map (fun f => unusedAt c f.1 f.2 (used.contains f.1)) ++
    [{ bad := df c.desc 0x74 8 &&& (255 - flags) ≠ 0, st := stMalformed, off := 0x74 }, dRsv c.desc 0x75 88]

/-! ### Slots (R154) -/

/-- A live slot's contents: its position, score, pin, and the codes and scales of its two vectors. -/
structure KSlot where
  /-- POSITION. -/
  pos : Nat
  /-- SCORE as an FP32 code. -/
  score : Nat
  /-- Pinned. -/
  pin : Bool
  /-- Key codes and scale bytes. -/
  k : List Nat × List Nat
  /-- Value codes and scale bytes. -/
  v : List Nat × List Nat
  deriving DecidableEq, Repr

/-- Base of the keys' or values' element data, and of their scales, in a page. -/
def Pool.base (p : Pool) (n : Nat) (isV : Bool) : Nat × Nat :=
  let d := p.data + n * p.stride
  let kb := vecBytes p.d p.kFmt
  let vb := vecBytes p.d p.vFmt
  if isV then (d + kb, d + kb + vb + vecScales p.d p.kFmt) else (d, d + kb + vb)

/-- Format of the keys or of the values. -/
def Pool.fmt (p : Pool) (isV : Bool) : Nat := if isV then p.vFmt else p.kFmt

/-- The codes and scales of a slot's vector. -/
def Half.slotVec (x : Half) (p : Pool) (n t : Nat) (isV : Bool) : List Nat × List Nat :=
  let (b, s) := p.base n isV
  ((List.range p.d).map (fun i => x.elemCode p.ctx b (t * p.d + i) (fmtBits (p.fmt isV))),
    if isMx (p.fmt isV) then (List.range (p.d / 32)).map (fun i => (x.vbyte p.ctx (s + t * (p.d / 32) + i)).toNat) else [])

/-- The numbers of a vector's codes and scales. -/
def vecNums (fmt : Nat) (v : List Nat × List Nat) : List Num :=
  v.1.zipIdx.map (fun q => if isMx fmt then decodeMx fmt q.1 (v.2[q.2 / 32]?.getD 0) else decodeElem fmt q.1)

/-- A vector converted to a format, round to nearest even and saturated, with its counts (R163). -/
def quantVec (fmt : Nat) (l : List Num) : (List Nat × List Nat) × List Cnt :=
  if isMx fmt then
    let bs := (List.range (l.length / 32)).map (fun b => mxBlock fmt ((l.drop (32 * b)).take 32))
    ((bs.flatMap (fun b => b.2.map (·.1)), bs.map (·.1)), bs.flatMap (fun b => b.2.map (·.2)))
  else
    let es := l.map (encodeElem fmt true none)
    ((es.map (·.1), []), es.map (·.2))

/-- The bytes of a slot's vector. -/
def vecWrites (x : Half) (p : Pool) (n t : Nat) (isV : Bool) (v : List Nat × List Nat) : List (Nat × Byte) :=
  let (b, s) := p.base n isV
  packElems x p.ctx b (fmtBits (p.fmt isV)) (v.1.zipIdx.map (fun q => (t * p.d + q.2, q.1))) ++
    v.2.zipIdx.map (fun q => (s + t * (p.d / 32) + q.2, BitVec.ofNat 8 q.1))

/-- The slot t of a page, as it stands. -/
def Half.kslot (x : Half) (p : Pool) (k : KPage) (t : Nat) : KSlot :=
  { pos := k.posAt t, score := k.score[t]?.getD 0, pin := k.pin.getLsbD t, k := x.slotVec p k.num t false
    v := x.slotVec p k.num t true }

/-- A page's slots, live ones only, by number. -/
abbrev Image := List (Nat × KSlot)

/-- The image of a page as it stands. -/
def Half.image (x : Half) (p : Pool) (k : KPage) : Image := k.live.map (fun t => (t, x.kslot p k t))

/-- A little-endian field at an address, as bytes to write. -/
def wr (va n v : Nat) : List (Nat × Byte) := (leBytes n v).zipIdx.map (fun q => (va + q.2, q.1))

/-- A mask with the bits of a list. -/
def maskOf (l : List Nat) : Nat := l.foldl (fun a t => a ||| 2 ^ t) 0

/-- The header of a page with the image given, every field of it (R155). The entries of slots that hold no live token are written as
`old` has them: as they stood on a page of the sequence, and zero, the table's Reset value, on a page newly taken (log 69). -/
def hdrWrites (p : Pool) (old : KPage) (tag step fill : Nat) (im : Image) : List (Nat × Byte) :=
  let va := p.hdr + old.num * 0x240
  let at64 := fun (t : Nat) => (im.find? (fun s => s.1 = t)).map (·.2)
  wr va 8 (maskOf (im.map (·.1))) ++ wr (va + 8) 8 (maskOf ((im.filter (fun s => s.2.pin)).map (·.1))) ++ wr (va + 0x10) 4 tag ++
    wr (va + 0x14) 4 step ++ wr (va + 0x18) 40 fill ++
    (List.range 64).flatMap (fun t => wr (va + 0x40 + 8 * t) 4 ((at64 t).elim (old.posAt t) (·.pos)) ++
      wr (va + 0x44 + 8 * t) 4 ((at64 t).elim (old.score[t]?.getD 0) (·.score)))

/-- The coarse index record of a page that has lost its last live token: LIVE is zero; the largest norm, the positions and the mean of
no key at all are not stated, and free (R156, R173; log 69). -/
def indexEmpty (seed : Nat) (p : Pool) (n : Nat) : List (Nat × Byte) :=
  let va := p.index + n * p.indexStride
  let free := fun (u w : Nat) => Config.elemNat seed (sub (rk n 6) u) (8 * w)
  wr va 4 (free 0 4) ++ wr (va + 4) 2 0 ++ wr (va + 6) 2 0 ++ wr (va + 8) 4 (free 1 4) ++ wr (va + 12) 4 (free 2 4) ++
    (List.range p.d).flatMap (fun i => wr (va + 16 + 2 * i) 2 (free (3 + i) 2))

/-- The coarse index record of a page with the image given (R156): MAX_NORM, LIVE, the lowest and highest position, and the mean
key in BF16. -/
def indexWrites (seed : Nat) (p : Pool) (n : Nat) (im : Image) : List (Nat × Byte) :=
  let va := p.index + n * p.indexStride
  if im = [] then indexEmpty seed p n else
  let ks := im.map (fun s => vecNums p.kFmt s.2.k)
  let norm := fun (q : List Num × Nat) =>
    fsqrt seed (sub (rk n 0) q.2) (fsum seed (sub (rk n 1) q.2) (q.1.map (fun a => fmul (ld a) (ld a))))
  let maxNorm := foldRow (fun j => fmax seed (sub (rk n 2) j)) (ks.zipIdx.map norm)
  let ps := im.map (fun s => s.2.pos)
  let mean := fun i => fdiv seed (sub (rk n 3) i) (fsum seed (sub (rk n 4) i) (ks.map (fun k => ld (k[i]?.getD .zero))))
    (ld (.ofInt im.length))
  wr va 4 (f32code maxNorm) ++ wr (va + 4) 2 im.length ++ wr (va + 6) 2 0 ++ wr (va + 8) 4 (ps.foldl min (ps.headD 0)) ++
    wr (va + 12) 4 (ps.foldl max 0) ++
    (List.range p.d).flatMap (fun i => wr (va + 16 + 2 * i) 2 (bf16.encode false none (mean i)).1)

/-- A vector written to a slot: the bytes of its keys and values. -/
def slotWrites (x : Half) (p : Pool) (n : Nat) (s : Nat × KSlot) : List (Nat × Byte) :=
  vecWrites x p n s.1 false s.2.k ++ vecWrites x p n s.1 true s.2.v

/-- The sequence record's RO fields, and its page list from entry `from` on (R157). -/
def seqWrites (q : Seqr) (pages : List Nat) (start live next mods step : Nat) : List (Nat × Byte) :=
  wr (q.va + 0x18) 4 pages.length ++ wr (q.va + 0x1C) 4 live ++ wr (q.va + 0x20) 4 next ++ wr (q.va + 0x24) 4 (mods % 2 ^ 32) ++
    wr (q.va + 0x28) 4 step ++ (pages.drop start).zipIdx.flatMap (fun n => wr (q.list + 4 * (start + n.2)) 4 n.1)

/-! ### Scores and eviction (R171 to R173) -/

/-- λ^n, within 2 ulp of FP32. -/
def decayPow (seed key : Nat) (dec n : Nat) : Num :=
  if n = 0 then .one
  else nudge seed key ((List.range n).foldl (fun a _ => a.mul (f32 dec)) .one)

/-- The effective score of a slot (R171). -/
def effScore (seed : Nat) (q : Seqr) (k : KPage) (t : Nat) : Num :=
  fmul (f32 (k.score[t]?.getD 0)) (decayPow seed (rk k.num 5) q.decay (q.step - k.step))

/-- A live slot is protected (R172). -/
def protectedSlot (q : Seqr) (k : KPage) (t : Nat) : Bool :=
  k.pin.getLsbD t || k.posAt t < q.sink || q.next ≤ k.posAt t + q.recent

/-- Inserts an eviction candidate: ascending effective score, the older position first among equals (R172). -/
def insertVictim (a : Num × Nat × Nat × Nat) : List (Num × Nat × Nat × Nat) → List (Num × Nat × Nat × Nat)
  | [] => [a]
  | b :: l => if a.1.lt b.1 || (!(b.1.lt a.1) && a.2.1 < b.2.1) then a :: b :: l else b :: insertVictim a l

/-- The unprotected slots of a sequence in the order in which eviction takes them: score, position, page number, slot. -/
def candidates (seed : Nat) (q : Seqr) (ks : List KPage) : List (Num × Nat × Nat × Nat) :=
  (ks.flatMap (fun k => (k.live.filter (fun t => !protectedSlot q k t)).map (fun t =>
    (effScore seed q k t, k.posAt t, k.num, t)))).foldl (fun acc a => insertVictim a acc) []

/-- The pages with the evicted slots cleared. -/
def clearSlots (ks : List KPage) (gone : List (Num × Nat × Nat × Nat)) : List KPage :=
  ks.map (fun (k : KPage) =>
    let v := (gone.filter (fun g => g.2.2.1 = k.num)).foldl (fun (v : BitVec 64) g => v &&& ~~~(1#64 <<< g.2.2.2)) k.valid
    { k with valid := v })

/-- The pages of a sequence. -/
def Half.kpages (x : Half) (p : Pool) (q : Seqr) : List KPage := (x.pageList p.ctx q).map (x.kpage p)

/-- The header, the data and the index record of a page: base and length. -/
def Pool.hdrAt (p : Pool) (n : Nat) : Nat × Nat := (p.hdr + n * 0x240, 0x240)
/-- The data of a page. -/
def Pool.dataAt (p : Pool) (n : Nat) : Nat × Nat := (p.data + n * p.stride, p.stride)
/-- The index record of a page. -/
def Pool.indexAt (p : Pool) (n : Nat) : Nat × Nat := (p.index + n * p.indexStride, p.indexStride)
/-- The bytes of the free map that hold the bits of pages. -/
def Pool.mapAt (p : Pool) (ns : List Nat) : List (Nat × Nat) := ((ns.map (· / 8)).eraseDups).map (fun b => (p.freeMap + b, 1))

/-- What every command on a sequence reads: its record, its page list, and the headers and free-map bits of the pages that it checks
(R158). -/
def seqReads (x : Half) (c : Cmd) (p : Pool) (q : Seqr) : List (Nat × Nat) :=
  let ns := kvReadPages c q (x.pageList p.ctx q)
  [(q.va, 64), (q.list, 4 * q.pages)] ++ ns.map p.hdrAt ++ p.mapAt ns

/-- The same with the data of the pages from which slots are read. -/
def kvReads (x : Half) (c : Cmd) (p : Pool) (q : Seqr) (data : List Nat) : List (Nat × Nat) :=
  seqReads x c p q ++ data.map p.dataAt

/-- The places that a command on a sequence writes, for pages whose data change, pages of which only the header and the index record
do, pages taken or given back, and the page list from entry `start` on (R177, R179). -/
def kvOuts (p : Pool) (q : Seqr) (data head moved : List Nat) (start pages : Nat) : List (Nat × Nat) :=
  [(q.va, 64), (q.list + 4 * start, 4 * (pages - start))] ++ data.flatMap (fun n => [p.dataAt n, p.hdrAt n, p.indexAt n]) ++
    head.flatMap (fun n => [p.hdrAt n, p.indexAt n]) ++ p.mapAt moved

/-- DETAIL0 of a controller operation: cycles at 1.6 GHz, pages allocated and freed (R162). -/
def kvDetail (x : Half) (took gave : Nat) : Nat := cyclesOf x + min 0xFFFF took * 2 ^ 32 + min 0xFFFF gave * 2 ^ 48

/-- UNIT_INSTANCE of the page logic: the spec does not say which controller runs an operation. -/
def kvInst (x : Half) : Nat := 0x20 + Config.freeNat x.seed 1 % 2

/-- Footprint of a change to `data` pages whose vectors change, to `head` pages of which only the header and index record do, and to
`moved` page-list entries with their words of the free map, with the sequence record (R177). -/
def Pool.footOf (p : Pool) (data head moved : Nat) : Nat :=
  data * (p.stride + 0x240 + p.indexStride) + head * (0x240 + p.indexStride) + moved * (8 + 4) + 64

/-- A footprint above 64 MB, named at SEQ_VA. -/
def kvFoot (bytes : Nat) : Chk := { bad := 64000000 < bytes, st := stLimit, off := 0x20 }

/-- What an operation writes must lie in pages that may be written (spec/12_memory_system.md R323). -/
def kvWritable (x : Half) (p : Pool) (outs : List (Nat × Nat)) : Chk :=
  { bad := !(outs.all (fun o => x.writable p.ctx o.1 o.2)), st := stMalformed, off := 0x100 }

/-- Applies a check that needs the sequence and its pool, once both can be read. -/
def withSeq (x : Half) (c : Cmd) (f : Pool → Seqr → List Chk) : List Chk :=
  let q := x.seqr c.ctx (kvVa c)
  match (if seqSane x c then x.pool c.ctx q.pool else none) with
  | some p => f p q
  | none => []

/-- The work on a sequence and its pool. -/
def onSeq (x : Half) (c : Cmd) (f : Pool → Seqr → Work) : Work :=
  let q := x.seqr c.ctx (kvVa c)
  match x.pool c.ctx q.pool with
  | some p => f p q
  | none => {}

/-! ### Pool commands -/

/-- The checks of KV_POOL_INIT (R152, R153, R177, R178). -/
def poolInitChecks (x : Half) (c : Cmd) : List Chk :=
  let va := kvVa c
  let p := x.poolDesc c.ctx va
  let mal := fun (bad : Bool) (o : Nat) => ({ bad := bad, st := stMalformed, off := o } : Chk)
  let f := fun off w => x.vnat c.ctx (va + off) w
  kvRsv c [0x20] 0 ++
  (if !seqOk x c then [mal true 0x20]
   else
    let fmtOk := formatCodes.contains p.kFmt && formatCodes.contains p.vFmt
    let dOk := p.d = 32 || p.d = 64 || p.d = 128 || p.d = 256
    [mal (f 0x06 2 ≠ 0 || p.hdr % 64 ≠ 0) 0x100, mal (f 0x0E 2 ≠ 0 || p.data % 64 ≠ 0) 0x108,
     mal (f 0x16 2 ≠ 0 || p.index % 64 ≠ 0) 0x110, mal (f 0x1E 2 ≠ 0 || p.freeMap % 8 ≠ 0) 0x118,
     mal (f 0x28 24 ≠ 0) 0x128, mal (!dOk) 0x124, mal (!formatCodes.contains p.kFmt) 0x126,
     mal (!formatCodes.contains p.vFmt) 0x127,
     { bad := fmtOk && !(kvFormats.contains p.kFmt && kvFormats.contains p.vFmt), st := stUnsupported },
     { bad := 4194304 < p.pages, st := stLimit, off := 0x120 }, { bad := p.pages = 0, st := stEmpty },
     mal (x.pool c.ctx va).isSome 0x20,
     { bad := 64 ≤ x.sched.pools.length, st := stBusy, retry := some 10000 }] ++
    (if dOk && fmtOk then
      p.arrays.zipIdx.map (fun a => mal (!x.mapped c.ctx a.1.1 a.1.2) (0x100 + 8 * a.2))
     else []))

/-- The work of KV_POOL_INIT (R153). -/
def poolInitWork (x : Half) (c : Cmd) (_ : Option Nat) : Work :=
  let p := x.poolDesc c.ctx (kvVa c)
  { reads := [(kvVa c, 64), (p.freeMap, cdiv p.pages 64 * 8)], inst := kvInst x, det0 := kvDetail x 0 0, atOnce := true
    eff :=
      let used := (List.range p.pages).filter (fun n => x.pageUsed p n)
      .poolInit { p with used := used, free := p.pages - used.length } }

/-- KV_POOL_INIT (R152, R153, R177, R178). -/
def execKvPoolInit (h : HalfId) (cmd : Nat) (s : State) : Host.Outcome State Fault Refusal :=
  .next (s.mod h (fun x => x.start cmd 3 0x01 (fun _ _ => true) poolInitChecks poolInitWork))

/-- A started command of unit 0x03 works on a sequence of the pool. -/
def Half.poolBusy (x : Half) (ctx va : Nat) : Bool :=
  x.sched.cmds.any (fun c => c.ctx = ctx && c.st ≠ .waiting && dUnit c.desc = 3 && 0x10 ≤ dOp c.desc &&
    (x.seqr ctx (kvVa c)).pool = va)

/-- No command holds a lock on one of the pool's sequences. -/
def poolIdle (x : Half) (c : Cmd) : Bool := !x.poolBusy c.ctx (kvVa c)

/-- The checks of KV_POOL_DESTROY. -/
def poolDestroyChecks (x : Half) (c : Cmd) : List Chk :=
  kvRsv c [0x20] 0 ++ [{ bad := (x.pool c.ctx (kvVa c)).isNone, st := stMalformed, off := 0x20 }]

/-- The work of KV_POOL_DESTROY. -/
def poolDestroyWork (x : Half) (c : Cmd) (_ : Option Nat) : Work :=
  { inst := kvInst x, det0 := kvDetail x 0 0, atOnce := true, eff := .poolDestroy c.ctx (kvVa c) }

/-- KV_POOL_DESTROY: waits until no command holds a lock on one of the pool's sequences (R174). -/
def execKvPoolDestroy (h : HalfId) (cmd : Nat) (s : State) : Host.Outcome State Fault Refusal :=
  .next (s.mod h (fun x => x.start cmd 3 0x02 poolIdle
    poolDestroyChecks poolDestroyWork))

/-! ### KV_APPEND (R163, R164) -/

/-- Keys or values of an append: a ROW tensor of d by T in a floating format. -/
def appendOperand (x : Half) (c : Cmd) (p : Pool) (off k : Nat) : List Chk :=
  operandChecks x c off k false [0] ++
  (if descAddrOk x c off then
    let t := operand x c off
    [{ bad := t.nd ≠ 2, st := stMalformed, off := 0x100 * k + 8 }, { bad := t.e 0 ≠ p.d, st := stMalformed, off := 0x100 * k + 0x10 },
     { bad := formatCodes.contains t.fmt && isIntFmt t.fmt, st := stUnsupported }, { bad := t.sparse, st := stUnsupported }]
   else [])

/-- T of an append. -/
def appendT (x : Half) (c : Cmd) : Nat := (operand x c 0x28).e 1

/-- Slots that an append must evict first (R164). -/
def appendNeed (x : Half) (c : Cmd) (q : Seqr) : Nat := if q.evict then q.live + appendT x c - q.budget else 0

/-- The pages that remain after the append's own eviction, and those it frees. -/
def appendKeep (x : Half) (c : Cmd) (p : Pool) (q : Seqr) : List KPage × List KPage :=
  let ks := x.kpages p q
  let after := clearSlots ks ((candidates x.seed q ks).take (appendNeed x c q))
  (after.filter (fun k => !k.dead), after.filter (fun k => k.dead))

/-- Free slots in the tail page. -/
def tailRoom (ks : List KPage) : Nat := (ks.getLast?).elim 0 (fun k => 64 - k.fill)

/-- The i-th new token of an append: its slot and the counts of its conversion. -/
def newToken (x : Half) (c : Cmd) (p : Pool) (q : Seqr) (i : Nat) : KSlot × List Cnt :=
  let vec := fun off => (List.range p.d).map (fun j => (operand x c off).get x c.ctx [j, i])
  let k := quantVec p.kFmt (vec 0x28)
  let v := quantVec p.vFmt (vec 0x30)
  ({ pos := q.next + i, score := 0, pin := false, k := k.1, v := v.1 }, k.2 ++ v.2)

/-- Pages that other commands which have not committed hold back (R178). -/
def Half.reserved (x : Half) (c : Cmd) (q : Seqr) : List Nat :=
  (x.sched.cmds.filter (fun o => o.id ≠ c.id && o.ctx = c.ctx && o.kvPages ≠ [] && (x.seqr c.ctx (kvVa o)).pool = q.pool)).flatMap
    (·.kvPages)

/-- The pages that an append can take, lowest first, by the allocation state kept on-die (R153, R163, R164). -/
def freePages (x : Half) (c : Cmd) (p : Pool) (q : Seqr) (freed : List Nat) : List Nat :=
  (List.range p.pages).filter (fun n => (!p.used.contains n || freed.contains n) && !(x.reserved c q).contains n)

/-- New pages that an append needs. -/
def appendPages (x : Half) (c : Cmd) (p : Pool) (q : Seqr) : Nat :=
  cdiv (appendT x c - tailRoom (appendKeep x c p q).1) 64

/-- The pool has fewer free pages than the append needs after its own eviction: its free count, with the pages that this eviction
frees and without those that other commands hold back (R178). -/
def poolShort (x : Half) (c : Cmd) (p : Pool) (q : Seqr) (freed : Nat) : Bool :=
  p.free + freed < appendPages x c p q + (x.reserved c q).length

/-- The work of KV_APPEND: eviction first, then the tail page, then new pages; all commit together (R163, R164, R179). -/
def appendWork (x : Half) (c : Cmd) (_ : Option Nat) : Work :=
  onSeq x c (fun p q =>
    let t := appendT x c
    let (keep, freed) := appendKeep x c p q
    let gone := freed.map (·.num)
    let new := (freePages x c p q gone).take (appendPages x c p q)
    let toks := (List.range t).map (newToken x c p q)
    let room := min t (tailRoom keep)
    let before := x.kpages p q
    let touched := keep.filter (fun k => !before.contains k)
    let tailNum := (keep.getLast?).elim 0 (·.num)
    let tailWs := match keep.getLast? with
      | some k => if room = 0 then [] else
        let add : Image := ((toks.take room).map (·.1)).zipIdx.map (fun s => (k.fill + s.2, s.1))
        let im := x.image p k ++ add
        hdrWrites p k q.tag k.step (k.fill + room) im ++ indexWrites x.seed p k.num im ++ add.flatMap (slotWrites x p k.num)
      | none => []
    let others := touched.filter (fun k => !(k.num = tailNum && room ≠ 0))
    let otherWs := others.flatMap (fun k => hdrWrites p k q.tag k.step k.fill (x.image p k) ++ indexWrites x.seed p k.num (x.image p k))
    let goneWs := (gone.filter (fun n => n ∉ new)).flatMap (indexEmpty x.seed p)
    let rest := (toks.drop room).map (·.1)
    let newWs := new.zipIdx.flatMap (fun n =>
      let im : Image := ((rest.drop (64 * n.2)).take 64).zipIdx.map (fun s => (s.2, s.1))
      hdrWrites p { num := n.1 } q.tag q.step im.length im ++ indexWrites x.seed p n.1 im ++ im.flatMap (slotWrites x p n.1))
    let list := keep.map (·.num) ++ new
    let start := if freed = [] then keep.length else 0
    let tail := if room = 0 then [] else [tailNum]
    { writes := tailWs ++ otherWs ++ goneWs ++ newWs ++
        seqWrites q list start (q.live - appendNeed x c q + t) (q.next + t) (q.mods + 1) q.step
      reads := [(df c.desc 0x28 64, 64), (df c.desc 0x30 64, 64)] ++ kvReads x c p q (tail ++ others.map (·.num)) ++
        (operand x c 0x28).reads x c.ctx ++ (operand x c 0x30).reads x c.ctx
      outs := kvOuts p q (tail ++ new) (others.map (·.num) ++ gone) (new ++ gone) start list.length
      foot := p.footOf (new.length + 1) (if q.evict then min q.pages (appendNeed x c q) else 0)
        (new.length + (if q.evict then q.pages else 0)), inst := kvInst x
      det0 := kvDetail x new.length freed.length, det1 := counts ((toks.flatMap (·.2)).map (fun k => (k, false)))
      kvPages := new, eff := .poolFree c.ctx q.pool new gone })

/-- The checks of KV_APPEND beyond the sequence's own (R163, R164, R172, R177, R178). With MAX_PAGES 0 the append is empty and none of
the limits that a full page list sets counts (R158; log 69). -/
def appendChecks (x : Half) (c : Cmd) : List Chk :=
  kvRsv c [0x20, 0x28, 0x30] 0 ++ seqChecks x c ++ withSeq x c (fun p q =>
    let lim := fun (bad : Bool) (o : Nat) => ({ bad := bad, st := stLimit, off := o } : Chk)
    let t := appendT x c
    let need := appendNeed x c q
    let (keep, freed) := appendKeep x c p q
    appendOperand x c p 0x28 2 ++ appendOperand x c p 0x30 3 ++
    (if descAddrOk x c 0x28 && descAddrOk x c 0x30 then
      [{ bad := (operand x c 0x30).e 1 ≠ t, st := stMalformed, off := 0x318 }, lim (65536 < t) 0x218,
       lim (0xFFFFFFFF < q.next + t) 0x120] ++
      (if q.maxPages = 0 then [] else
        [lim (!q.evict && 64 * q.maxPages < q.live + t) 0x110,
         lim ((candidates x.seed q (x.kpages p q)).length < need) 0x130,
         lim (q.maxPages < keep.length + appendPages x c p q) 0x110,
         { bad := poolShort x c p q freed.length, st := stBusy, retry := some 1000 }]) ++
      (if (operand x c 0x28).sane && (operand x c 0x30).sane then
        [kvFoot (appendWork x c none).foot, kvWritable x p (appendWork x c none).outs]
       else [])
     else []))

/-- KV_APPEND (R163). -/
def execKvAppend (h : HalfId) (cmd : Nat) (s : State) : Host.Outcome State Fault Refusal :=
  .next (s.mod h (fun x => x.start cmd 3 0x10 (fun _ _ => true) appendChecks appendWork))

/-! ### Maintenance (R173, R174) -/

/-- ARG0 of a command. -/
def kvArg0 (c : Cmd) : Nat := df c.desc 0x64 32
/-- ARG1 of a command. -/
def kvArg1 (c : Cmd) : Nat := df c.desc 0x68 32

/-- The work of KV_PIN (R174). -/
def pinWork (x : Half) (c : Cmd) (_ : Option Nat) : Work :=
  onSeq x c (fun p q =>
    let set := db c.desc 0x74 3
    let hit := fun (k : KPage) t => kvArg0 c ≤ k.posAt t && k.posAt t < kvArg0 c + kvArg1 c
    let pins := fun (k : KPage) => k.live.filter (fun t => if hit k t then set else k.pin.getLsbD t)
    let changed := (x.kpages p q).filter (fun k => maskOf (pins k) ≠ maskOf (k.live.filter (fun t => k.pin.getLsbD t)))
    { writes := if changed = [] then [] else changed.flatMap (fun k => wr (p.hdr + k.num * 0x240 + 8) 8 (maskOf (pins k))) ++
        wr (q.va + 0x24) 4 ((q.mods + 1) % 2 ^ 32)
      reads := seqReads x c p q, outs := if changed = [] then [] else (q.va, 64) :: changed.map (fun k => p.hdrAt k.num)
      foot := min q.pages (kvArg1 c) * 0x240 + 64, inst := kvInst x, det0 := kvDetail x 0 0 })

/-- The checks of KV_PIN (R174). -/
def pinChecks (x : Half) (c : Cmd) : List Chk :=
  kvRsv c [0x20, 0x64, 0x68] 0x08 ++ seqChecks x c ++ [{ bad := kvArg1 c = 0, st := stEmpty }] ++
    withSeq x c (fun p _ => [kvFoot (pinWork x c none).foot, kvWritable x p (pinWork x c none).outs])

/-- KV_PIN: sets or clears the pin of every live slot in a position range (R174). -/
def execKvPin (h : HalfId) (cmd : Nat) (s : State) : Host.Outcome State Fault Refusal :=
  .next (s.mod h (fun x => x.start cmd 3 0x11 (fun _ _ => true) pinChecks pinWork))

/-- The work of KV_EVICT (R172, R173): every page that it touches gets its header and index record rewritten, a page that it empties
its index record. -/
def evictWork (x : Half) (c : Cmd) (_ : Option Nat) : Work :=
  onSeq x c (fun p q =>
    let ks := x.kpages p q
    let n := q.live - kvArg0 c
    let after := clearSlots ks ((candidates x.seed q ks).take n)
    let keep := after.filter (fun k => !k.dead)
    let freed := (after.filter (fun k => k.dead)).map (·.num)
    let touched := keep.filter (fun k => !ks.contains k)
    if n = 0 then { reads := seqReads x c p q, inst := kvInst x, det0 := kvDetail x 0 0 }
    else
    { writes := touched.flatMap (fun k => hdrWrites p k q.tag k.step k.fill (x.image p k) ++
          indexWrites x.seed p k.num (x.image p k)) ++ freed.flatMap (indexEmpty x.seed p) ++
        seqWrites q (keep.map (·.num)) 0 (q.live - n) q.next (q.mods + 1) q.step
      reads := kvReads x c p q (touched.map (·.num))
      outs := kvOuts p q [] (touched.map (·.num) ++ freed) freed 0 keep.length
      foot := p.footOf 0 (min q.pages n) q.pages, inst := kvInst x, det0 := kvDetail x 0 freed.length
      eff := .poolFree c.ctx q.pool [] freed })

/-- The checks of KV_EVICT (R172, R173). -/
def evictChecks (x : Half) (c : Cmd) : List Chk :=
  kvRsv c [0x20, 0x64] 0 ++ seqChecks x c ++ withSeq x c (fun p q =>
    [{ bad := (candidates x.seed q (x.kpages p q)).length < q.live - kvArg0 c, st := stLimit, off := 0x64 },
     kvFoot (evictWork x c none).foot, kvWritable x p (evictWork x c none).outs])

/-- KV_EVICT: evicts to ARG0 live tokens (R172, R173). -/
def execKvEvict (h : HalfId) (cmd : Nat) (s : State) : Host.Outcome State Fault Refusal :=
  .next (s.mod h (fun x => x.start cmd 3 0x12 (fun _ _ => true) evictChecks evictWork))

/-- The live slots of a range of pages, each with its effective score, in position order (R174). -/
def compactSlots (x : Half) (p : Pool) (q : Seqr) (ks : List KPage) : List KSlot :=
  ks.flatMap (fun k => k.live.map (fun t => { x.kslot p k t with score := f32code (effScore x.seed q k t) }))

/-- The work of KV_COMPACT (R174). The pages that it frees lose their live tokens, so their index records are rewritten too (R156). -/
def compactWork (x : Half) (c : Cmd) (_ : Option Nat) : Work :=
  onSeq x c (fun p q =>
    let all := x.pageList c.ctx q
    let range := ((all.drop (kvArg0 c)).take (kvArg1 c)).map (x.kpage p)
    let slots := compactSlots x p q range
    let used := cdiv slots.length 64
    let keep := range.take used
    let freed := (range.drop used).map (·.num)
    let ws := keep.zipIdx.flatMap (fun n =>
      let im : Image := ((slots.drop (64 * n.2)).take 64).zipIdx.map (fun s => (s.2, s.1))
      hdrWrites p n.1 q.tag q.step im.length im ++ indexWrites x.seed p n.1.num im ++ im.flatMap (slotWrites x p n.1.num))
    let list := all.take (kvArg0 c) ++ keep.map (·.num) ++ all.drop (kvArg0 c + kvArg1 c)
    { writes := ws ++ freed.flatMap (indexEmpty x.seed p) ++ seqWrites q list (kvArg0 c) q.live q.next (q.mods + 1) q.step
      reads := kvReads x c p q (range.map (·.num))
      outs := kvOuts p q (keep.map (·.num)) freed freed (kvArg0 c) list.length
      foot := p.footOf (kvArg1 c) 0 q.pages, inst := kvInst x, det0 := kvDetail x 0 freed.length
      eff := .poolFree c.ctx q.pool [] freed })

/-- The checks of KV_COMPACT (R174). -/
def compactChecks (x : Half) (c : Cmd) : List Chk :=
  kvRsv c [0x20, 0x64, 0x68] 0 ++ seqChecks x c ++ [{ bad := kvArg1 c = 0, st := stEmpty }] ++
    withSeq x c (fun p q =>
      [{ bad := q.pages < kvArg0 c + kvArg1 c, st := stMalformed, off := 0x64 }, kvFoot (compactWork x c none).foot,
       kvWritable x p (compactWork x c none).outs])

/-- KV_COMPACT: rewrites the live slots of a range into the fewest pages and frees the rest (R174). A slot's score is kept by
rewriting the page's scores as of the sequence's STEP (log 27). -/
def execKvCompact (h : HalfId) (cmd : Nat) (s : State) : Host.Outcome State Fault Refusal :=
  .next (s.mod h (fun x => x.start cmd 3 0x13 (fun _ _ => true) compactChecks compactWork))

/-- The work of KV_RELEASE (R174): every page is freed, and its index record shows no live token (R156). -/
def releaseWork (x : Half) (c : Cmd) (_ : Option Nat) : Work :=
  onSeq x c (fun p q =>
    let ns := x.pageList c.ctx q
    { writes := ns.flatMap (indexEmpty x.seed p) ++ seqWrites q [] 0 0 0 (q.mods + 1) 0, reads := seqReads x c p q
      outs := (q.va, 64) :: ns.map p.indexAt ++ p.mapAt ns
      foot := ns.length * (p.indexStride + 8) + 64, inst := kvInst x, det0 := kvDetail x 0 ns.length
      eff := .poolFree c.ctx q.pool [] ns })

/-- The checks of KV_RELEASE (R174). -/
def releaseChecks (x : Half) (c : Cmd) : List Chk :=
  kvRsv c [0x20] 0 ++ seqChecks x c ++ withSeq x c (fun p _ => [kvFoot (releaseWork x c none).foot,
    kvWritable x p (releaseWork x c none).outs])

/-- KV_RELEASE: frees every page of the sequence (R174). -/
def execKvRelease (h : HalfId) (cmd : Nat) (s : State) : Host.Outcome State Fault Refusal :=
  .next (s.mod h (fun x => x.start cmd 3 0x14 (fun _ _ => true) releaseChecks releaseWork))

end Sys2Proof.Machine
end

