-- ==== Sys2Proof/Machine/Attend.lean ====
section
/-! DEFINITION. ATTEND and ATTEND_BWD of unit 0x03 (spec/06_attention_and_kv.md R165 to R170, R175, R176, R181). -/

namespace Sys2Proof.Machine

/-! ### Retrieval (R165, R166) -/

/-- The coarse index record of a page. -/
structure KIndex where
  /-- MAX_NORM. -/
  norm : Num
  /-- FIRST_POS. -/
  first : Nat
  /-- MEAN_KEY. -/
  mean : List Num
  deriving DecidableEq, Repr

/-- Reads a page's coarse index record (R156). -/
def Half.kindex (x : Half) (p : Pool) (n : Nat) : KIndex :=
  let va := p.index + n * p.indexStride
  { norm := f32 (x.vnat p.ctx va 4), first := x.vnat p.ctx (va + 8) 4
    mean := (List.range p.d).map (fun i => bf16.decode (x.vnat p.ctx (va + 16 + 2 * i) 2)) }

/-- Q of an attention command. -/
def atQ (x : Half) (c : Cmd) : TD := operand x c 0x28
/-- G. -/
def atG (x : Half) (c : Cmd) : Nat := (atQ x c).e 1
/-- Tq. -/
def atT (x : Half) (c : Cmd) : Nat := (atQ x c).e 2
/-- RETRIEVE. -/
def atRetrieve (c : Cmd) : Bool := db c.desc 0x74 0
/-- CAUSAL. -/
def atCausal (c : Cmd) : Bool := db c.desc 0x74 1
/-- UPDATE_SCORES. -/
def atUpdate (c : Cmd) : Bool := db c.desc 0x74 2
/-- TOPK. -/
def atTopk (c : Cmd) : Nat := df c.desc 0x70 16
/-- FORCE_RECENT. -/
def atForce (c : Cmd) : Nat := df c.desc 0x72 16
/-- SCALE. -/
def atScale (c : Cmd) : Num := f32 (df c.desc 0x5C 32)

/-- A query vector, by head and token. -/
def qVec (x : Half) (c : Cmd) (g i : Nat) : List Num := (List.range ((atQ x c).e 0)).map (fun e => (atQ x c).get x c.ctx [e, g, i])

/-- A sum of products on the vector unit, in FP32 with subnormals kept (spec/03_arithmetic_formats.md R77), the terms in free order, each
product rounded or not as the hardware does (log 8). -/
def vecSum (seed key : Nat) (l : List (Num × Num)) : Num :=
  let rounded := Config.elemNat seed key 1 % 2 = 1
  fsum seed key (l.map (fun p => if rounded then fmul (ld p.1) (ld p.2) else (ld p.1).mul (ld p.2)))

/-- A dot product on the vector unit. -/
def dot32 (seed key : Nat) (a b : List Num) : Num := vecSum seed key (a.zip b)

/-- A dot product of two vectors in formats `fa` and `fb`: on the MAC array where it takes the pair, products of two MX blocks summed
exactly, else on the vector unit (spec/03_arithmetic_formats.md R75 to R77). -/
def dotOf (seed key fa fb : Nat) (a b : List Num) : Num :=
  if (macPair fa fb).isSome then
    macSum seed key (macTerms (isMx fa && isMx fb) a.length (fun i => a[i]?.getD .zero) (fun i => b[i]?.getD .zero))
  else dot32 seed key a b

/-- The score of a page: the maximum over the query vectors of (1 - ρ)(q · μ) + ρ ‖q‖ N (R165). -/
def pageScore (x : Half) (c : Cmd) (p : Pool) (n : Nat) : Num :=
  let k := x.kindex p n
  let rho := f32 (df c.desc 0x60 32)
  let one := fun j (q : List Num) =>
    let nq := fsqrt x.seed (sub (rk n 10) j) (dot32 x.seed (sub (rk n 11) j) q q)
    axpby x.seed (sub (rk n 12) j) (fsub .one rho) (dot32 x.seed (sub (rk n 13) j) q k.mean) (fmul rho nq) k.norm
  foldRow (fun j => fmax x.seed (sub (rk n 14) j))
    ((List.range (atG x c * atT x c)).map (fun j => one j (qVec x c (j % atG x c) (j / atG x c))))

/-- The pages of the list with their list indices. -/
def listed (x : Half) (p : Pool) (q : Seqr) : List (Nat × KPage) := (x.kpages p q).zipIdx.map (fun k => (k.2, k.1))

/-- Step 1 of R166: pages that CAUSAL does not exclude. -/
def eligible (x : Half) (c : Cmd) (p : Pool) (q : Seqr) : List (Nat × KPage) :=
  (listed x p q).filter (fun k => !(atCausal c && kvArg0 c + atT x c ≤ (x.kindex p k.2.num).first))

/-- A forced page: it holds a pinned slot or a position below SINK_TOKENS, or is among the newest FORCE_RECENT (R166). -/
def forcedPage (c : Cmd) (q : Seqr) (k : Nat × KPage) : Bool :=
  k.2.live.any (fun t => k.2.pin.getLsbD t || k.2.posAt t < q.sink) || q.pages < k.1 + 1 + atForce c

/-- One page ranks before another: higher score, NaN last, the higher list index among equals (R165, R166). -/
def ranksBefore (a b : Num × Nat) : Bool :=
  if a.1.isNan then b.1.isNan && b.2 < a.2 else b.1.isNan || b.1.lt a.1 || (!(a.1.lt b.1) && b.2 < a.2)

/-- The list indices of the pages that a command attends (R166, R167). -/
def attended (x : Half) (c : Cmd) (p : Pool) (q : Seqr) : List (Nat × KPage) :=
  if !atRetrieve c then listed x p q
  else
    let el := eligible x c p q
    let rest := (el.filter (fun k => !forcedPage c q k)).map (fun k => (pageScore x c p k.2.num, k.1))
    let top := (rest.filter (fun a => (rest.filter (fun b => ranksBefore b a)).length < atTopk c)).map (·.2)
    el.filter (fun k => forcedPage c q k || top.contains k.1)

/-! ### Softmax over the attended slots (R169) -/

/-- The scaled score of a query vector against a slot: SCALE × (q · k). -/
def qkScore (x : Half) (c : Cmd) (p : Pool) (qv : List Num) (j : Nat) (k : KPage) (t : Nat) : Num :=
  let kv := vecNums p.kFmt (x.slotVec p k.num t false)
  let terms := macTerms (isMx p.kFmt) p.d (fun i => qv[i]?.getD .zero) (fun i => kv[i]?.getD .zero)
  fmul (atScale c) (macSum x.seed (sub (rk (64 * k.num + t) 15) j) terms)

/-- The scores of a page's slots that query token i may see. -/
def pageScores (x : Half) (c : Cmd) (p : Pool) (qv : List Num) (j i : Nat) (k : KPage) : List (Nat × Num) :=
  (k.live.filter (fun t => !(atCausal c && kvArg0 c + i < k.posAt t))).map (fun t => (t, qkScore x c p qv j k t))

/-- The running maximum, denominator and numerator of the online softmax. -/
structure Run where
  /-- m. -/
  m : Num := .inf true
  /-- l. -/
  l : Num := .zero
  /-- Σ exp(s - m) v. -/
  o : List Num := []
  deriving DecidableEq, Repr

/-- Format to which probabilities are rounded before the products with V (R169). -/
def pFmt (v : Nat) : Nat := if v = 0x08 || v = 0x09 then 0x08 else if isMx v then 0x0A else v

/-- The probabilities of a page's 64 slots rounded to the P format. Which 32 of them share an MXFP8 block is the model's choice: slots 0 to
31 and 32 to 63 of each page, a slot that the query does not see as zero (log 90). -/
def roundProbs (v : Nat) (ps : List (Nat × Num)) : List (Nat × Num) :=
  let f := pFmt v
  if isMx f then
    (List.range 2).flatMap (fun b =>
      let at32 := (List.range 32).map (fun i => ((ps.find? (fun p => p.1 = 32 * b + i)).map (·.2)).getD .zero)
      let blk := mxBlock f at32
      (blk.2.zipIdx.filter (fun e => ps.any (fun p => p.1 = 32 * b + e.2))).map (fun e => (32 * b + e.2, decodeMx f e.1.1 blk.1)))
  else ps.map (fun p => (p.1, decodeElem f (encodeElem f true none p.2).1))

/-- The products of P and V that the accumulator takes as one term: those of the slots of one MX block of P for MX values, else one slot
each (spec/03_arithmetic_formats.md R76; log 90). -/
def pvBlocks (v : Nat) (l : List (Nat × Num × List Num)) : List (List (Num × List Num)) :=
  if isMx v then ((List.range 2).map (fun b => (l.filter (fun s => s.1 / 32 = b)).map (·.2))).filter (· ≠ [])
  else l.map (fun s => [s.2])

/-- Such a term for element e of O: summed exactly, and an infinity where it overflows FP32 (R76). -/
def pvTerm (e : Nat) (l : List (Num × List Num)) : Num := blockTerm (l.map (fun s => s.1.mul (s.2[e]?.getD .zero)))

/-- One block of at most four pages: the running maximum is rescaled and the block's terms are added (R169). -/
def runBlock (x : Half) (c : Cmd) (p : Pool) (qv : List Num) (j i : Nat) (r : Run) (blk : List KPage) : Run :=
  let sc := blk.map (fun k => (k, pageScores x c p qv j i k))
  let all := sc.flatMap (fun s => s.2.map (·.2))
  if all = [] then r
  else
    let key := fun u => sub (rk (blk.headD {}).num u) j
    let m := foldRow (fun e => fmax x.seed (sub (key 16) e)) (r.m :: all)
    let f := fexp x.seed (key 17) (fsub r.m m)
    let ps := sc.map (fun s => (s.1, s.2.map (fun t => (t.1, fexp x.seed (sub (rk (64 * s.1.num + t.1) 18) j) (fsub t.2 m)))))
    let l := fadd (fmul r.l f) (fsum x.seed (key 19) (ps.flatMap (fun s => s.2.map (·.2))))
    let pv := ps.flatMap (fun s => pvBlocks p.vFmt ((roundProbs p.vFmt s.2).map (fun t =>
      (t.1, t.2, vecNums p.vFmt (x.slotVec p s.1.num t.1 true)))))
    let o := (List.range p.d).map (fun e =>
      (anyOrder x.seed (sub (key 20) e) (pv.map (pvTerm e))).foldl macAdd (fmul (r.o[e]?.getD .zero) f))
    { m := m, l := l, o := o }

/-- Pages in blocks of four (R181). -/
def blocks4 (l : List KPage) : List (List KPage) := (List.range (cdiv l.length 4)).map (fun i => (l.drop (4 * i)).take 4)

/-- The softmax of one query vector over the attended pages. -/
def runQuery (x : Half) (c : Cmd) (p : Pool) (pages : List KPage) (g i : Nat) : Run :=
  (blocks4 pages).foldl (runBlock x c p (qVec x c g i) (i * atG x c + g) i) {}

/-- The query vector sees some slot. -/
def seesAny (x : Half) (c : Cmd) (p : Pool) (pages : List KPage) (g i : Nat) : Bool :=
  pages.any (fun k => pageScores x c p (qVec x c g i) (i * atG x c + g) i k ≠ [])

/-- One element of O: Σ p v / l, zero where no slot is attended (R169). -/
def attendOut (x : Half) (c : Cmd) (p : Pool) (pages : List KPage) (n : Nat) (idx : List Nat) : Out :=
  let g := at' idx 1
  let i := at' idx 2
  if seesAny x c p pages g i then
    let r := runQuery x c p pages g i
    (fdiv x.seed (ek n 21) (r.o[at' idx 0]?.getD .zero) r.l, false)
  else (.zero, false)

/-- One element of STATS: m and l of a query vector; -∞ and zero where no slot is attended (R169, R170). -/
def statsOut (x : Half) (c : Cmd) (p : Pool) (pages : List KPage) (_ : Nat) (idx : List Nat) : Out :=
  let g := at' idx 1
  let i := at' idx 2
  let r := runQuery x c p pages g i
  if seesAny x c p pages g i then (if at' idx 0 = 0 then r.m else r.l, false)
  else (if at' idx 0 = 0 then .inf true else .zero, false)

/-- One element of SEL: the attended list indices ascending, then -1 (R170). -/
def selOut (sel : List Nat) (_ : Nat) (idx : List Nat) : Out :=
  (match sel[at' idx 0]? with
    | some v => .ofInt v
    | none => .ofInt (-1), false)

/-! ### Score updates (R171) -/

/-- a_t: the attention mass of a slot over all query vectors. -/
def mass (x : Half) (c : Cmd) (p : Pool) (pages : List KPage) (k : KPage) (t : Nat) : Num :=
  let qs := (List.range (atG x c * atT x c)).filterMap (fun j =>
    let g := j % atG x c
    let i := j / atG x c
    let r := runQuery x c p pages g i
    ((pageScores x c p (qVec x c g i) j i k).find? (fun s => s.1 = t)).map (fun s =>
      fdiv x.seed (sub (rk (64 * k.num + t) 22) j) (fexp x.seed (sub (rk (64 * k.num + t) 23) j) (fsub s.2 r.m)) r.l))
  fsum x.seed (rk (64 * k.num + t) 24) qs

/-- The scores of an attended page after the step, and its SCORE_STEP. -/
def scoreWrites (x : Half) (c : Cmd) (p : Pool) (q : Seqr) (pages : List KPage) (k : KPage) : List (Nat × Byte) :=
  let va := p.hdr + k.num * 0x240
  wr (va + 0x14) 4 ((q.step + 1) % 2 ^ 32) ++ k.live.flatMap (fun t => wr (va + 0x44 + 8 * t) 4 (f32code
    (fadd (fmul (decayPow x.seed (rk k.num 5) q.decay (q.step - k.step)) (f32 (k.score[t]?.getD 0))) (mass x c p pages k t))))

/-! ### Checks (R159, R167 to R170, R175 to R177) -/

/-- A floating output format. -/
def floatFmt (f : Nat) : Bool := formatCodes.contains f && !isIntFmt f

/-- The operand checks, with the extents wanted. -/
def atOperand (x : Half) (c : Cmd) (off k nd : Nat) (out : Bool) (want : List Nat) (fmtOk : Nat → Bool) : List Chk :=
  operandChecks x c off k out [0] ++
  (if descAddrOk x c off then
    let t := operand x c off
    [{ bad := t.nd ≠ nd, st := stMalformed, off := 0x100 * k + 8 }, { bad := t.sparse, st := stUnsupported },
     { bad := formatCodes.contains t.fmt && !fmtOk t.fmt, st := stUnsupported }] ++
    want.zipIdx.map (fun w => { bad := t.e w.2 ≠ w.1, st := stMalformed, off := 0x100 * k + 0x10 + 8 * w.2 })
   else [])

/-- Checks of Q, of the pair with the keys, and of the limits (R168, R177). -/
def qChecks (x : Half) (c : Cmd) (p : Pool) : List Chk :=
  let t := atQ x c
  atOperand x c 0x28 2 3 false [p.d] (fun _ => true) ++
  (if descAddrOk x c 0x28 then
    [{ bad := formatCodes.contains t.fmt && (macPair t.fmt p.kFmt).isNone, st := stUnsupported },
     { bad := 32 < t.e 1, st := stLimit, off := 0x218 }, { bad := 16384 < t.e 2, st := stLimit, off := 0x220 }]
   else [])

/-- Pages that the worst case of an ATTEND reads (R177). -/
def worstPages (x : Half) (c : Cmd) (p : Pool) (q : Seqr) : Nat :=
  if atRetrieve c then min q.pages (atTopk c + ((eligible x c p q).filter (forcedPage c q)).length) else q.pages

/-- The checks of ATTEND. -/
def attendChecks (x : Half) (c : Cmd) : List Chk :=
  let rho := f32 (df c.desc 0x60 32)
  kvRsv c ([0x20, 0x28, 0x40, 0x48, 0x50, 0x58, 0x5C, 0x60, 0x64] ++ (if atRetrieve c then [0x70, 0x72] else [])) 0x07 ++
  seqChecks x c ++
  [{ bad := atRetrieve c && (rho.isNan || rho.lt .zero || Num.one.lt rho), st := stMalformed, off := 0x60 },
   { bad := atRetrieve c && atTopk c = 0, st := stMalformed, off := 0x70 },
   { bad := 256 < atTopk c, st := stLimit, off := 0x70 }, { bad := 256 < atForce c, st := stLimit, off := 0x72 },
   { bad := df c.desc 0x50 64 ≠ 0 && !atRetrieve c, st := stMalformed, off := 0x50 }] ++
  withSeq x c (fun p q =>
    let t := atQ x c
    let g := t.e 1
    let n := t.e 2
    let ok := descAddrOk x c 0x28
    qChecks x c p ++
    (if ok then
      atOperand x c 0x40 5 3 true [p.d, g, n] floatFmt ++
      (if df c.desc 0x48 64 ≠ 0 then atOperand x c 0x48 6 3 true [2, g, n] (fun f => f = 0x14) else []) ++
      (if df c.desc 0x50 64 ≠ 0 then atOperand x c 0x50 7 1 true [] (fun f => f = 0x18) ++
        [{ bad := descAddrOk x c 0x50 && (operand x c 0x50).e 0 < atTopk c + ((eligible x c p q).filter (forcedPage c q)).length
           st := stLimit, off := 0x710 }] else []) ++
      [{ bad := 64000000 < ([0x40, 0x48, 0x50].filter (fun o => df c.desc o 64 ≠ 0 && descAddrOk x c o)).foldl
          (fun a o => a + (operand x c o).foot) 0 + (if atUpdate c then worstPages x c p q * 0x240 + 64 else 0)
         st := stLimit, off := 0x40 }] ++
      (if atUpdate c then [kvWritable x p ((q.va, 64) :: (x.pageList c.ctx q).map p.hdrAt)] else [])
     else []))

/-! ### Timing (R180, R181) -/

/-- K-block of a pair class. -/
def kBlk (w : Nat) : Nat := if w = 16 then 32 else if w = 4 then 256 else 128

/-- Predicted cycles of an ATTEND at an island clock in MHz. -/
def attendCycles (x : Half) (c : Cmd) (p : Pool) (q : Seqr) (pages mhz : Nat) : Nat :=
  let t := atQ x c
  let mq := t.e 1 * t.e 2
  let kb := kBlk ((macPair t.fmt p.kFmt).elim 8 (·.1))
  let vb := kBlk ((macPair (pFmt p.vFmt) p.vFmt).elim 8 (·.1))
  let tiles := List.replicate (mq / 512) 512 ++ (if mq % 512 = 0 then [] else [mq % 512])
  let block := fun m n => max (cdiv p.d kb * max m 64 + cdiv (m * 256) 64 + (if atUpdate c then m else 0) +
    cdiv 256 vb * cdiv p.d 256 * max m 64) (cdiv (n * (p.stride + 576)) 256)
  let blocks := List.replicate (pages / 4) 4 ++ (if pages % 4 = 0 then [] else [pages % 4])
  let score := if atRetrieve c then cdiv ((4800 + q.pages * cdiv mq 8 * cdiv p.d 128) * mhz) 3200 else 0
  200 + score + (tiles.map (fun m => (blocks.map (block m)).sum + cdiv (m * p.d) 256)).sum + 64

/-- The sum of two pairs of counts, each stopping at 0xFFFF (spec/03 R84). -/
def addCounts (a b : Nat) : Nat := min 0xFFFF (a / 65536 + b / 65536) * 65536 + min 0xFFFF (a % 65536 + b % 65536)

/-- Writes an optional output. -/
def optWrite (x : Half) (c : Cmd) (off : Nat) (val : Nat → List Nat → Out) : List (Nat × Byte) × Nat :=
  if df c.desc off 64 = 0 then ([], 0) else (operand x c off).write x c.ctx val

/-- The planes of the outputs that are given. -/
def outPlanes (x : Half) (c : Cmd) (offs : List Nat) : List (Nat × Nat) :=
  (offs.filter (fun o => df c.desc o 64 ≠ 0)).flatMap (fun o => (operand x c o).planes)

/-- DETAIL0 of an engine operation of unit 0x03 (R162). -/
def atDetail (cyc pages : Nat) : Nat := cyc + min 0xFFFF pages * 2 ^ 32

/-- The work of ATTEND. -/
def attendWork (x : Half) (c : Cmd) (eng : Option Nat) : Work :=
  onSeq x c (fun p q =>
    let sel := attended x c p q
    let pages := sel.map (·.2)
    let o := (operand x c 0x40).write x c.ctx (attendOut x c p pages)
    let st := optWrite x c 0x48 (statsOut x c p pages)
    let sl := optWrite x c 0x50 (selOut (sel.map (·.1)))
    let pred := attendCycles x c p q sel.length ((eng.map (fun n => (x.engine n).clockMhz.toNat)).getD 800)
    let cyc := cyclesFrom x pred
    { writes := o.1 ++ st.1 ++ sl.1 ++ (if atUpdate c then
        pages.flatMap (scoreWrites x c p q pages) ++ wr (q.va + 0x28) 4 ((q.step + 1) % 2 ^ 32) else [])
      reads := [(df c.desc 0x28 64, 64)] ++ (atQ x c).reads x c.ctx ++ kvReads x c p q (pages.map (·.num)) ++
        (if atRetrieve c then (x.pageList c.ctx q).map p.indexAt else [])
      outs := outPlanes x c [0x40, 0x48, 0x50] ++ (if atUpdate c then (q.va, 64) :: pages.map (fun k => p.hdrAt k.num) else [])
      foot := ((outPlanes x c [0x40, 0x48, 0x50]).map (·.2)).sum + (if atUpdate c then worstPages x c p q * 0x240 + 64 else 0)
      det0 := atDetail cyc sel.length, det1 := addCounts (addCounts o.2 st.2) sl.2, predict := pred, cycles := cyc })

/-- ATTEND (R169). -/
def execAttend (h : HalfId) (cmd : Nat) (s : State) : Host.Outcome State Fault Refusal :=
  .next (s.mod h (fun x => x.start cmd 3 0x20 (fun _ _ => true) attendChecks attendWork))

/-! ### ATTEND_BWD (R175, R176) -/

/-- The descriptor that the auxiliary block names at an offset. -/
def auxVa (x : Half) (c : Cmd) (off : Nat) : Nat := x.vnat c.ctx (df c.desc 0x38 64 + off) 8

/-- The auxiliary block can be read. -/
def auxOk (x : Half) (c : Cmd) : Bool := descAddrOk x c 0x38

/-- A descriptor named in the auxiliary block. -/
def auxTd (x : Half) (c : Cmd) (off : Nat) : TD := x.tdesc c.ctx (auxVa x c off)

/-- The address of such a descriptor is usable. -/
def auxAddrOk (x : Half) (c : Cmd) (off : Nat) : Bool :=
  let va := auxVa x c off
  va < vaLimit && va % 64 = 0 && x.mapped c.ctx va 64

/-- The checks of a tensor named in the auxiliary block. -/
def auxChecks (x : Half) (c : Cmd) (off k nd : Nat) (want : List Nat) (fmtOk : Nat → Bool) : List Chk :=
  if auxAddrOk x c off then
    let t := auxTd x c off
    t.checks x c.ctx (0x100 * k) false ++
    [{ bad := t.layout ≤ 4 && t.layout ≠ 0, st := stUnsupported }, { bad := t.sparse, st := stUnsupported },
     { bad := formatCodes.contains t.fmt && !fmtOk t.fmt, st := stUnsupported },
     { bad := t.nd ≠ nd, st := stMalformed, off := 0x100 * k + 8 }] ++
    want.zipIdx.map (fun w => { bad := t.e w.2 ≠ w.1, st := stMalformed, off := 0x100 * k + 0x10 + 8 * w.2 })
  else [{ bad := true, st := stMalformed, off := 0x400 + off }]

/-- SEL is given. -/
def bwdHasSel (x : Half) (c : Cmd) : Bool := auxVa x c 0x10 ≠ 0

/-- The page-list indices that a backward pass names: SEL's entries up to -1, or every page (R175). -/
def bwdNamed (x : Half) (c : Cmd) (q : Seqr) : List Nat :=
  if bwdHasSel x c then
    ((List.range ((auxTd x c 0x10).e 0)).map (fun i => ((auxTd x c 0x10).get x c.ctx [i]).int)).takeWhile (fun v => 0 ≤ v) |>.map
      Int.toNat
  else List.range q.pages

/-- The pages named, in order. -/
def bwdPages (x : Half) (c : Cmd) (p : Pool) (q : Seqr) : List KPage :=
  let ks := x.kpages p q
  (bwdNamed x c q).filterMap (fun i => ks[i]?)

/-- The checks of ATTEND_BWD. -/
def bwdChecks (x : Half) (c : Cmd) : List Chk :=
  let grad := fun f => f = 0x14 || f = 0x10
  kvRsv c [0x20, 0x28, 0x30, 0x38, 0x40, 0x48, 0x50, 0x58, 0x5C, 0x64, 0x6C] 0x02 ++ seqChecks x c ++
  (if auxOk x c then [{ bad := x.vnat c.ctx (df c.desc 0x38 64 + 0x18) 40 ≠ 0, st := stMalformed, off := 0x418 }]
   else [{ bad := true, st := stMalformed, off := 0x38 }]) ++
  withSeq x c (fun p q =>
    let t := atQ x c
    let ext := [p.d, t.e 1, t.e 2]
    [{ bad := df c.desc 0x6C 32 ≠ q.mods, st := stMalformed, off := 0x6C }] ++ qChecks x c p ++
    (if descAddrOk x c 0x28 && auxOk x c then
      atOperand x c 0x30 3 3 false ext floatFmt ++ auxChecks x c 0x00 8 3 ext floatFmt ++
      auxChecks x c 0x08 9 3 [2, t.e 1, t.e 2] (fun f => f = 0x14) ++
      (if bwdHasSel x c then auxChecks x c 0x10 10 1 [] (fun f => f = 0x18) ++
        [{ bad := auxAddrOk x c 0x10 && (auxTd x c 0x10).sane && (bwdNamed x c q).any (fun i => q.pages ≤ i), st := stMalformed
           off := 0xA00 }] else []) ++
      atOperand x c 0x40 5 3 true ext grad ++
      (if df c.desc 0x48 64 ≠ 0 then atOperand x c 0x48 6 2 true [p.d, 64 * (bwdNamed x c q).length] grad else []) ++
      (if df c.desc 0x50 64 ≠ 0 then atOperand x c 0x50 7 2 true [p.d, 64 * (bwdNamed x c q).length] grad else []) ++
      [{ bad := 64000000 < ([0x40, 0x48, 0x50].filter (fun o => df c.desc o 64 ≠ 0 && descAddrOk x c o)).foldl
          (fun a o => a + (operand x c o).foot) 0, st := stLimit, off := 0x40 }]
     else []))

/-- A query vector's part of the backward pass for one slot: p, and dS = p × (dO · v - D). -/
def bwdPair (x : Half) (c : Cmd) (p : Pool) (k : KPage) (t g i : Nat) (s : Num) : Num × Num :=
  let j := i * atG x c + g
  let key := fun u => sub (rk (64 * k.num + t) u) j
  let stat := fun e => (auxTd x c 0x08).get x c.ctx [e, g, i]
  let vec := fun (td : TD) => (List.range p.d).map (fun e => td.get x c.ctx [e, g, i])
  let dO := vec (operand x c 0x30)
  let pr := fdiv x.seed (key 30) (fexp x.seed (key 31) (fsub s (stat 0))) (stat 1)
  let d := dot32 x.seed (sub (rk j 32) 0) dO (vec (auxTd x c 0x00))
  let dv := dotOf x.seed (key 33) (operand x c 0x30).fmt p.vFmt dO (vecNums p.vFmt (x.slotVec p k.num t true))
  (pr, fmul pr (fsub dv d))

/-- The slots that a query vector sees in the named pages, with their terms. -/
def bwdSlots (x : Half) (c : Cmd) (p : Pool) (pages : List KPage) (g i : Nat) : List (KPage × Nat × Num × Num) :=
  pages.flatMap (fun k => (pageScores x c p (qVec x c g i) (i * atG x c + g) i k).map (fun s => (k, s.1, bwdPair x c p k s.1 g i s.2)))

/-- One element of dQ: SCALE × Σ_t dS × k_t. dS is FP32, which the vector unit takes (spec/03_arithmetic_formats.md R75, R77). -/
def dqOut (x : Half) (c : Cmd) (p : Pool) (pages : List KPage) (n : Nat) (idx : List Nat) : Out :=
  let e := at' idx 0
  (fmul (atScale c) (vecSum x.seed (ek n 34) ((bwdSlots x c p pages (at' idx 1) (at' idx 2)).map (fun s =>
    (s.2.2.2, (vecNums p.kFmt (x.slotVec p s.1.num s.2.1 false))[e]?.getD .zero)))), false)

/-- One element of dK or dV of row 64 i + t, summed on the vector unit, which takes FP32 operands; a slot that is not live or is masked for every query is zero (R175, R176). -/
def dkvOut (x : Half) (c : Cmd) (p : Pool) (pages : List KPage) (isV : Bool) (n : Nat) (idx : List Nat) : Out :=
  let e := at' idx 0
  let row := at' idx 1
  match pages[row / 64]? with
  | none => (.zero, false)
  | some k =>
    let terms := (List.range (atG x c * atT x c)).filterMap (fun j =>
      let g := j % atG x c
      let i := j / atG x c
      ((pageScores x c p (qVec x c g i) j i k).find? (fun s => s.1 = row % 64)).map (fun s =>
        let b := bwdPair x c p k (row % 64) g i s.2
        if isV then (b.1, (operand x c 0x30).get x c.ctx [e, g, i]) else (b.2, (qVec x c g i)[e]?.getD .zero)))
    if terms = [] then (.zero, false)
    else
      let sum := vecSum x.seed (ek n 35) terms
      (if isV then sum else fmul (atScale c) sum, false)

/-- The work of ATTEND_BWD. -/
def bwdWork (x : Half) (c : Cmd) (eng : Option Nat) : Work :=
  onSeq x c (fun p q =>
    let pages := bwdPages x c p q
    let dq := (operand x c 0x40).write x c.ctx (dqOut x c p pages)
    let dk := optWrite x c 0x48 (dkvOut x c p pages false)
    let dv := optWrite x c 0x50 (dkvOut x c p pages true)
    let one := attendCycles x c p q pages.length ((eng.map (fun n => (x.engine n).clockMhz.toNat)).getD 800)
    let pred := one * 5 / 2
    let cyc := cyclesFrom x pred
    { writes := dq.1 ++ dk.1 ++ dv.1
      reads := [(df c.desc 0x28 64, 64), (df c.desc 0x30 64, 64), (df c.desc 0x38 64, 64),
          (auxVa x c 0x00, 64), (auxVa x c 0x08, 64)] ++ (if bwdHasSel x c then (auxTd x c 0x10).reads x c.ctx else []) ++
        (atQ x c).reads x c.ctx ++ (operand x c 0x30).reads x c.ctx ++ (auxTd x c 0x00).reads x c.ctx ++
        (auxTd x c 0x08).reads x c.ctx ++ kvReads x c p q (pages.map (·.num))
      outs := outPlanes x c [0x40, 0x48, 0x50], foot := ((outPlanes x c [0x40, 0x48, 0x50]).map (·.2)).sum
      det0 := atDetail cyc pages.length, det1 := addCounts (addCounts dq.2 dk.2) dv.2, predict := pred, cycles := cyc })

/-- ATTEND_BWD (R176). -/
def execAttendBwd (h : HalfId) (cmd : Nat) (s : State) : Host.Outcome State Fault Refusal :=
  .next (s.mod h (fun x => x.start cmd 3 0x21 (fun _ _ => true) bwdChecks bwdWork))

end Sys2Proof.Machine
end

