-- ==== Sys2Proof/Machine/Gather.lean ====
section
/-! DEFINITION. Unit 0x04, the gather logic and the hot-row directory (spec/07_gather_engine.md R182 to R200). -/

namespace Sys2Proof.Machine

/-! ### The hot-row directory (R190 to R193) -/

/-- Bytes of a table row with its scale bytes (R182, R190). -/
def rowBytes (t : TD) : Nat := cdiv (t.e 0 * fmtBits t.fmt) 8 + (if isMx t.fmt then cdiv (t.e 0) 32 else 0)

/-- Virtual address of a table row. -/
def rowVa (t : TD) (r : Nat) : Nat := t.base + r * t.s 1 * fmtBits t.fmt / 8

/-- The mapping of a virtual address, by which a directory entry is tagged (R190). -/
def Half.mappingAt (x : Half) (ctx va : Nat) : Nat := match x.blockAt ctx va with
  | some (st, f, _) => st * stackFrames + f
  | none => 0

/-- An entry holds the row. -/
def HotEntry.is (e : HotEntry) (ctx va frame len : Nat) : Bool := e.ctx = ctx && e.va = va && e.frame = frame && e.len = len

/-- Admits a row to the client's partition (R190, R191, R192). -/
def Half.admitRow (x : Half) (d : HotDir) (client ctx va frame len : Nat) (sc : Nat × Nat) : HotDir :=
  let inSvc := x.slicesIn
  let e : HotEntry := { ctx := ctx, va := va, frame := frame, len := len, sva := sc.1, slen := sc.2 }
  let slices := (List.range e.size).map (fun i => inSvc[Config.hotSlice ctx va i % max 1 inSvc.length]?.getD 0)
  match x.hotPart client with
  | none => d
  | some (p, cap) =>
    if 2048 < len || cap < e.size then d
    else { d with entries := sweep p (cap - e.size) (2 * d.entries.length + 1) d.entries ++ [{ e with slices := slices, part := p }] }

/-- Looks a row up: counts the lookup, halves the counters after each 1,048,576, and says whether the row is held (R191). -/
def HotDir.look (d : HotDir) (ctx va frame len : Nat) : HotDir × Bool :=
  let d := { d with
    lookups := (d.lookups + 1) % 1048576
    sketch := if d.lookups + 1 = 1048576 then
        (d.sketch.map (fun (k : Nat × Nat) => (k.1, k.2 / 2))).filter (fun k => k.2 ≠ 0)
      else d.sketch }
  if d.entries.any (fun e => e.is ctx va frame len) then
    ({ d with entries := d.entries.map (fun (e : HotEntry) => if e.is ctx va frame len then { e with hit := true } else e) }, true)
  else (d, false)

/-- A row read from DRAM counts in the sketch, and the new count is told (R191). -/
def HotDir.count (d : HotDir) (i : Nat) : HotDir × Nat :=
  let n := min 15 (((d.sketch.find? (fun k => k.1 = i)).elim 0 (·.2)) + 1)
  ({ d with sketch := (i, n) :: d.sketch.filter (fun k => k.1 ≠ i) }, n)

/-- One row of a command: the directory after it, and whether the directory served it. `load` is HOT_LOAD, which admits a row whatever
its counter; `sc` are the row's scale bytes. -/
def Half.hotRow (x : Half) (c : Cmd) (load : Bool) (policy len : Nat) (d : HotDir) (va : Nat) (sc : Nat × Nat) : HotDir × Bool :=
  let f := x.mappingAt c.ctx va
  if policy = 2 || (x.hotPart c.client).isNone then (d, false)
  else
    let (d, hit) := d.look c.ctx va f len
    if hit then (d, true)
    else if policy = 0 then
      let (d, n) := d.count (Config.hotHash c.ctx va f % 1048576)
      (if load || x.cfgb.hotThreshold ≤ n then x.admitRow d c.client c.ctx va f len sc else d, false)
    else (d, false)

/-! ### Operands and checks (R182, R183, R184, R186, R198) -/

/-- A bag operation. -/
def isBag (c : Cmd) : Bool := 0x02 ≤ dOp c.desc && dOp c.desc ≤ 0x04

/-- HOT_LOAD. -/
def isLoad (c : Cmd) : Bool := dOp c.desc = 0x10

/-- Weights are given. -/
def hasWgt (c : Cmd) : Bool := df c.desc 0x38 64 ≠ 0 && dOp c.desc ≤ 0x02

/-- A count output is given. -/
def hasCnt (c : Cmd) : Bool := df c.desc 0x48 64 ≠ 0 && isBag c

/-- The operands of a gather command: number k, body offset, and whether it is an output. -/
def gOperands (c : Cmd) : List (Nat × Nat × Bool) :=
  [(1, 0x20, false), (2, 0x28, false)] ++ (if isBag c then [(3, 0x30, false)] else []) ++
    (if hasWgt c then [(4, 0x38, false)] else []) ++ (if isLoad c then [] else [(5, 0x40, true)]) ++
    (if hasCnt c then [(6, 0x48, true)] else [])

/-- Every operand's descriptor can be read, so that checks across operands are made, whatever else is wrong with one (R9). -/
def gRead (x : Half) (c : Cmd) : Bool := (gOperands c).all (fun o => descAddrOk x c o.2.1)

/-- The checks of one operand: what every tensor satisfies, its layout, its format and its dimensions (R182, R183). -/
def gOperand (x : Half) (c : Cmd) (o : Nat × Nat × Bool) : List Chk :=
  if !descAddrOk x c o.2.1 then [{ bad := true, st := stMalformed, off := o.2.1 }]
  else
    let t := operand x c o.2.1
    let b := 0x100 * o.1
    let mal := fun (bad : Bool) (f : Nat) => ({ bad := bad, st := stMalformed, off := b + f } : Chk)
    let known := formatCodes.contains t.fmt
    let fmts := if o.1 = 2 || o.1 = 3 || o.1 = 6 then [0x18] else if o.1 = 4 then [0x14, 0x10, 0x11] else formatCodes
    let dims := if o.1 = 1 || o.1 = 5 then 2 else 1
    t.checks x c.ctx b o.2.2 ++
      [{ bad := known && !(fmts.contains t.fmt), st := stUnsupported },
       { bad := o.1 ≠ 1 && decide (t.layout ≤ 4) && decide (t.layout ≠ 0), st := stUnsupported },
       mal (t.nd ≠ dims && (o.1 = 1 || t.nd ≠ 0)) 0x08] ++
      (if o.1 = 1 then
        [mal (t.layout ≠ 4) 0x07, mal (t.sparse) 0x0A, mal (t.s 0 ≠ 1) 0x14, mal (t.s 1 < t.e 0 || t.s 1 = 0) 0x1C,
         mal (known && fmtBits t.fmt = 4 && t.s 1 % 2 ≠ 0) 0x1C, mal (known && fmtBits t.fmt = 6 && t.s 1 % 4 ≠ 0) 0x1C,
         { bad := decide (16384 < t.e 0) || (known && decide (32768 < rowBytes t)), st := stLimit, off := b + 0x10 },
         { bad := decide (2147483647 < t.e 1), st := stLimit, off := b + 0x18 },
         { bad := t.sane && decide (68719476736 < t.foot), st := stLimit, off := o.2.1 }]
      else [{ bad := t.sparse, st := stUnsupported }])

/-- The checks of a gather command. -/
def gChecks (x : Half) (c : Cmd) : List Chk :=
  let d := c.desc
  let op := dOp d
  [unusedAt c 0x30 64 (isBag c), { bad := 0x03 ≤ op && df d 0x38 64 ≠ 0, st := stUnsupported },
   unusedAt c 0x40 64 (op ≠ 0x10), unusedAt c 0x48 64 (isBag c), unusedAt c 0x50 32 (op ≠ 0x10),
   { bad := 1 < df d 0x54 8, st := stMalformed, off := 0x54 },
   { bad := 2 < df d 0x55 8 || (op = 0x10 && df d 0x55 8 ≠ 0), st := stMalformed, off := 0x55 },
   dRsv d 0x56 16, dRsv d 0x58 320] ++
  (gOperands c).flatMap (gOperand x c) ++
  (if gRead x c then
    let t := operand x c 0x20
    let i := operand x c 0x28
    let n := i.e 0
    let o := operand x c 0x30
    let w := operand x c 0x38
    let dst := operand x c 0x40
    let k := operand x c 0x48
    let rows := if isBag c then o.e 0 - 1 else n
    let feet := ([dst] ++ (if hasCnt c then [k] else [])).filter TD.sane
    [{ bad := 16777216 < n, st := stLimit, off := 0x210 },
     { bad := isBag c && decide (1048576 < rows), st := stLimit, off := 0x310 },
     { bad := isBag c && o.nd ≠ 0 && dst.nd ≠ 0 && decide (o.e 0 ≠ dst.e 1 + 1), st := stMalformed, off := 0x310 },
     { bad := hasWgt c && w.nd ≠ 0 && i.nd ≠ 0 && w.e 0 ≠ n, st := stMalformed, off := 0x410 },
     { bad := !isLoad c && dst.nd ≠ 0 && dst.e 0 ≠ t.e 0, st := stMalformed, off := 0x510 },
     { bad := op = 0x01 && dst.nd ≠ 0 && i.nd ≠ 0 && dst.e 1 ≠ n, st := stMalformed, off := 0x518 },
     { bad := hasCnt c && k.nd ≠ 0 && o.nd ≠ 0 && k.e 0 ≠ rows, st := stMalformed, off := 0x610 },
     { bad := !isLoad c && decide (64000000 < (feet.map TD.foot).sum), st := stLimit, off := 0x40 }]
   else [])

/-! ### The work of a command -/

/-- An INT32 element of an index or offset stream. -/
def gInt (x : Half) (c : Cmd) (t : TD) (i : Nat) : Int := decInt 32 (x.elemCode c.ctx t.base (t.off [i]) 32)

/-- Table row that an index position names: none for padding and for an index out of range (R188). -/
def gRow (x : Half) (c : Cmd) (i : Nat) : Option Nat :=
  let v := gInt x c (operand x c 0x28) i
  if 0 ≤ v && v < ((operand x c 0x20).e 1 : Int) then some v.toNat else none

/-- An index position is out of range: below −1, or at or above ROWS (R188). -/
def gOor (x : Half) (c : Cmd) (i : Nat) : Bool :=
  let v := gInt x c (operand x c 0x28) i
  v < -1 || ((operand x c 0x20).e 1 : Int) ≤ v

/-- Offset b of the bags. -/
def gOffs (x : Half) (c : Cmd) (b : Nat) : Int := gInt x c (operand x c 0x30) b

/-- The offsets that a bag operation reads are in order and within N (R186). -/
def offsOk (x : Half) (c : Cmd) : Bool :=
  let bags := (operand x c 0x30).e 0 - 1
  !isBag c || (decide (0 ≤ gOffs x c 0) && (List.range bags).all (fun b => gOffs x c b ≤ gOffs x c (b + 1)) &&
    decide (gOffs x c bags ≤ ((operand x c 0x28).e 0 : Int)))

/-- Index positions of bag b (R186). -/
def bagAt (x : Half) (c : Cmd) (b : Nat) : List Nat :=
  let lo := (gOffs x c b).toNat
  (List.range ((gOffs x c (b + 1)).toNat - lo)).map (fun i => lo + i)

/-- Index positions that the command reads. -/
def gPositions (x : Half) (c : Cmd) : List Nat :=
  if isBag c then (List.range ((operand x c 0x30).e 0 - 1)).flatMap (bagAt x c) else List.range ((operand x c 0x28).e 0)

/-- Element e of the table row that position i names, with its weight: the product is rounded on its own or not (R187). -/
def gTerm (x : Half) (c : Cmd) (key e i row : Nat) : Num :=
  let v := (operand x c 0x20).get x c.ctx [e, row]
  if hasWgt c then
    let w := (operand x c 0x38).get x c.ctx [i]
    if Config.elemNat x.seed key 1 % 2 = 1 then fmul v w else v.mul w
  else v

/-- Accumulation is in INT32: the table and the output are integer formats and no weights are given (R187). -/
def gInts (x : Half) (c : Cmd) : Bool :=
  isIntFmt (operand x c 0x20).fmt && isIntFmt (operand x c 0x40).fmt && !hasWgt c

/-- The contributing positions and rows of an output row. -/
def contributing (x : Half) (c : Cmd) (o : Nat) : List (Nat × Nat) :=
  (if isBag c then bagAt x c o else [o]).filterMap (fun i => (gRow x c i).map (fun r => (i, r)))

/-- The quotient of an INT32 sum as its conversion to an integer output rounds it: to nearest, ties to even (R183,
spec/03_arithmetic_formats.md R81). -/
def intMean (s : Int) (n : Nat) : Num :=
  let q := s / (n : Int)
  let r := s % (n : Int)
  .ofInt (if (n : Int) < 2 * r || (2 * r = (n : Int) && q % 2 = 1) then q + 1 else q)

/-- Output element e of row o (Table — Gather operations, R187 to R189). That an INT32 element of a table whose rows are summed in FP32
enters the sum as it stands, and that only the sum is rounded, is the model's choice (log 91). -/
def gOut (x : Half) (c : Cmd) (k : Nat) (idx : List Nat) : Out :=
  let e := at' idx 0
  let rows := contributing x c (at' idx 1)
  let terms := rows.map (fun p => gTerm x c (ek k (2 + p.1)) e p.1 p.2)
  match dOp c.desc, terms with
  | _, [] => (.zero, false)
  | 0x01, v :: _ => (if gInts x c then v else r32 v, false)
  | 0x04, v :: vs =>
    if terms.any Num.isNan then (.nan, false) else ((anyOrder x.seed (ek k 0) (v :: vs)).foldl (fmax x.seed (ek k 1)) v, false)
  | op, _ =>
    if gInts x c then
      let r := isum x.seed (ek k 0) terms
      (if op = 0x03 then intMean r.1 terms.length else .ofInt r.1, decide (0 < r.2))
    else
      let s := fsum x.seed (ek k 0) terms
      (if op = 0x03 then fdiv x.seed (ek k 1) s (.ofInt terms.length) else s, false)

/-- The scale bytes of a table row: address and length (R182). -/
def rowScales (t : TD) (r : Nat) : Nat × Nat := if isMx t.fmt then (t.scaleVa + r * cdiv (t.s 1) 32, cdiv (t.e 0) 32) else (0, 0)

/-- The DRAM bytes of a table row: its elements, and its scale bytes. -/
def rowReads (t : TD) (r : Nat) : List (Nat × Nat) :=
  [(rowVa t r, cdiv (t.e 0 * fmtBits t.fmt) 8)] ++ (if isMx t.fmt then [rowScales t r] else [])

/-- The output writes an overflow as an infinity, which is neither saturated nor clamped nor wrapped: its elements count nothing in
DETAIL1[15:0] (R185; spec/03_arithmetic_formats.md R83). -/
def keepsInf (t : TD) : Bool := !isMx t.fmt && t.outCtrl % 2 = 0 && ((fltOf t.fmt).bind (·.infCode)).isSome

/-- Accesses of 64 bytes that a range takes. -/
def accesses (r : Nat × Nat) : Nat := cdiv (r.1 % 64 + r.2) 64

/-- The work of a gather command (R185 to R200). -/
def gWork (x : Half) (c : Cmd) (_ : Option Nat) : Work :=
  let t := operand x c 0x20
  let n := (operand x c 0x28).e 0
  let dst := operand x c 0x40
  let outs := if isLoad c then [] else dst.planes ++ (if hasCnt c then (operand x c 0x48).planes else [])
  let base : Work := { inst := 0x30, outs := outs, foot := (outs.map (·.2)).sum, atOnce := isLoad c }
  let descReads := (gOperands c).map (fun o => (df c.desc o.2.1 64, 64))
  let offReads := descReads ++ if isBag c then (operand x c 0x30).reads x c.ctx else []
  if !offsOk x c then { base with reads := offReads, fail := some { bad := true, st := stMalformed, off := 0x300 } }
  else
    let pos := gPositions x c
    let oor := pos.filter (gOor x c)
    let idxReads := pos.map (fun i => elemRange (operand x c 0x28).base ((operand x c 0x28).off [i]) 32)
    if df c.desc 0x54 8 = 0 && oor ≠ [] then
      { base with reads := offReads ++ idxReads, fail := some { bad := true, st := stMalformed, off := 0x200 }
                  failHigh := oor[Config.freeNat (x.seed + 2) 32 % oor.length]?.getD 0 }
    else
      let rows := pos.filterMap (gRow x c)
      let len := rowBytes t
      let run := rows.foldl (fun (acc : HotDir × List (Nat × Bool)) r =>
        let q := x.hotRow c (isLoad c) (df c.desc 0x55 8) len acc.1 (rowVa t r) (rowScales t r)
        (q.1, acc.2 ++ [(r, q.2)])) (x.sched.hot, [])
      let hits := (run.2.filter (fun p => p.2)).length
      let fromDram := (run.2.filter (fun p => !p.2)).flatMap (fun p => rowReads t p.1)
      let fromDir := (run.2.filter (fun p => p.2)).flatMap (fun p => rowReads t p.1)
      let wgtReads := if hasWgt c then (operand x c 0x38).readsAt x c.ctx (pos.map (fun i => [i])) else []
      let (bytes, cnt) := if isLoad c then ([], 0) else dst.write x c.ctx (gOut x c)
      let cntBytes := if hasCnt c then ((operand x c 0x48).write x c.ctx
        (fun _ idx => (.ofInt (contributing x c (at' idx 0)).length, false))).1 else []
      let stks := ((pagesOf t.base t.dataBytes).filterMap (fun p => (x.blockAt c.ctx (p * pageBytes)).map (·.1))).eraseDups
      let a := (fromDram.map accesses).sum
      let s := 4 * n + (if isLoad c then 0 else dst.foot) + (if hasWgt c then (operand x c 0x38).foot else 0)
      let pred := 300 + (if isBag c then cdiv (4 * (operand x c 0x30).e 0) 1024 else 0) +
        max (max (cdiv a (if stks.length ≤ 1 then 8 else 16)) (cdiv (hits * cdiv len 256) 8))
          (max (cdiv (rows.length * t.e 0) 2048) (cdiv s 1024)) + 64
      { base with
        writes := bytes ++ cntBytes, reads := offReads ++ idxReads ++ wgtReads ++ fromDram, held := fromDir, predict := pred
        det0 := cyclesFrom x pred + hits % 2 ^ 32 * 2 ^ 32
        det1 := min oor.length 0xFFFF * 65536 + (if keepsInf dst then 0 else cnt % 65536), hot := some run.1 }

/-- Fewer than 16 gather commands run (R197). -/
def gatherRoom (x : Half) (_ : Cmd) : Bool := (x.sched.cmds.filter (fun c => dUnit c.desc = 4 && c.st ≠ .waiting)).length < 16

/-- The start of a gather command: at most 16 run at once, and the others wait (R197). -/
def gatherStart (h : HalfId) (cmd op : Nat) (s : State) : State :=
  s.mod h (fun x => x.start cmd 4 op
    gatherRoom
    gChecks gWork)

/-- GATHER (R184). -/
def execGather (h : HalfId) (cmd : Nat) (s : State) : Host.Outcome State Fault Refusal := .next (gatherStart h cmd 0x01 s)

/-- BAG_SUM (R184). -/
def execBagSum (h : HalfId) (cmd : Nat) (s : State) : Host.Outcome State Fault Refusal := .next (gatherStart h cmd 0x02 s)

/-- BAG_MEAN (R184, R189). -/
def execBagMean (h : HalfId) (cmd : Nat) (s : State) : Host.Outcome State Fault Refusal := .next (gatherStart h cmd 0x03 s)

/-- BAG_MAX (R184, R187). -/
def execBagMax (h : HalfId) (cmd : Nat) (s : State) : Host.Outcome State Fault Refusal := .next (gatherStart h cmd 0x04 s)

/-- HOT_LOAD (R191). -/
def execHotLoad (h : HalfId) (cmd : Nat) (s : State) : Host.Outcome State Fault Refusal := .next (gatherStart h cmd 0x10 s)

end Sys2Proof.Machine
end

