-- ==== Sys2Proof/Machine/Queues.lean ====
section
/-! DEFINITION. Doorbells and descriptor fetch (spec/02_captain_and_mailboxes.md R54 to R58, R556), and a command's commit
(spec/04_tensor_engines.md R109). -/

namespace Sys2Proof.Machine

/-- The client that an agent acts for: a core's own, a pair's bound client (spec/14_cores.md R370), none for a tool. -/
def Half.agentClient (x : Half) : Agent → Option Nat
  | .core _ c => some c
  | .pair n => (x.cfg.pairs[n]?).map (·.client)
  | .tool _ => none

/-- Block offset of a doorbell. -/
def doorbellOff (d : Nat) : Nat := 0x700000 + d * 0x100

/-- Reads CPL_HEAD of a queue; an uncorrectable codeword writes a log entry and keeps the last value read (R556). -/
def Half.readCplHead (x : Half) (q : Queue) : Half :=
  if x.badAt q.ctx (q.header + 8) then
    let loc := match x.blockAt q.ctx q.header with
      | some (st, f, b) => x.dramLoc st f b
      | none => 0
    x.memErr 0x02 0 loc (some (q.ctx, q.header + 8))
  else x.modQueue q.id (fun k => { k with cplHead := BitVec.ofNat 32 (x.vnat q.ctx (q.header + 8) 4) })

/-- A 64-bit store to doorbell d (R56, R57, R58). The CODE of a store that R57 drops, and that a store which R58 ignores does not
read CPL_HEAD again, are the model's choices (log 64, log 83). -/
def Half.doorbellStore (x : Half) (ag : Agent) (d : Nat) (v : BitVec 64) : Half :=
  let cl := x.agentClient ag
  let drop := fun code => x.ctrlVio ag code (doorbellOff d)
  if 4096 ≤ d then x
  else if cl ≠ some (d / 16) then drop 3
  else
    let x := match ag with
      | .core n _ => x.modClient (d / 16) (fun k => { k with lastCore := some n })
      | _ => x
    let target := match x.sched.queues.find? (fun q => q.doorbell = some d) with
      | some q => some q
      | none => x.sched.queues.find? (fun q => q.id = fld v 0 19 && q.doorbell.isNone && x.ctxClient q.ctx = d / 16)
    match target with
    | none => x.ctrlVio ag 3 (doorbellOff d)
    | some q =>
      let tail : BitVec 32 := v.extractLsb' 32 32
      let n := 2 ^ q.log2
      if n < (tail - q.cmdHead).toNat || n < (tail - q.tail).toNat then x.ctrlVio ag 4 (doorbellOff d)
      else if tail = q.tail then x
      else (x.modQueue q.id (fun k => { k with tail := tail })).readCplHead { q with tail := tail }

/-- DOORBELL_STORE: a 64-bit store to a queue doorbell (R58). -/
def execDoorbellStore (h : HalfId) (ag : Agent) (d : Nat) (v : BitVec 64) (s : State) : Host.Outcome State Fault Refusal :=
  .next (s.mod h (fun x => if x.alive && !isTool ag then x.doorbellStore ag d v else x))

/-- CMD_HEAD advances by one and is written to the ring header (R54). -/
def Half.advanceHead (x : Half) (q : Queue) : Half :=
  let hd := q.cmdHead + 1
  (x.modQueue q.id (fun k => { k with cmdHead := hd })).vwrite q.ctx q.header (leBytes 4 hd.toNat)

/-- A queue holds a descriptor and a free completion entry (R55). -/
def Queue.canFetch (q : Queue) : Bool := q.cmdHead ≠ q.tail && (q.cmdHead - q.cplHead).toNat < 2 ^ q.log2

/-- Fetches the next descriptor of a queue (R55, R556): the command is in flight from here on (spec/11 R295). -/
def Half.fetch (x : Half) (qn : Nat) : Half :=
  match x.queue qn with
  | none => x
  | some q0 =>
    let x := if q0.cmdHead ≠ q0.tail && x.alive && !x.powx.draining then x.readCplHead q0 else x
    let q := (x.queue qn).getD q0
    if !(x.alive && !x.powx.draining && q.canFetch) then x
    else
      let idx := q.cmdHead.toNat % 2 ^ q.log2
      let va := q.cmdRing + idx * 128
      let cl := x.ctxClient q.ctx
      let y := (x.advanceHead q).modClient cl (fun k => { k with submitted := k.submitted + 1 })
      match y.firstBad q.ctx [(va, 128)] with
      | some bad =>
        let loc := match y.blockAt q.ctx bad with
          | some (st, f, b) => y.dramLoc st f b
          | none => 0
        let seq := y.mem.logSeq.toNat
        let z := (y.memErr 0x02 0 loc (some (q.ctx, bad))).putRecord q cl 0 idx 0xFF stDataLost 0 seq
        (z.endCmds (z.cmdsOf q.ctx) stDiscarded).settle
      | none =>
        let c : Cmd := { id := y.sched.nextCmd, queue := q.id, ctx := q.ctx, client := cl
                         tier := (y.ctx q.ctx).elim 2 (·.tier), ringIdx := idx
                         desc := BitVec.ofNat 1024 (y.vnat q.ctx va 128) }
        ({ y with sched := { y.sched with cmds := y.sched.cmds ++ [c], nextCmd := y.sched.nextCmd + 1 } } : Half).settle

/-- DESCRIPTOR_FETCH (R55). -/
def execDescriptorFetch (h : HalfId) (queue : Nat) (s : State) : Host.Outcome State Fault Refusal :=
  .next (s.mod h (fun x => x.fetch queue))

/-- COMMAND_COMMIT: the outputs of a started command that stages its outputs become visible with its POST_OP, and its record
is written; while the POST_OP cannot be taken the commit waits (R109, R305). A sync command and a copy across a link commit
by their own rules, a batch only when every slot is decided (spec/08 R221). -/
def Half.commitStarted (x : Half) (n : Nat) : Half :=
  match x.cmd n with
  | none => x
  | some c =>
    let batchReady := match x.sched.pipe.batches.find? (fun b => b.cmd = n) with
      | none => true
      | some _ => false
    if x.alive && c.st = .running && dUnit c.desc ≠ 9 && batchReady then (x.tryCommit n).settle else x

end Sys2Proof.Machine
end

