-- ==== Sys2Proof/Machine/Pipeline.lean ====
section
/-! DEFINITION. Unit 0x05, the input pipeline: bindings, batches, decoding on the device and on the software path, and the
commit of a batch (spec/08_input_pipeline.md R204 to R231). -/

namespace Sys2Proof.Machine

/-! ### Bindings (R204 to R206) -/

/-- The binding with a number that a context owns. -/
def Half.binding (x : Half) (ctx num : Nat) : Option Binding :=
  x.sched.pipe.bindings.find? (fun b => b.num = num && b.ctx = ctx)

/-- A source ID of Table — Input sources. -/
def isSource (s : Nat) : Bool :=
  let own := fun k => k < 8 || k = 0x10 || (0x20 ≤ k && k ≤ 0x3F)
  own s || (0x40 ≤ s && s ≤ 0x7F && own (s - 0x40)) || s = 0xFE

/-- Bindings made, and those whose INGEST_BIND has started and not yet committed. -/
def Half.bindingsHeld (x : Half) : List Binding :=
  x.sched.pipe.bindings ++ x.sched.cmds.filterMap (fun c => match c.eff with
    | .bind b => some b
    | _ => none)

/-- The binding that an INGEST_BIND asks for, with SLOT_BYTES (R205, R206). -/
def bindOf (x : Half) (c : Cmd) : Binding :=
  let d := c.desc
  let l := df d 0x41 8
  { num := (lowestFree (x.bindingsHeld.map (·.num)) 0 65).getD 64, ctx := c.ctx, source := df d 0x40 8, ring := df d 0x20 64
    data := df d 0x28 64, slotBytes := df d 0x38 32 / 2 ^ l / 4096 * 4096, log2 := l, select := df d 0x42 16
    forward := db d 0x44 0, stateVa := df d 0x30 64, stateBytes := df d 0x3C 32 }

/-- Reserved bits of SELECT for a source (Table — INGEST_BIND body). -/
def selectBad (source sel : Nat) : Bool :=
  let s := if 0x40 ≤ source && source ≤ 0x7F then source - 0x40 else source
  if s < 8 then 1024 ≤ sel else if 0x20 ≤ s && s ≤ 0x3F then 3 ≤ sel else sel ≠ 0

/-- The checks of INGEST_BIND (R205, R206); with a generic site die the cameras are absent (spec/15_die_to_die_links.md R382). -/
def bindChecks (x : Half) (c : Cmd) : List Chk :=
  let d := c.desc
  let b := bindOf x c
  let mem := b.source = 0xFE
  let mal := fun (bad : Bool) (o : Nat) => ({ bad := bad, st := stMalformed, off := o } : Chk)
  let n := 2 ^ b.log2
  [dAddr d 0x20, dAddr d 0x28, dAddr d 0x30, mal (b.ring % 4096 ≠ 0) 0x20, mal (b.data % 4096 ≠ 0) 0x28,
   mal (b.stateVa % 4096 ≠ 0) 0x30, mal (b.stateVa = 0 && b.stateBytes ≠ 0) 0x3C, mal (!isSource b.source) 0x40,
   dRsvBits d 0x44 1 7, dRsv d 0x45 472,
   { bad := x.ptn.sites && decide (b.source < 8), st := stUnsupported }] ++
  (if mem then
    [mal (b.ring ≠ 0) 0x20, mal (b.data ≠ 0) 0x28, mal (df d 0x38 32 ≠ 0) 0x38, mal (b.log2 ≠ 0) 0x41, mal (b.select ≠ 0) 0x42,
     { bad := b.stateBytes = 0, st := stEmpty }]
   else
    [mal (isSource b.source && selectBad b.source b.select) 0x42, { bad := df d 0x38 32 = 0, st := stEmpty },
     { bad := b.log2 < 4 || 12 < b.log2, st := stLimit, off := 0x41 },
     mal (4 ≤ b.log2 && b.log2 ≤ 12 && df d 0x38 32 ≠ 0 && b.slotBytes < 4096) 0x38,
     mal (b.log2 ≤ 12 && !x.writable c.ctx b.ring (64 + 64 * n)) 0x20, mal (!x.writable c.ctx b.data (df d 0x38 32)) 0x28]) ++
  [mal (!x.writable c.ctx b.stateVa b.stateBytes) 0x30,
   { bad := 64 ≤ x.bindingsHeld.length || (!mem && x.bindingsHeld.any (fun k => k.source = b.source)), st := stBusy
     retry := some 10000 }]

/-- The work of INGEST_BIND: DETAIL0[7:0] returns the binding number (R204). -/
def bindWork (x : Half) (c : Cmd) (_ : Option Nat) : Work :=
  { inst := 0x80, det0 := (bindOf x c).num, atOnce := true, eff := .bind (bindOf x c) }

/-- INGEST_BIND (R205). -/
def execIngestBind (h : HalfId) (cmd : Nat) (s : State) : Host.Outcome State Fault Refusal :=
  .next (s.mod h (fun x => x.start cmd 5 0x01 (fun _ _ => true) bindChecks bindWork))

/-- A started batch pins an entry of the binding (R207, R228). -/
def Half.pinned (x : Half) (num : Nat) (entry : Option Nat) : Bool :=
  x.sched.pipe.batches.any (fun b => b.slots.any (fun k => k.binding = some num && k.entry.isSome &&
    (entry.isNone || k.entry = entry)))

/-- No started batch pins an entry of the binding that an INGEST_UNBIND names (R204). -/
def unbindMay (x : Half) (c : Cmd) : Bool := !x.pinned (df c.desc 0x20 8) none

/-- The checks of INGEST_UNBIND (R204). -/
def unbindChecks (x : Half) (c : Cmd) : List Chk :=
  [dRsv c.desc 0x21 760,
    { bad := 63 < df c.desc 0x20 8 || (x.binding c.ctx (df c.desc 0x20 8)).isNone, st := stMalformed, off := 0x20 }]

/-- The work of INGEST_UNBIND. -/
def unbindWork (_ : Half) (c : Cmd) (_ : Option Nat) : Work := { inst := 0x80, atOnce := true, eff := .unbind (df c.desc 0x20 8) }

/-- INGEST_UNBIND: waits unstarted while a started batch pins one of the binding's entries (R204). -/
def execIngestUnbind (h : HalfId) (cmd : Nat) (s : State) : Host.Outcome State Fault Refusal :=
  .next (s.mod h (fun x => x.start cmd 5 0x02 unbindMay unbindChecks unbindWork))

/-! ### Pictures from codes (R215, R216) -/

/-- DATA_KIND of a raw kind. -/
def isRaw (k : Nat) : Bool := 1 ≤ k && k ≤ 6

/-- A listed DATA_KIND (Table — Capture descriptor). -/
def isKind (k : Nat) : Bool := isRaw k || k = 0x10 || k = 0x11 || k = 0x20

/-- Bit depth of a raw kind. -/
def rawDepth (k : Nat) : Nat := if k = 0x02 then 10 else if k = 0x03 then 12 else if k = 0x04 then 16 else 8

/-- The offsets (row, column) of R, G on the red row, G on the blue row, and B in a Bayer cell (Table — Parameter block). -/
def bayer (cfa : Nat) : List (Nat × Nat) :=
  if cfa = 0 then [(0, 0), (0, 1), (1, 0), (1, 1)] else if cfa = 1 then [(0, 1), (0, 0), (1, 1), (1, 0)]
  else if cfa = 2 then [(1, 0), (1, 1), (0, 0), (0, 1)] else [(1, 1), (1, 0), (0, 1), (0, 0)]

/-- The component planes of raw data (R215). YUV422 lies as Cb, Y, Cr, Y and RGB888 as B, G, R in CSI-2 byte order (log 28).
Data that are not there give free codes. -/
def rawPicture (seed kind cfa w h : Nat) (data : List Byte) : Picture :=
  let byte := fun i => ((data[i]?).map (·.toNat)).getD (Config.elemNat seed i 8 % 256)
  let plane := fun (w h : Nat) (f : Nat → Nat → Nat) => (List.range h).flatMap (fun r => (List.range w).map (fun q => f r q))
  if kind = 0x05 then
    let at' := fun (r q : Nat) => (r * w + q) * 2
    let pair := fun (r q : Nat) => (r * w + q / 2 * 2) * 2
    { w := w, h := h, depth := 8
      comps := [plane w h (fun r q => byte (at' r q + 1)), plane w h (fun r q => byte (pair r q)),
        plane w h (fun r q => byte (pair r q + 2))] }
  else if kind = 0x06 then
    { w := w, h := h, depth := 8
      comps := [2, 1, 0].map (fun k => plane w h (fun r q => byte ((r * w + q) * 3 + k))) }
  else
    let code := fun i => if kind = 0x01 then byte i else byte (2 * i) + 256 * byte (2 * i + 1)
    { w := w / 2, h := h / 2, depth := rawDepth kind
      comps := (bayer cfa).map (fun o => plane (w / 2) (h / 2) (fun r q => code ((2 * r + o.1) * w + 2 * q + o.2))) }

/-- An FP32 field of a sample record or a parameter block. -/
def fpAt {n : Nat} (r : BitVec n) (off : Nat) : Num := f32 (fld r (8 * off) 32)

/-- The tensor value of channel c at a picture position, all in FP32 (R216, R217). -/
def pixelValue (seed key : Nat) (param : BitVec 1024) (k : BatchSlot) (c px py : Nat) : Num :=
  if k.pic.w ≤ px || k.pic.h ≤ py then .zero
  else
    let one := f32 0x3F800000
    let top := Num.ofInt (2 ^ k.pic.depth - 1 : Nat)
    let terms := k.pic.comps.zipIdx.map (fun p =>
      let u := fdiv seed (sub key (2 + p.2)) (.ofInt (p.1[py * k.pic.w + px]?.getD 0 : Nat)) top
      fmul (fadd (fpAt param (16 * c + 4 * p.2)) (fpAt k.sample (0x30 + 16 * c + 4 * p.2))) u)
    let v := fadd (fsum seed (sub key 0) terms) (fadd (fpAt param (0x40 + 4 * c)) (fpAt k.sample (0x70 + 4 * c)))
    fdiv seed (sub key 1) (fsub v (fadd (fpAt param (0x50 + 4 * c)) (fpAt k.sample (0x80 + 4 * c))))
      (fmul (fpAt param (0x60 + 4 * c)) (fadd one (fpAt k.sample (0x90 + 4 * c))))

/-! ### Checks of a batch (R210 to R213, R218 to R220) -/

/-- SAMPLE_COUNT. -/
def bN (c : Cmd) : Nat := df c.desc 0x50 16

/-- Sample record s. -/
def sampleRec (x : Half) (c : Cmd) (s : Nat) : BitVec 1536 := BitVec.ofNat 1536 (x.vnat c.ctx (df c.desc 0x20 64 + 192 * s) 192)

/-- The parameter block. -/
def paramOf (x : Half) (c : Cmd) : BitVec 1024 := BitVec.ofNat 1024 (x.vnat c.ctx (df c.desc 0x28 64) 128)

/-- Output formats of BATCH (R212). -/
def batchFormats : List Nat := [0x02, 0x03, 0x08, 0x09, 0x10, 0x11, 0x14, 0x0A]

/-- A binding whose captures are H.265 access units with a decode state, or a memory stream (R205, R226). -/
def Binding.isStream (b : Binding) : Bool :=
  b.stateVa ≠ 0 && (b.source = 0xFE || (0x20 ≤ b.source % 0x40 && b.select = 0))

/-- H.265 bindings that a batch names: by its captures, and by its H.265 samples from memory (R211, R226). -/
def Half.streamsOf (x : Half) (c : Cmd) : List Nat :=
  ((List.range (min 1024 (bN c))).filterMap (fun s =>
    let r := sampleRec x c s
    if fld r 0 8 = 1 && fld r 16 8 ≠ 0x11 then none
    else (x.binding c.ctx (fld r 8 8)).bind (fun b => if b.isStream then some b.num else none))).eraseDups

/-- The checks of sample record s, reported in structure 0x100 + s. -/
def sampleChecks (x : Half) (c : Cmd) (chans s : Nat) : List Chk :=
  let r := sampleRec x c s
  let g := fun off w => fld r (8 * off) w
  let base := (0x100 + s) * 65536
  let mal := fun (bad : Bool) (o : Nat) => ({ bad := bad, st := stMalformed, off := base + o } : Chk)
  let cap := g 0 8 = 0
  let kind := g 2 8
  let bind := x.binding c.ctx (g 1 8)
  let param := paramOf x c
  [mal (1 < g 0 8) 0, mal (g 3 8 ≠ 0) 3, mal (g 0x24 96 ≠ 0) 0x24, mal (g 0xA0 256 ≠ 0) 0xA0] ++
  (if cap then
    [mal (bind.isNone || bind.any (fun b => b.source = 0xFE)) 1, mal (kind ≠ 0) 2, mal (g 8 64 ≠ 0) 8, mal (g 0x10 32 ≠ 0) 0x10,
     mal (g 0x14 16 ≠ 0) 0x14, mal (g 0x16 16 ≠ 0) 0x16, mal (g 0x18 64 ≠ 0) 0x18]
   else
    [mal (if kind = 0x11 then bind.isNone else g 1 8 ≠ 0) 1, mal (!isKind kind || kind = 0x20) 2, mal (g 4 32 ≠ 0) 4,
     mal (vaLimit ≤ g 8 64) 8, mal (!x.mapped c.ctx (g 8 64) (g 0x10 32)) 8,
     { bad := g 0x10 32 = 0, st := stEmpty }, { bad := 67108864 < g 0x10 32, st := stLimit, off := base + 0x10 },
     mal (!isRaw kind && g 0x14 16 ≠ 0) 0x14, mal (!isRaw kind && g 0x16 16 ≠ 0) 0x16]) ++
  (List.range chans).map (fun k =>
    mal ((fmul (fpAt param (0x60 + 4 * k)) (fadd (f32 0x3F800000) (fpAt r (0x90 + 4 * k)))).isZero) (0x90 + 4 * k))

/-- Bytes of the mask, of the time array and of the defect record for N slots (R210, R212). -/
def batchBytes (n : Nat) : Nat × Nat × Nat := (cdiv n 64 * 8, 8 * n, 16 + 8 * n)

/-- The checks of BATCH, with DETAIL1[31:16] naming the structure (R213, R219). -/
def batchChecks (x : Half) (c : Cmd) : List Chk :=
  let d := c.desc
  let n := bN c
  let mal := fun (bad : Bool) (o : Nat) => ({ bad := bad, st := stMalformed, off := o } : Chk)
  let s2 := 2 * 65536
  let t := operand x c 0x30
  let sz := batchBytes n
  let okS := df d 0x20 64 % 64 = 0 && x.mapped c.ctx (df d 0x20 64) (192 * min n 1024)
  let okP := df d 0x28 64 % 64 = 0 && x.mapped c.ctx (df d 0x28 64) 128
  let okD := descAddrOk x c 0x30
  let chans := if okD then min 4 (t.e 2) else 0
  let param := paramOf x c
  [dAddr d 0x20, dAddr d 0x28, dAddr d 0x38, dAddr d 0x40, dAddr d 0x48, mal (!okS) 0x20, mal (!okP) 0x28, mal (!okD) 0x30,
   mal (df d 0x38 64 % 8 ≠ 0) 0x38, mal (df d 0x40 64 % 8 ≠ 0) 0x40, mal (df d 0x48 64 % 8 ≠ 0) 0x48,
   { bad := n = 0, st := stEmpty }, { bad := 1024 < n, st := stLimit, off := 0x50 }, dRsvBits d 0x52 1 7,
   mal (df d 0x53 8 = 1) 0x53, { bad := 32 < df d 0x53 8, st := stLimit, off := 0x53 },
   { bad := 20000 < df d 0x54 32, st := stLimit, off := 0x54 }, dRsv d 0x5C 288,
   mal (!x.writable c.ctx (df d 0x38 64) sz.1) (3 * 65536), mal (!x.writable c.ctx (df d 0x40 64) sz.2.1) (4 * 65536),
   mal (!x.writable c.ctx (df d 0x48 64) sz.2.2) (5 * 65536)] ++
  (if okP then
    [mal (fld param (8 * 0x70 + 2) 6 ≠ 0) (65536 + 0x70), mal (fld param (8 * 0x71) 120 ≠ 0) (65536 + 0x71)] ++
      (List.range chans).map (fun k => mal ((fpAt param (0x60 + 4 * k)).isZero) (65536 + 0x60 + 4 * k))
   else []) ++
  (if okD then
    t.checks x c.ctx s2 true ++
      [{ bad := decide (t.layout ≤ 4) && !t.blocked, st := stUnsupported },
       { bad := formatCodes.contains t.fmt && !batchFormats.contains t.fmt, st := stUnsupported },
       { bad := t.fmt = 0x0A && t.layout ≠ 2, st := stUnsupported }, { bad := t.sparse, st := stUnsupported },
       { bad := 4 < t.e 2, st := stUnsupported }, mal (t.e 3 ≠ n) (s2 + 0x28),
       { bad := 16384 < t.e 0, st := stLimit, off := s2 + 0x10 }, { bad := 16384 < t.e 1, st := stLimit, off := s2 + 0x18 },
       { bad := t.sane && decide (64000000 < t.foot + sz.1 + sz.2.1 + sz.2.2 + 65536 * (x.streamsOf c).length), st := stLimit
         off := 0x30 }]
   else []) ++
  (if okS && okP then (List.range (min n 1024)).flatMap (sampleChecks x c chans) else [])

/-! ### The start of a batch (R219, R221, R222, R225, R226) -/

/-- Mean decode time of a path in ns (R225). -/
def meanOf (l : List Nat) (init : Nat) : Nat := if l = [] then init else l.sum / l.length

/-- The per-sample budget of a path in µs (R225). -/
def slotBudget (c : Cmd) (mean : Nat) : Nat :=
  let factor := if df c.desc 0x53 8 = 0 then 8 else df c.desc 0x53 8
  let ceil := if df c.desc 0x54 32 = 0 then 20000 else df c.desc 0x54 32
  min ceil (max 1000 (factor * mean / 1000))

/-- A defective place. -/
def defect (reason : Nat) : SlotPlace :=
  .defect (if reason = 0x02 then stUnsupported else if reason = 0x03 || reason = 0x04 then stLimit
    else if reason = 0x05 || reason = 0x06 then stTimeout else if reason = 0x0A then stEmpty else stMalformed) reason

/-- The sampling of a JPEG picture is one component, or 4:4:4, 4:2:2 or 4:2:0 (R214). -/
def jpegSampled : List (Nat × Nat) → Bool
  | [_] => true
  | [(yw, yh), (bw, bh), (rw, rh)] =>
    bw = rw && bh = rh && ((yw = bw && yh = bh) || (yw = 2 * bw && yh = bh) || (yw = 2 * bw && yh = 2 * bh))
  | _ => false

/-- Components that a chroma_format_idc gives. -/
def h265Comps (chroma : Nat) : Nat := if chroma = 0 then 1 else 3

/-- Where the header check of a sample puts its slot: raw data are ready, coded data within the subsets of R214 wait for a decoder
(R219, R220). `head` is the header of the stream's decode state. -/
def headerPlace (kind w h stateBytes : Nat) (head data : List Byte) : SlotPlace :=
  if isRaw kind then (if 16384 < w || 16384 < h then defect 0x03 else .ready)
  else if kind = 0x10 then
    let i := Config.jpegHeader data
    if i.bad then defect 0x01
    else if 16384 < i.w || 16384 < i.h || 64 < i.sampling.length then defect 0x03
    else if i.sof ≠ 0xC0 || i.precision ≠ 8 || !jpegSampled i.sampling then defect 0x02
    else .hwQueued
  else if kind = 0x11 then
    let i := Config.h265Header head data
    if i.bad then defect 0x01
    else if 16384 < i.w || 16384 < i.h then defect 0x03
    else if (i.profile ≠ 1 && i.profile ≠ 2) || 1 < i.chroma || 186 < i.level then defect 0x02
    else if stateBytes < 65536 + (2 * i.buffers + 1) * 3 * i.w * i.h then defect 0x04
    else .hwQueued
  else defect 0x09

/-- Bytes of a decode state that its header takes (R220). -/
def headBytes : Nat := 65536

/-- The header of a stream's decode state as committed (R227). -/
def Half.streamHead (x : Half) (b : Binding) : List Byte := x.vread b.ctx b.stateVa (min headBytes b.stateBytes)

/-- Slot s as its sample record and its capture's descriptor give it (R211, R219, Table — Sample defects). -/
def newSlot (x : Half) (c : Cmd) (s : Nat) : BatchSlot × List (Nat × Nat) :=
  let r := sampleRec x c s
  let g := fun off w => fld r (8 * off) w
  let bind := x.binding c.ctx (g 1 8)
  let cfa := fld (paramOf x c) (8 * 0x70) 2
  let pic := fun kind w h data => if isRaw kind then rawPicture (sub x.seed s) kind cfa w h data else {}
  if g 0 8 = 0 then
    let b := bind.getD {}
    let e := g 4 32 % 2 ^ b.log2
    let dva := b.ring + 0x40 + 0x40 * e
    let d := BitVec.ofNat 512 (x.vnat c.ctx dva 64)
    let kind := fld d 56 8
    let len := min (fld d 192 32) b.slotBytes
    let data := x.vread c.ctx (b.data + e * b.slotBytes) len
    let ok := fld d 0 32 = g 4 32 && kind ≠ 0x20
    let place := if !ok then defect 0x09 else if bitAt d 33 || bitAt d 34 then defect 0x08
      else if fld d 192 32 = 0 then defect 0x0A
      else headerPlace kind (fld d 224 16) (fld d 240 16) b.stateBytes (x.streamHead b) data
    ({ place := place, kind := kind, binding := some b.num, entry := if ok then some e else none, au := g 4 32
       time := BitVec.ofNat 64 (fld d 64 64), data := data, sample := r
       pic := if place = .ready then pic kind (fld d 224 16) (fld d 240 16) data else {} },
     [(dva, 64)] ++ (if ok then [(b.data + e * b.slotBytes, len)] else []))
  else
    let kind := g 2 8
    let data := x.vread c.ctx (g 8 64) (g 0x10 32)
    let place := headerPlace kind (g 0x14 16) (g 0x16 16) (bind.elim 0 (·.stateBytes)) (bind.elim [] x.streamHead) data
    ({ place := place, kind := kind, binding := if kind = 0x11 then bind.map (·.num) else none, time := BitVec.ofNat 64 (g 0x18 64)
       data := data, sample := r, pic := if place = .ready then pic kind (g 0x14 16) (g 0x16 16) data else {} },
     [(g 8 64, g 0x10 32)])

/-- Work of a batch at its start: what it reads and reserves; its outputs are made at its commit. -/
def batchWork (x : Half) (c : Cmd) (_ : Option Nat) : Work :=
  let t := operand x c 0x30
  let n := bN c
  let sz := batchBytes n
  { inst := 0x80
    reads := [(df c.desc 0x20 64, 192 * n), (df c.desc 0x28 64, 128)] ++ (List.range n).flatMap (fun s => (newSlot x c s).2) ++
      (x.streamsOf c).filterMap (fun k => (x.binding c.ctx k).map (fun b => (b.stateVa, b.stateBytes)))
    outs := t.planes ++ [(df c.desc 0x38 64, sz.1), (df c.desc 0x40 64, sz.2.1), (df c.desc 0x48 64, sz.2.2)]
    foot := t.foot + sz.1 + sz.2.1 + sz.2.2 + 65536 * (x.streamsOf c).length }

/-- The position in the software ring that the next request takes: the first at or after the last posted whose entry is free, none where
every entry holds an outstanding request (R221, log 28). -/
def SwDec.nextFree (d : SwDec) : Option Nat :=
  ((List.range (2 ^ d.log2)).map (d.posted + ·)).find? (fun p => !(d.reqs.any (fun r => r.entry = p % 2 ^ d.log2)))

/-- Posts a JPEG slot on the software path: as much of its data as the service's slot takes, the request with its DEADLINE, and the
service queue's interrupt (R222). SEQ_TAG is a free value, since its form is not given. -/
def Half.postSw (x : Half) (n s budget : Nat) (data : List Byte) : Half :=
  match x.sched.pipe.swdec, x.sched.pipe.swdec.bind SwDec.nextFree with
  | some d, some pos =>
    let e := pos % 2 ^ d.log2
    let due := x.st + budget * 1000
    let input := data.take d.slotBytes
    let rec' : BitVec 512 := pack 512 [(0, 32, Config.freeNat x.seed 32), (32, 1, 1 - pos / 2 ^ d.log2 % 2), (64, 32, input.length),
      (128, 64, due)]
    let y := (x.took.vwrite d.ctx (d.slotVa + e * d.slotBytes) input).vwrite d.ctx (d.ring + 0x40 * e) (leBytes 64 rec'.toNat)
    let y := y.modPipe (fun p => { p with swdec := some { d with
      posted := pos + 1, reqs := d.reqs ++ [{ entry := e, cmd := n, slot := s, postedAt := x.st, deadline := due }] } })
    y.queueIrq (x.ctxClient d.ctx)
  | _, _ => x

/-- A service is attached and its ring has a free entry (R221). -/
def Half.swRoom (x : Half) : Bool := x.sched.pipe.swdec.any (fun d => d.nextFree.isSome)

/-- A batch that has started enqueues its slots in slot order, those that may on the software path (R221). -/
def Half.enqueueBatch (before x : Half) (n : Nat) : Half :=
  match before.cmd n, x.cmd n with
  | some c0, some c =>
    if !(c0.st = .waiting && c.st = .running && c.status = stOk && (x.batch n).isNone) then x
    else
      let b : Batch := { cmd := n, slots := (List.range (bN c)).map (fun s => (newSlot before c s).1)
                         hwBudget := slotBudget c (meanOf before.sched.pipe.meanJpeg (before.cfgb.means[0]?.getD 0))
                         h265Budget := slotBudget c (meanOf before.sched.pipe.meanH265 (before.cfgb.means[1]?.getD 0))
                         swBudget := slotBudget c (meanOf before.sched.pipe.meanSw (before.cfgb.means[2]?.getD 0))
                         param := paramOf before c, dst := (operand before c 0x30).raw }
      let y := x.modPipe (fun p => { p with batches := p.batches ++ [b] })
      let y := b.slots.zipIdx.foldl (fun (y : Half) p =>
        if p.1.place ≠ .hwQueued then y
        else if p.1.kind = 0x10 && db c.desc 0x52 0 && y.cfgb.decThreshold ≤ y.sched.pipe.hwQueue.length && y.swRoom then
          (y.postSw n p.2 b.swBudget p.1.data).modBatchSlot n p.2 (fun k => { k with place := .swPosted, sw := true })
        else y.modPipe (fun q => { q with hwQueue := q.hwQueue ++ [(n, p.2)] })) y
      y.beginDecodes
  | _, _ => x

/-- A batch may start: fewer than eight have, and no started batch holds, and none that reached the unit earlier waits for, an H.265
binding that it names (R220, R226, spec/06_attention_and_kv.md R161). -/
def Half.batchMay (x : Half) (c : Cmd) : Bool :=
  let mine := x.streamsOf c
  x.sched.pipe.batches.length < 8 &&
    !(x.sched.cmds.any (fun o => o.id ≠ c.id && dUnit o.desc = 5 && dOp o.desc = 0x10 && o.ctx = c.ctx &&
      (o.st ≠ .waiting || o.reachedBefore c) && (x.streamsOf o).any (fun k => mine.contains k)))

/-- A batch that ended because its stream's decode state holds an uncorrectable block leaves the stream awaiting an IRAP picture
(R229). -/
def Half.stateLost (before x : Half) (n : Nat) : Half :=
  match before.cmd n, x.cmd n with
  | some c, none =>
    let bad := (before.streamsOf c).filter (fun k => (before.binding c.ctx k).any
      (fun b => (before.firstBad c.ctx [(b.stateVa, b.stateBytes)]).isSome))
    x.modPipe (fun p => { p with bindings := p.bindings.map (fun (b : Binding) =>
      if bad.contains b.num then { b with awaitIrap := true } else b) })
  | _, _ => x

/-- BATCH: its start (R210, R219, R221). -/
def execBatch (h : HalfId) (cmd : Nat) (s : State) : Host.Outcome State Fault Refusal :=
  .next (s.mod h (fun x =>
    Half.stateLost x (Half.enqueueBatch x (x.start cmd 5 0x10 Half.batchMay batchChecks batchWork) cmd) cmd))

/-! ### Decoding (R223 to R226) -/

/-- A slot is decided: its place, its picture; it leaves the decode queue and another decode begins. -/
def Half.decideSlot (x : Half) (n s : Nat) (place : SlotPlace) (pic : Picture) : Half :=
  ((x.modBatchSlot n s (fun k => { k with place := place, pic := pic, since := none })).modPipe
    (fun p => { p with hwQueue := p.hwQueue.filter (fun q => q ≠ (n, s)) })).beginDecodes

/-- The stream of a binding before a slot of a batch: the last access unit decoded, and whether it awaits an IRAP picture
(R226). -/
def streamAt (b : Binding) (slots : List BatchSlot) : Option Nat × Bool :=
  slots.foldl (fun (acc : Option Nat × Bool) k =>
    if k.binding ≠ some b.num then acc
    else match k.place with
      | .ready => (some k.au, false)
      | .defect _ _ => (acc.1, true)
      | _ => acc) (b.lastAu, b.awaitIrap)

/-- A component plane of cw x ch codes, each replicated to every position of a w x h picture that it covers (R215). -/
def spread (w h cw ch : Nat) (code : Nat → Nat) : List Nat :=
  (List.range h).flatMap (fun row => (List.range w).map (fun col =>
    code ((if ch = h then row else row / 2) * cw + if cw = w then col else col / 2)))

/-- The picture of decoded planes; `cw` and `ch` are the sizes of the chroma planes, and a code has `depth` bits (R215). -/
def decodedPicture (comps w h cw ch depth : Nat) (code : Nat → Nat → Nat) : Picture :=
  { w := w, h := h, depth := depth
    comps := (List.range comps).map (fun k =>
      spread w h (if k = 0 then w else cw) (if k = 0 then h else ch) (fun i => code k i % 2 ^ depth)) }

/-- The picture of JPEG data that decode. -/
def jpegPicture (data : List Byte) : Picture :=
  let i := Config.jpegHeader data
  let half := fun (two : Bool) n => if two then (n + 1) / 2 else n
  let y := i.sampling[0]?.getD (1, 1)
  let c := i.sampling[1]?.getD y
  decodedPicture i.sampling.length i.w i.h (half (y.1 ≠ c.1) i.w) (half (y.2 ≠ c.2) i.h) 8 (Config.jpegCode data)

/-- The decode state that an access unit of a batch decodes against: its header, as the batch's earlier access units left it, and its
reference pictures (R226, R227). -/
def Half.workState (x : Half) (b : Batch) (d : Binding) : List Byte × List Byte :=
  (((b.heads.find? (fun p => p.1 = d.num)).map (·.2)).getD (x.streamHead d),
    x.vread d.ctx (d.stateVa + headBytes) (d.stateBytes - headBytes))

/-- The binding whose stream a slot's access unit belongs to. -/
def Half.streamOf (x : Half) (k : BatchSlot) : Binding :=
  (x.sched.pipe.bindings.find? (fun q => some q.num = k.binding)).getD {}

/-- What the hardware decode of a slot gives, and its time in ns at the rates of R231. -/
def Half.decodeSlot (x : Half) (b : Batch) (s : Nat) (k : BatchSlot) : SlotPlace × Picture × Nat :=
  if k.kind = 0x10 then
    let pic := jpegPicture k.data
    if Config.jpegBad k.data then (defect 0x01, {}, 0) else (.ready, pic, 40000 + 4 * (pic.w * pic.h))
  else
    let d := x.streamOf k
    let (head, refs) := x.workState b d
    let i := Config.h265Header head k.data
    let (last, await) := streamAt d (b.slots.take s)
    let follows := fld k.sample 0 8 = 1 || (match last with
      | some a => k.au = (a + 1) % 2 ^ 32
      | none => true)
    if !i.irap && (await || !follows) then (defect 0x07, {}, 0)
    else if Config.h265Bad head refs k.data then (defect 0x01, {}, 0)
    else (.ready, decodedPicture (h265Comps i.chroma) i.w i.h ((i.w + 1) / 2) ((i.h + 1) / 2) i.depth (Config.h265Code head refs k.data),
      40000 + 2 * (i.w * i.h))

/-- The decode of an access unit writes its reference picture into space of the decode state that the committed state does not reference,
and the batch keeps the header that its commit will write (R227). -/
def Half.keepRefs (x : Half) (b : Batch) (k : BatchSlot) : Half :=
  let d := x.streamOf k
  let (head, refs) := x.workState b d
  let old := x.streamHead d
  let cells := (Config.h265Refs head refs k.data).flatMap (fun p => p.2.zipIdx.map (fun q => (p.1 + q.2, q.1)))
  let free := cells.filter (fun q => headBytes ≤ q.1 && q.1 < d.stateBytes && !Config.h265Keeps old q.1)
  (x.commitBytes d.ctx (free.map (fun q => (d.stateVa + q.1, q.2)))).modPipe (fun p => { p with
    batches := p.batches.map (fun (o : Batch) =>
      if o.cmd = b.cmd then
        { o with heads := (d.num, (Config.h265Head head refs k.data).take headBytes) :: o.heads.filter (fun q => q.1 ≠ d.num) }
      else o) })

/-- DECODE_COMPLETE: a decode that an engine runs finishes; a good one counts in its path's mean, whatever becomes of the batch
(R225, R228). -/
def execDecodeComplete (h : HalfId) (cmd slot : Nat) (s : State) : Host.Outcome State Fault Refusal :=
  .next (s.mod h (fun x =>
    match x.batch cmd, x.batchSlot cmd slot with
    | some b, some k =>
      if !(x.alive && x.decoding cmd slot) then x
      else
        let (place, pic, t) := x.decodeSlot b slot k
        let y := (if place = .ready && k.kind = 0x11 then x.keepRefs b k else x).decideSlot cmd slot place pic
        if place ≠ .ready then y
        else if k.kind = 0x10 then y.modPipe (fun p => { p with meanJpeg := ringPush 64 p.meanJpeg t })
        else y.modPipe (fun p => { p with meanH265 := ringPush 64 p.meanH265 t })
    | _, _ => x))

/-- SAMPLE_BUDGET_EXPIRY: a hardware decode that has reached its per-sample budget is aborted (R225). -/
def execSampleBudgetExpiry (h : HalfId) (cmd slot : Nat) (s : State) : Host.Outcome State Fault Refusal :=
  .next (s.mod h (fun x =>
    match x.batch cmd, x.batchSlot cmd slot with
    | some b, some k =>
      let us := if k.kind = 0x10 then b.hwBudget else b.h265Budget
      if x.alive && x.decoding cmd slot && k.since.any (fun t => x.since t (us * 1000)) then
        x.decideSlot cmd slot (defect 0x05) {}
      else x
    | _, _ => x))

/-- The checks of SWDEC_ATTACH (R222). -/
def attachChecks (x : Half) (c : Cmd) : List Chk :=
  let d := c.desc
  let l := df d 0x34 8
  let bytes := df d 0x30 32
  [{ bad := !(x.cfg.decClients.contains c.client), st := stDenied }, dAddr d 0x20, dAddr d 0x28, dRsv d 0x35 600,
   { bad := bytes = 0, st := stEmpty }, { bad := l < 4 || 10 < l, st := stLimit, off := 0x34 },
   { bad := l ≤ 10 && !x.writable c.ctx (df d 0x20 64) (64 * 2 ^ l), st := stMalformed, off := 0x20 },
   { bad := l ≤ 10 && !x.writable c.ctx (df d 0x28 64) (bytes * 2 ^ l), st := stMalformed, off := 0x28 },
   { bad := x.sched.pipe.swdec.isSome || x.sched.cmds.any (fun o => match o.eff with
      | .attach _ => true
      | _ => false), st := stBusy }]

/-- The work of SWDEC_ATTACH (R222). -/
def attachWork (_ : Half) (c : Cmd) (_ : Option Nat) : Work :=
  let swd : SwDec :=
    { ctx := c.ctx, queue := c.queue, ring := df c.desc 0x20 64, slotVa := df c.desc 0x28 64, slotBytes := df c.desc 0x30 32
      log2 := df c.desc 0x34 8 }
  { inst := 0x80, atOnce := true, eff := .attach swd }

/-- SWDEC_ATTACH (R222). -/
def execSwdecAttach (h : HalfId) (cmd : Nat) (s : State) : Host.Outcome State Fault Refusal :=
  .next (s.mod h (fun x => x.start cmd 5 0x20 (fun _ _ => true) attachChecks attachWork))

/-- The checks of SWDEC_DETACH. -/
def detachChecks (x : Half) (c : Cmd) : List Chk :=
  [{ bad := !(x.cfg.decClients.contains c.client) || x.sched.pipe.swdec.any (fun d => d.ctx ≠ c.ctx), st := stDenied },
    dRsv c.desc 0x20 768]

/-- The work of SWDEC_DETACH. -/
def detachWork (_ : Half) (_ : Cmd) (_ : Option Nat) : Work := { inst := 0x80, atOnce := true, eff := .detach }

/-- SWDEC_DETACH: outstanding requests become defective at its commit (R223). A client that is not the decode service, or
another context than the service's, is denied (log 28). -/
def execSwdecDetach (h : HalfId) (cmd : Nat) (s : State) : Host.Outcome State Fault Refusal :=
  .next (s.mod h (fun x => x.start cmd 5 0x22 (fun _ _ => true) detachChecks detachWork))

/-- The outstanding request of an entry of the service that a context runs. -/
def Half.swReq (x : Half) (ctx entry : Nat) : Option SwReq :=
  x.sched.pipe.swdec.bind (fun d => if d.ctx = ctx then d.reqs.find? (fun r => r.entry = entry) else none)

/-- Offsets and sizes of the planes of a software result: (offset, width, height) per component (R222). -/
def swPlanes (comps w h chroma : Nat) : List (Nat × Nat × Nat) :=
  let cw := if chroma = 0 then w else (w + 1) / 2
  let ch := if chroma = 2 then (h + 1) / 2 else h
  let page := fun n => cdiv n 4096 * 4096
  let p1 := page (2 * (w * h))
  if comps = 1 then [(0, w, h)] else [(0, w, h), (p1, cw, ch), (p1 + page (2 * (cw * ch)), cw, ch)]

/-- What a returned result makes of its slot: the RES_ fields are consistent with themselves, with the picture's header and with
the slot's size, or the slot is defective with reason 0x0B (R222, R223). -/
def swResult (x : Half) (d : SwDec) (r : SwReq) (k : BatchSlot) : SlotPlace × Picture × List (Nat × Nat) :=
  let va := d.ring + 0x40 * r.entry
  let g := fun off n => x.vnat d.ctx (va + off) n
  let base := d.slotVa + r.entry * d.slotBytes
  let st := g 0x18 2
  let reason := g 0x1A 1
  let comps := g 0x1B 1
  let w := g 0x1C 2
  let h := g 0x1E 2
  let chroma := g 0x20 1
  if st ≠ stOk then
    (if 1 ≤ reason && reason ≤ 3 && defect reason = .defect st reason then defect reason else defect 0x0B, {}, [(va, 64)])
  else
    let ps := swPlanes comps w h chroma
    let i := Config.jpegHeader k.data
    if !(reason = 0 && (comps = 1 || comps = 3) && chroma ≤ 2 && w = i.w && h = i.h && comps = i.sampling.length &&
        ps.all (fun p => p.1 + 2 * (p.2.1 * p.2.2) ≤ d.slotBytes)) then (defect 0x0B, {}, [(va, 64)])
    else
      let plane := fun (p : Nat × Nat × Nat) => spread w h p.2.1 p.2.2 (fun i => x.vnat d.ctx (base + p.1 + 2 * i) 2)
      (.ready, { w := w, h := h, depth := 8, comps := ps.map plane }, [(va, 64)] ++ ps.map (fun p => (base + p.1, 2 * (p.2.1 * p.2.2))))

/-- The checks of SWDEC_RETURN (R223). -/
def returnChecks (x : Half) (c : Cmd) : List Chk :=
  [dRsv c.desc 0x22 752, { bad := (x.swReq c.ctx (df c.desc 0x20 16)).isNone, st := stMalformed, off := 0x20 }]

/-- The part takes a returned result of a return that passed its checks: the entry is freed; a slot that still waits for it is decided,
by the result or, after DEADLINE, as timed out, and a decode that came out counts in the software mean. An uncorrectable block in what it reads ends the batch with ST_DATA_LOST (R223, R225, R229). -/
def Half.takeSw (before x : Half) (n : Nat) : Half :=
  match before.cmd n, before.sched.pipe.swdec with
  | some c, some d =>
    let gone := c.st = .waiting && (x.cmd n).all (fun k => k.st ≠ .waiting) &&
      (worst (before.commonChecks c ++ returnChecks before c)).isNone
    match before.swReq c.ctx (df c.desc 0x20 16) with
    | none => x
    | some r =>
      if !gone then x
      else
        let y := x.modPipe (fun p => { p with swdec := p.swdec.map (fun (k : SwDec) =>
          { k with reqs := k.reqs.filter (fun q => q.entry ≠ r.entry) }) })
        match before.batchSlot r.cmd r.slot with
        | none => y
        | some k =>
          if k.place ≠ .swPosted || r.overdue then y
          else if r.deadline < before.st then y.decideSlot r.cmd r.slot (defect 0x05) {}
          else
            let (place, pic, reads) := swResult before d r k
            match before.firstBad d.ctx reads with
            | some va =>
              let loc := match y.blockAt d.ctx va with
                | some (st, f, b) => y.dramLoc st f b
                | none => 0
              let seq := y.mem.logSeq.toNat
              let z := (y.memErr 0x02 0 loc (some (d.ctx, va))).endCmd r.cmd stDataLost seq
              (z.endCmds (z.cmdsOf ((before.cmd r.cmd).elim 0 (·.ctx))) stDiscarded).settle
            | none =>
              let y := y.decideSlot r.cmd r.slot place pic
              if place = .ready then
                y.modPipe (fun p => { p with meanSw := ringPush 64 p.meanSw (before.st - r.postedAt) })
              else y
  | _, _ => x

/-- The work of SWDEC_RETURN: ST_TIMEOUT after DEADLINE, ST_DISCARDED when the batch is gone (R223). -/
def returnWork (x : Half) (c : Cmd) (_ : Option Nat) : Work :=
  let late := (x.swReq c.ctx (df c.desc 0x20 16)).any (fun r => r.overdue || r.deadline < x.st)
  let lost := (x.swReq c.ctx (df c.desc 0x20 16)).any (fun r => (x.batch r.cmd).isNone)
  { inst := 0x80, atOnce := true
    fail := if late then some { bad := true, st := stTimeout } else if lost then some { bad := true, st := stDiscarded } else none }

/-- SWDEC_RETURN (R223). -/
def execSwdecReturn (h : HalfId) (cmd : Nat) (s : State) : Host.Outcome State Fault Refusal :=
  .next (s.mod h (fun x => Half.takeSw x (x.start cmd 5 0x21 (fun _ _ => true) returnChecks returnWork) cmd))

/-- SWDEC_DEADLINE_EXPIRY: a request that reaches its DEADLINE makes its slot defective with reason 0x05 (R222, R223, R225). -/
def execSwdecDeadlineExpiry (h : HalfId) (entry : Nat) (s : State) : Host.Outcome State Fault Refusal :=
  .next (s.mod h (fun x =>
    match x.sched.pipe.swdec.bind (fun d => d.reqs.find? (fun r => r.entry = entry && !r.overdue)) with
    | none => x
    | some r =>
      if !(x.alive && r.deadline ≤ x.st) then x
      else
        let y := x.modPipe (fun p => { p with swdec := p.swdec.map (fun (d : SwDec) => { d with
          reqs := d.reqs.map (fun (q : SwReq) => if q.entry = entry then { q with overdue := true } else q) }) })
        if (x.batchSlot r.cmd r.slot).any (fun k => k.place = .swPosted) then y.decideSlot r.cmd r.slot (defect 0x05) {} else y))

/-! ### The commit of a batch (R224, R228, R230) -/

/-- The slot has been decided. -/
def SlotPlace.decided : SlotPlace → Bool
  | .ready => true
  | .defect _ _ => true
  | _ => false

/-- The mask of the valid slots, in 64-bit words (R210). -/
def maskBytes (b : Batch) : List Byte :=
  leBytes (cdiv b.slots.length 64 * 8) (b.slots.zipIdx.foldl (fun a p => if p.1.place = .ready then a + 2 ^ p.2 else a) 0)

/-- The defect record (Table — Defect record). -/
def defectBytes (b : Batch) : List Byte :=
  let ds := b.slots.zipIdx.filterMap (fun p => match p.1.place with
    | .defect st r => some (leBytes 8 (p.2 + st * 2 ^ 16 + r * 2 ^ 32 + b2n p.1.sw * 2 ^ 40))
    | _ => none)
  leBytes 2 ds.length ++ leBytes 2 (b.slots.filter (fun k => k.sw)).length ++ leBytes 4 b.hwBudget ++ leBytes 4 b.swBudget ++
    leBytes 4 b.h265Budget ++ ds.flatten

/-- Everything that the batch changes at its commit, with DETAIL0 and DETAIL1 (R213, R228). -/
def Half.batchOutputs (x : Half) (b : Batch) (c : Cmd) (status : Nat) : Cmd :=
  let t := tdOf b.dst
  let val := fun (k : Nat) (idx : List Nat) =>
    let s := b.slots[at' idx 3]?.getD {}
    if s.place ≠ .ready then ((.zero, false) : Out)
    else (pixelValue x.seed k b.param s (at' idx 2) (fld s.sample 256 16 + at' idx 0) (fld s.sample 272 16 + at' idx 1), false)
  let (bytes, cnt) := t.write x c.ctx val
  let at'' := fun (va : Nat) (l : List Byte) => l.zipIdx.map (fun p => (va + p.2, p.1))
  let good := (b.slots.filter (fun k => k.place = .ready)).length
  let streams := (x.sched.pipe.bindings.filter (fun k => b.slots.any (fun s => s.binding = some k.num) && k.stateVa ≠ 0)).map
    (fun k => (k.num, streamAt k b.slots))
  { c with
    writes := bytes ++ at'' (df c.desc 0x38 64) (maskBytes b) ++
      at'' (df c.desc 0x40 64) (b.slots.flatMap (fun k => leBytes 8 k.time.toNat)) ++ at'' (df c.desc 0x48 64) (defectBytes b) ++
      x.sched.pipe.bindings.flatMap (fun d => (b.heads.filter (fun p => p.1 = d.num)).flatMap (fun p => at'' d.stateVa p.2))
    status := status, eff := .batch streams
    det0 := BitVec.ofNat 64 (Config.freeNat (x.seed + 2) 32 % 2 ^ 32 + good * 2 ^ 32 + (b.slots.length - good) * 2 ^ 48)
    det1 := BitVec.ofNat 32 (cnt % 65536 + (b.slots.filter (fun k => k.sw)).length * 65536) }

/-- Commits a batch whose slots are all decided, or leaves its commit waiting for its POST_OP. -/
def Half.batchCommit (x : Half) (n status : Nat) : Half :=
  match x.batch n, x.cmd n with
  | some b, some c =>
    if b.slots.all (fun k => k.place.decided) then
      (((x.took.took.modCmd n (fun _ => x.batchOutputs b c status)).tryCommit n).settle)
    else x
  | _, _ => x

/-- The slots that a batch has not decided become defective with reason 0x06, and its software decodes overdue (R230). -/
def Half.expireSlots (x : Half) (n : Nat) (b : Batch) : Half :=
  let y := (List.range b.slots.length).foldl (fun (y : Half) i =>
    if (b.slots[i]?).any (fun k => k.place.decided) then y else y.decideSlot n i (defect 0x06) {}) x
  y.modPipe (fun p => { p with swdec := p.swdec.map (fun (d : SwDec) => { d with
    reqs := d.reqs.map (fun (q : SwReq) => if q.cmd = n then { q with overdue := true } else q) }) })

/-- BATCH_BUDGET_EXPIRY: unfinished slots become defective with reason 0x06 and the batch commits with ST_TIMEOUT (R230). -/
def execBatchBudgetExpiry (h : HalfId) (cmd : Nat) (s : State) : Host.Outcome State Fault Refusal :=
  .next (s.mod h (fun x =>
    match x.cmd cmd, x.batch cmd with
    | some c, some b =>
      if !(x.alive && c.st ≠ .waiting && c.status ≠ stTimeout && x.since c.started (budgetUs c * 1000)) then x
      else (x.expireSlots cmd b).batchCommit cmd stTimeout
    | _, _ => x))

/-! ### Frames in a move -/

/-- A frame that the command touches is being moved: it waits at translation (spec/12_memory_system.md R331). -/
def Half.inMove (x : Half) (c : Cmd) : Bool :=
  x.mem.moves ≠ [] && (c.reads.flatMap (fun r => pagesOf r.1 r.2)).any (fun p => match (x.tptOf c.ctx p).map (fun (t : Tpt) => t.dest) with
    | some (MapTo.frame st f) => x.mem.moves.any (fun m => m.stack = st && m.old = f)
    | _ => false)

/-- Started batches end with ST_KILLED when the Sideline die's module retrains or resets (R229). -/
def Half.killBatches (x : Half) : Half :=
  (x.endCmds (x.sched.pipe.batches.map (·.cmd)) stKilled).settle

end Sys2Proof.Machine
end

