-- ==== Sys2Proof/Machine/Geometry.lean ====
section
/-! DEFINITION. Geometry that fusion and planning share: vectors, quaternions, oriented boxes and the occupancy grid
(spec/09_fusion_engine.md R234, R249, R250, spec/10_motion_planning.md R265, R266). Coordinates are exact; sines and cosines are values
that the spec gives no exactness for (log 13). -/

namespace Sys2Proof.Machine

/-- Not a NaN and at least a bound. -/
def geNum (a b : Num) : Bool := !a.isNan && !b.isNan && !a.lt b

/-- Difference. -/
def Num.sub (a b : Num) : Num := a.add b.neg

/-- Half of a number. -/
def Num.half (a : Num) : Num := a.scale (-1)

/-- The quotient of two finite numbers, far more exact than FP32; NaN where there is none. -/
def Num.div : Num → Num → Num
  | .fin n1 m1 e1, .fin n2 m2 e2 => if m2 = 0 then .nan else if m1 = 0 then .zero else quot n1 m1 e1 n2 m2 e2
  | _, _ => .nan

/-- The lesser of two numbers. -/
def Num.min (a b : Num) : Num := if b.lt a then b else a

/-- The greater of two numbers. -/
def Num.max (a b : Num) : Num := if a.lt b then b else a

/-- The greatest integer not above a finite number. -/
def Num.floor : Num → Int
  | .fin n m e => if 0 ≤ e then sgn n (m * 2 ^ e.toNat) else sgn n m / (2 ^ (-e).toNat : Nat)
  | _ => 0

/-- Metres as millimetres, the unit of the grid's cells. -/
def Num.milli (a : Num) : Num := a.mul (.ofInt 1000)

/-- Cosine of an angle. -/
def Num.cos (a : Num) : Num := f32 (Config.cosFp (f32code a) % 2 ^ 32)

/-- Sine of an angle. -/
def Num.sin (a : Num) : Num := f32 (Config.sinFp (f32code a) % 2 ^ 32)

/-- A point or vector of the plane. -/
structure Vec where
  /-- x. -/
  x : Num
  /-- y. -/
  y : Num
  deriving DecidableEq, Repr

/-- Sum of two vectors. -/
def Vec.add (a b : Vec) : Vec := ⟨a.x.add b.x, a.y.add b.y⟩

/-- Difference of two vectors. -/
def Vec.sub (a b : Vec) : Vec := ⟨a.x.sub b.x, a.y.sub b.y⟩

/-- Scalar product. -/
def Vec.dot (a b : Vec) : Num := (a.x.mul b.x).add (a.y.mul b.y)

/-- The cross product's third component. -/
def Vec.cross (a b : Vec) : Num := (a.x.mul b.y).sub (a.y.mul b.x)

/-- The vector turned by the direction u, a cosine and a sine. -/
def Vec.turn (u a : Vec) : Vec := ⟨(u.x.mul a.x).sub (u.y.mul a.y), (u.y.mul a.x).add (u.x.mul a.y)⟩

/-- The vector turned back. -/
def Vec.back (u a : Vec) : Vec := ⟨u.dot a, u.cross a⟩

/-- The direction of a heading. -/
def heading (yaw : Num) : Vec := ⟨yaw.cos, yaw.sin⟩

/-! ### Rotation by a quaternion (R234) -/

/-- The rotation of a vector of three by a quaternion (w, x, y, z). -/
def rotate (q : List Num) (v : List Num) : List Num :=
  let g : Nat → Num := fun i => q[i]?.getD .zero
  let dbl : Nat → Nat → Num := fun i j => ((g i).mul (g j)).scale 1
  let one := Num.one
  let rows := [[one.sub ((dbl 2 2).add (dbl 3 3)), (dbl 1 2).sub (dbl 0 3), (dbl 1 3).add (dbl 0 2)],
    [(dbl 1 2).add (dbl 0 3), one.sub ((dbl 1 1).add (dbl 3 3)), (dbl 2 3).sub (dbl 0 1)],
    [(dbl 1 3).sub (dbl 0 2), (dbl 2 3).add (dbl 0 1), one.sub ((dbl 1 1).add (dbl 2 2))]]
  rows.map (fun r => (r.zip v).foldl (fun (a : Num) p => a.add (p.1.mul p.2)) .zero)

/-- The inverse rotation. -/
def unrotate (q : List Num) (v : List Num) : List Num :=
  rotate (q.zipIdx.map (fun p => if p.2 = 0 then p.1 else p.1.neg)) v

/-! ### Oriented boxes -/

/-- A rectangle: its centre, the direction of its length, and half its length and width. -/
structure OBox where
  /-- Centre. -/
  at' : Vec
  /-- Direction. -/
  u : Vec
  /-- Half length. -/
  hl : Num
  /-- Half width. -/
  hw : Num
  deriving DecidableEq, Repr

/-- Half of what the box covers along an axis. -/
def OBox.reach (b : OBox) (n : Vec) : Num := (b.hl.mul (b.u.dot n).abs).add (b.hw.mul (b.u.cross n).abs)

/-- An axis parts two boxes. -/
def OBox.parted (a b : OBox) (n : Vec) : Bool := ((a.reach n).add (b.reach n)).lt ((b.at'.sub a.at').dot n).abs

/-- The four axes along which two boxes can be parted. -/
def boxAxes (a b : OBox) : List Vec := [a.u, ⟨a.u.y.neg, a.u.x⟩, b.u, ⟨b.u.y.neg, b.u.x⟩]

/-- Two boxes touch. -/
def OBox.touches (a b : OBox) : Bool := !((boxAxes a b).any (a.parted b))

/-- A point lies in the box. -/
def OBox.holds (b : OBox) (p : Vec) : Bool :=
  let d := b.u.back (p.sub b.at')
  geNum b.hl d.x.abs && geNum b.hw d.y.abs

/-- The corners of the box. -/
def OBox.corners (b : OBox) : List Vec :=
  [(b.hl, b.hw), (b.hl, b.hw.neg), (b.hl.neg, b.hw), (b.hl.neg, b.hw.neg)].map (fun p => b.at'.add (b.u.turn ⟨p.1, p.2⟩))

/-- The smallest box with the direction u that encloses a list of points (spec/10_motion_planning.md R265). -/
def boxAround (u : Vec) (ps : List Vec) : OBox :=
  let qs := ps.map u.back
  let lim := fun (f : Num → Num → Num) (g : Vec → Num) => match qs.map g with
    | [] => Num.zero
    | a :: l => l.foldl f a
  let (x0, x1, y0, y1) := (lim Num.min Vec.x, lim Num.max Vec.x, lim Num.min Vec.y, lim Num.max Vec.y)
  { at' := u.turn ⟨(x0.add x1).half, (y0.add y1).half⟩, u := u, hl := (x1.sub x0).half, hw := (y1.sub y0).half }

/-! ### State blocks (Table — State block) -/

/-- FP32 word w of a state block. -/
def stNum (s : BitVec 544) (w : Nat) : Num := f32 (fld s (32 * w) 32)

/-- A pose as FP32 x, y and yaw. -/
def poseVec (pose : BitVec 96) : Vec := ⟨f32 (fld pose 0 32), f32 (fld pose 32 32)⟩

/-- Yaw of a pose. -/
def poseYaw (pose : BitVec 96) : Num := f32 (fld pose 64 32)

/-- The footprint of a state block in the ego frame of a pose, in the odometry frame in mm. -/
def footprint (pose : BitVec 96) (s : BitVec 544) : OBox :=
  let c := (poseVec pose).add ((heading (poseYaw pose)).turn ⟨stNum s 0, stNum s 1⟩)
  { at' := ⟨c.x.milli, c.y.milli⟩, u := heading ((poseYaw pose).add (stNum s 5)), hl := (stNum s 7).milli.half
    hw := (stNum s 8).milli.half }

/-! ### The occupancy grid (R249) -/

/-- A grid: the odometry position of its corner in mm, its cells along x and y, and the edge of a cell in mm. -/
structure Grid where
  /-- Corner of cell (0, 0). -/
  corner : Vec
  /-- GRID_W. -/
  w : Nat
  /-- GRID_H. -/
  h : Nat
  /-- CELL_MM. -/
  mm : Nat
  deriving DecidableEq, Repr

/-- Centre of cell (i, j). -/
def Grid.centre (g : Grid) (i j : Nat) : Vec :=
  let off := fun (k : Nat) => (Num.ofInt ((2 * k + 1) * g.mm : Nat)).half
  g.corner.add ⟨off i, off j⟩

/-- Cell (i, j) as a box. -/
def Grid.cell (g : Grid) (i j : Nat) : OBox :=
  let e := (Num.ofInt g.mm).half
  { at' := g.centre i j, u := ⟨.one, .zero⟩, hl := e, hw := e }

/-- The cell, by its number along each axis, in which a point lies; it may lie outside the grid. -/
def Grid.cellOf (g : Grid) (p : Vec) : Int × Int :=
  let d := p.sub g.corner
  let k := fun (a : Num) => a.floor / (max 1 g.mm : Nat)
  (k d.x, k d.y)

/-- A segment passes through the inside of cell (i, j). -/
def Grid.crossed (g : Grid) (a b : Vec) (i j : Nat) : Bool :=
  let c := g.cell i j
  let d := b.sub a
  let spans := fun (x0 x1 m : Num) => (x0.min x1).lt (m.add c.hl) && (m.sub c.hl).lt (x0.max x1)
  let sides := c.corners.map (fun p => d.cross (p.sub a))
  spans a.x b.x c.at'.x && spans a.y b.y c.at'.y && sides.any (fun s => s.lt .zero) && sides.any (fun s => Num.zero.lt s)

end Sys2Proof.Machine
end

