-- ==== Sys2Proof/Machine/Fusion.lean ====
section
/-! DEFINITION. Unit 0x06, object and track fusion (spec/09_fusion_engine.md R232 to R257). What the spec gives as a rule is
computed: which lists are folded and onto which state, distances, the assignment, lifecycles, births, conflicts, poses, the grid, counts
and records. What it leaves to the filter (predicted and updated states, class and existence probabilities, the measured ego-motion) are
functions of their inputs that nothing evaluates (log 13). -/

namespace Sys2Proof.Machine

/-! ### The session's parameters (R234) -/

/-- A field of the parameter copy. -/
def Fusion.p (f : Fusion) (off w : Nat) : Nat := bytesAt f.param off w
/-- An FP32 field of the parameter copy. -/
def Fusion.fp (f : Fusion) (off : Nat) : Num := f32 (f.p off 4)
/-- SENSOR_COUNT. -/
def Fusion.sensorCount (f : Fusion) : Nat := f.p 0x12 1
/-- SENSOR_ID of entry i. -/
def Fusion.sensorId (f : Fusion) (i : Nat) : Nat := f.p (0x40 + 64 * i) 1
/-- KIND of a sensor of the session. -/
def Fusion.sensorKind (f : Fusion) (id : Nat) : Option Nat :=
  ((List.range f.sensorCount).find? (fun i => f.sensorId i = id)).map (fun i => f.p (0x41 + 64 * i) 1)
/-- COAST_MAX_MS in ns. -/
def Fusion.coastNs (f : Fusion) : Nat := f.p 0x0C 2 * 1000000
/-- Bytes of the grid with its header. -/
def gridBytes (w h : Nat) : Nat := 64 + w * h

/-- The sensor entry of a sensor of the session (Table — Sensor entry), zero where it names none. -/
def Fusion.sensor (f : Fusion) (id : Nat) : BitVec 512 :=
  match (List.range f.sensorCount).find? (fun i => f.sensorId i = id) with
  | some i => BitVec.ofNat 512 (f.p (0x40 + 64 * i) 64)
  | none => 0

/-- Bytes placed from an address up. -/
def placeBytes (va : Nat) (l : List Byte) : List (Nat × Byte) := l.zipIdx.map (fun p => (va + p.2, p.1))

/-! ### FUSE_OPEN and FUSE_CLOSE (R233, R234, R249) -/

/-- Another command that has started and not committed opens a session of the unit. -/
def Half.opening (x : Half) (f : Eff → Bool) : Bool := x.sched.cmds.any (fun c => f c.eff)

/-- The checks of the parameter block, structure 1 (R234). -/
def fuseParamChecks (f : Fusion) : List Chk :=
  let s1 := 65536
  let mal := fun (bad : Bool) (o : Nat) => ({ bad := bad, st := stMalformed, off := s1 + o } : Chk)
  let one := f32 0x3F800000
  let n := f.sensorCount
  let ids := (List.range (min n 32)).map f.sensorId
  [mal (!(Num.zero.lt (f.fp 0) && (f.fp 0).isFin)) 0x00, mal (!(geNum (f.fp 4) (f.fp 0) && (f.fp 4).isFin)) 0x04,
   mal (!(geNum (f.fp 8) .zero && geNum one (f.fp 8))) 0x08, mal (f.p 0x0C 2 < 1 || 5000 < f.p 0x0C 2) 0x0C,
   mal (f.p 0x0E 2 < 10 || 300 < f.p 0x0E 2) 0x0E, mal (f.p 0x10 1 < 1) 0x10, mal (f.p 0x11 1 < f.p 0x10 1 || 8 < f.p 0x11 1) 0x11,
   { bad := n = 0, st := stEmpty }, { bad := 32 < n, st := stLimit, off := s1 + 0x12 }, mal (f.p 0x13 1 ≠ 0) 0x13,
   mal (!(Num.zero.lt (f.fp 0x14))) 0x14, mal (!((f.fp 0x18).lt .zero)) 0x18, mal (f.p 0x1C 36 ≠ 0) 0x1C] ++
  (List.range (min n 32)).flatMap (fun i =>
    let b := 0x40 + 64 * i
    let q := fun k => f.fp (b + 0x10 + 4 * k)
    let sq := ((List.range 4).map (fun k => (q k).mul (q k))).foldl Num.add .zero
    let m := sq.mul (.ofInt 1000000)
    [mal (31 < f.sensorId i || (ids.take i).contains (f.sensorId i)) b, mal (2 < f.p (b + 1) 1) (b + 1), mal (f.p (b + 2) 2 ≠ 0) (b + 2),
     mal (!(geNum m (.ofInt 998001) && geNum (.ofInt 1002001) m)) (b + 0x10), mal (f.p (b + 0x2C) 20 ≠ 0) (b + 0x2C)])

/-- The session that a FUSE_OPEN asks for; the grid's origin is free until a step places it. -/
def fuseSession (x : Half) (c : Cmd) : Fusion :=
  let d := c.desc
  let pv := df d 0x20 64
  let n := min 32 (x.vnat c.ctx (pv + 0x12) 1)
  { ctx := c.ctx, param := x.vread c.ctx pv (64 + 64 * n), gridVa := df d 0x28 64, gridW := df d 0x30 16, gridH := df d 0x32 16
    cellMm := df d 0x34 16, originX := BitVec.ofNat 32 (Config.elemNat x.seed 0 32), originY := BitVec.ofNat 32 (Config.elemNat x.seed 1 32) }

/-- The grid header as 64 bytes (R249). -/
def gridHeader (epoch tov : Nat) (ox oy : BitVec 32) (w h cell : Nat) : List Byte :=
  leBytes 8 epoch ++ leBytes 8 tov ++ leBytes 4 ox.toNat ++ leBytes 4 oy.toNat ++ leBytes 2 w ++ leBytes 2 h ++ leBytes 2 cell ++
    List.replicate 34 0

/-- The checks of FUSE_OPEN (R233, R234, R255). -/
def fuseOpenChecks (x : Half) (c : Cmd) : List Chk :=
  let d := c.desc
  let pv := df d 0x20 64
  let f := fuseSession x c
  let pOk := pv < vaLimit && pv % 64 = 0 && x.mapped c.ctx pv 64
  let dim := fun v => v ≠ 0 && (v < 64 || 2048 < v || v % 64 ≠ 0)
  let mal := fun (bad : Bool) (o : Nat) => ({ bad := bad, st := stMalformed, off := o } : Chk)
  [mal (!pOk) 0x20, dAddr d 0x28, mal (f.gridVa % 4096 ≠ 0) 0x28, dRsv d 0x36 592,
   { bad := f.gridW = 0 || f.gridH = 0, st := stEmpty }, { bad := dim f.gridW, st := stLimit, off := 0x30 },
   { bad := dim f.gridH, st := stLimit, off := 0x32 }, mal (f.cellMm = 0) 0x34,
   { bad := f.cellMm < 50 || 2000 < f.cellMm, st := stLimit, off := 0x34 },
   mal (!x.writable c.ctx f.gridVa (gridBytes f.gridW f.gridH)) (4 * 65536),
   { bad := x.sched.fusion.isSome || x.opening (fun e => match e with
      | .fuse _ => true
      | _ => false), st := stBusy, retry := some 10000 }] ++
  (if pOk then mal (!x.mapped c.ctx pv (64 + 64 * min 32 f.sensorCount)) 0x20 :: fuseParamChecks f else [])

/-- The work of FUSE_OPEN (R233, R249). -/
def fuseOpenWork (x : Half) (c : Cmd) (_ : Option Nat) : Work :=
  let f := fuseSession x c
  let bytes := gridHeader 0 (Config.elemNat x.seed 2 64) f.originX f.originY f.gridW f.gridH f.cellMm ++
    List.replicate (f.gridW * f.gridH) 255
  { inst := 0x40, reads := [(df c.desc 0x20 64, f.param.length)], outs := [(f.gridVa, bytes.length)], foot := bytes.length
    writes := placeBytes f.gridVa bytes, det0 := Config.freeNat x.seed 32 % 2 ^ 32, eff := .fuse f }

/-- FUSE_OPEN: the session and the grid of unknown cells are committed together (R233, R249). -/
def execFuseOpen (h : HalfId) (cmd : Nat) (s : State) : Host.Outcome State Fault Refusal :=
  .next (s.mod h (fun x => x.start cmd 6 0x01 (fun _ _ => true) fuseOpenChecks fuseOpenWork))

/-- A command on a session that does not exist is malformed, and on another context's session is denied (log 13). -/
def ownerChecks (owner : Option Nat) (c : Cmd) : List Chk :=
  [{ bad := owner.isNone, st := stMalformed }, { bad := owner.any (fun o => o ≠ c.ctx), st := stDenied }]

/-- The checks of FUSE_CLOSE. -/
def fuseCloseChecks (x : Half) (c : Cmd) : List Chk := ownerChecks (x.sched.fusion.map (·.ctx)) c ++ [dRsv c.desc 0x20 768]

/-- The work of FUSE_CLOSE. -/
def fuseCloseWork (x : Half) (_ : Cmd) (_ : Option Nat) : Work :=
  { inst := 0x40, det0 := Config.freeNat x.seed 32 % 2 ^ 32, atOnce := true, eff := .fuseClose }

/-- FUSE_CLOSE (R232, R233). -/
def execFuseClose (h : HalfId) (cmd : Nat) (s : State) : Host.Outcome State Fault Refusal :=
  .next (s.mod h (fun x => x.start cmd 6 0x02 (fun _ _ => true) fuseCloseChecks fuseCloseWork))

/-! ### Lists and measurements (R235 to R241) -/

/-- An object list that a step passes: its place in the array, address and header fields. -/
structure OList where
  /-- Place in the array. -/
  i : Nat
  /-- Address. -/
  va : Nat
  /-- SENSOR_ID. -/
  sensor : Nat
  /-- COUNT. -/
  count : Nat
  /-- LIST_SEQ. -/
  seq : Nat
  /-- CAPTURE_TIME. -/
  tc : Nat
  deriving DecidableEq, Repr

/-- Object list i of the command. -/
def oList (x : Half) (c : Cmd) (i : Nat) : OList :=
  let va := x.vnat c.ctx (df c.desc 0x20 64 + 8 * i) 8
  { i := i, va := va, sensor := x.vnat c.ctx va 1, count := x.vnat c.ctx (va + 2) 2, seq := x.vnat c.ctx (va + 4) 4
    tc := x.vnat c.ctx (va + 8) 8 }

/-- The lists that the command passes. -/
def oLists (x : Half) (c : Cmd) : List OList := (List.range (min 32 (df c.desc 0x48 8))).map (oList x c)

/-- The class of a list (Table — List classes). -/
inductive LClass where
  /-- Repeat. -/
  | rep
  /-- Early. -/
  | early
  /-- In sequence. -/
  | inSeq
  /-- Out of sequence. -/
  | oos
  /-- Late. -/
  | late
  deriving DecidableEq, Repr

/-- Classifies a list, the first condition that holds deciding; before the first commit every list up to TOV is in sequence
(R239). -/
def Fusion.classify (f : Fusion) (tov : Nat) (l : OList) : LClass :=
  if f.folded.any (fun s => s.contains (l.sensor, l.seq)) then .rep
  else if tov < l.tc then .early
  else match f.tLast with
    | none => .inSeq
    | some t =>
      if t < l.tc then .inSeq
      else if tov - l.tc ≤ f.p 0x0E 2 * 1000000 && f.tovs.any (fun v => v ≤ l.tc) then .oos
      else .late

/-- Measurement k of a list. -/
def meas (x : Half) (ctx : Nat) (l : OList) (k : Nat) : BitVec 768 := BitVec.ofNat 768 (x.vnat ctx (l.va + 64 + 96 * k) 96)

/-- FP32 word w of the STATE block of a measurement. -/
def measNum (m : BitVec 768) (w : Nat) : Num := f32 (fld m (128 + 32 * w) 32)

/-- A measurement that is not skipped: FIELDS[0] is set, measured parts are finite and their variances not negative (R238). -/
def measOk (m : BitVec 768) : Bool :=
  let fin := fun (l : List Nat) => l.all (fun w => (measNum m w).isFin)
  let pos := fun (l : List Nat) => l.all (fun w => !(measNum m w).lt .zero)
  let on := fun i => bitAt m (48 + i)
  on 0 && fin [0, 1, 2, 10, 11, 12] && pos [10, 12] && (!on 1 || (fin [3, 4, 13, 14, 15] && pos [13, 15])) &&
    (!on 2 || (fin [5, 6, 16] && pos [16])) && (!on 3 || fin [7, 8, 9])

/-- The order in which lists are folded (R241). -/
def OList.before (a b : OList) : Bool :=
  a.tc < b.tc || (a.tc = b.tc && (a.sensor < b.sensor || (a.sensor = b.sensor && a.seq < b.seq)))

/-- Sorted insertion of a list. -/
def insertList (l : OList) : List OList → List OList
  | [] => [l]
  | k :: ks => if l.before k then l :: k :: ks else k :: insertList l ks

/-! ### Association (R242) -/

/-- The minimum-total-cost assignment: most measurements assigned, then least cost, then lower hypotheses in order. A
measurement is a list of its eligible hypotheses with their costs, in ascending TRACK_ID. -/
def assign : List (List (Nat × Nat)) → List Nat → Nat × Nat × List (Option Nat)
  | [], _ => (0, 0, [])
  | m :: ms, used =>
    let skip := assign ms used
    m.foldr (fun p best =>
      if used.contains p.1 then best
      else
        let r := assign ms (p.1 :: used)
        if best.1 < r.1 + 1 || (best.1 = r.1 + 1 && p.2 + r.2.1 ≤ best.2.1) then (r.1 + 1, p.2 + r.2.1, some p.1 :: r.2.2) else best)
      (skip.1, skip.2.1, none :: skip.2.2)

/-! ### Geometry of a measurement (R234, R245) -/

/-- FP32 word w of a sensor entry. -/
def sensorNum (e : BitVec 512) (w : Nat) : Num := f32 (fld e (32 * w) 32)

/-- The quaternion of a sensor entry, w first. -/
def sensorQuat (e : BitVec 512) : List Num := (List.range 4).map (fun k => sensorNum e (4 + k))

/-- A point of the sensor frame in the ego frame. -/
def toEgo (e : BitVec 512) (p : List Num) : List Num :=
  (rotate (sensorQuat e) p).zipIdx.map (fun q => q.1.add (sensorNum e (1 + q.2)))

/-- A point of the ego frame in the sensor frame. -/
def toSensor (e : BitVec 512) (p : List Num) : List Num :=
  unrotate (sensorQuat e) (p.zipIdx.map (fun q => q.1.sub (sensorNum e (1 + q.2))))

/-- A covariance of the plane: var x, cov xy, var y. -/
abbrev Cov := Num × Num × Num

/-- Position and velocity over ground in the ego frame with their covariances; no velocity where none is measured. -/
structure Obs where
  /-- Position. -/
  pos : Vec
  /-- Covariance of the position. -/
  posCov : Cov
  /-- Velocity and its covariance. -/
  vel : Option (Vec × Cov)
  deriving DecidableEq, Repr

/-- A covariance turned by the rotation that takes the axes to the columns p and q. -/
def Cov.turn (p q : Vec) (c : Cov) : Cov :=
  let f := fun (a b : Vec) (i j : Vec → Num) =>
    (((i a).mul (j a)).mul c.1).add (((((i a).mul (j b)).add ((i b).mul (j a))).mul c.2.1).add (((i b).mul (j b)).mul c.2.2))
  (f p q Vec.x Vec.x, f p q Vec.x Vec.y, f p q Vec.y Vec.y)

/-- What a measurement observes, in the ego frame. -/
def measObs (e : BitVec 512) (m : BitVec 768) : Obs :=
  let plane := fun (l : List Num) => (⟨l[0]?.getD .nan, l[1]?.getD .nan⟩ : Vec)
  let col := fun (l : List Num) => plane (rotate (sensorQuat e) l)
  let p := col [.one, .zero, .zero]
  let q := col [.zero, .one, .zero]
  let cov := fun w => Cov.turn p q (measNum m w, measNum m (w + 1), measNum m (w + 2))
  { pos := plane (toEgo e [measNum m 0, measNum m 1, measNum m 2]), posCov := cov 10
    vel := if bitAt m 49 then some (col [measNum m 3, measNum m 4, .zero], cov 13) else none }

/-- What a state block says of an object. -/
def stateObs (s : BitVec 544) : Obs :=
  let cov : Nat → Cov := fun w => (stNum s w, stNum s (w + 1), stNum s (w + 2))
  { pos := ⟨stNum s 0, stNum s 1⟩, posCov := cov 10, vel := some (⟨stNum s 3, stNum s 4⟩, cov 13) }

/-- dᵀ (S₁ + S₂)⁻¹ d in units of 2^-16, rounded down; none where the sum of the covariances has no inverse. -/
def quadForm (d : Vec) (s1 s2 : Cov) : Option Nat :=
  let a := s1.1.add s2.1
  let b := s1.2.1.add s2.2.1
  let c := s1.2.2.add s2.2.2
  let num := ((c.mul (d.x.mul d.x)).sub ((b.mul (d.x.mul d.y)).scale 1)).add (a.mul (d.y.mul d.y))
  let det := (a.mul c).sub (b.mul b)
  if Num.zero.lt det && num.isFin then some ((num.div det).scale 16).floor.toNat else none

/-- The Mahalanobis distance of two observations with the sum of their covariances, over position and, where both have it, velocity, in
units of 2^-16 of the square that a chi-square gate bounds (R242, R245, log 13). -/
def mahal (a b : Obs) : Option Nat :=
  match quadForm (a.pos.sub b.pos) a.posCov b.posCov, a.vel, b.vel with
  | some p, some va, some vb => (quadForm (va.1.sub vb.1) va.2 vb.2).map (p + ·)
  | r, _, _ => r

/-- A distance lies below a gate. -/
def inGate (gate : Num) (d : Nat) : Bool := (Num.fin false d (-16)).lt gate

/-- A position in the ego frame lies in the sensor's field of view: AZ_MIN to AZ_MAX and RANGE_MAX in the sensor frame (R237). -/
def inView (e : BitVec 512) (s : BitVec 544) : Bool :=
  match toSensor e [stNum s 0, stNum s 1, stNum s 2] with
  | [px, py, pz] =>
    let az := f32 (Config.atan2Fp (f32code py) (f32code px) % 2 ^ 32)
    let r := sensorNum e 10
    geNum az (sensorNum e 8) && geNum (sensorNum e 9) az &&
      geNum (r.mul r) (((px.mul px).add (py.mul py)).add (pz.mul pz))
  | _ => false

/-! ### The tracks of a step (R240 to R246) -/

/-- A measurement that fell within GATE of a track's hypothesis in the step. -/
structure Gated where
  /-- KIND of its sensor. -/
  kind : Nat
  /-- The measurement. -/
  m : BitVec 768
  /-- Entry of its sensor. -/
  entry : BitVec 512
  /-- CAPTURE_TIME of its list. -/
  tc : Nat
  /-- The hypothesis as predicted to that time. -/
  prior : BitVec 544
  /-- Its distance from there. -/
  dist : Nat
  deriving DecidableEq, Repr

/-- A track in the course of a step. -/
structure WTrack where
  /-- The track; its hypotheses stand at `time`. -/
  t : Track
  /-- Time at which the hypotheses stand. -/
  time : Nat
  /-- It was conflicted when the step began. -/
  old : Bool := false
  /-- A measurement has reached it in the step. -/
  hit : Bool := false
  /-- An out-of-sequence measurement has. -/
  oosm : Bool := false
  /-- It was created in the step. -/
  fresh : Bool := false
  /-- A measurement of the list that is being folded has reached it. -/
  here : Bool := false
  /-- Measurements within GATE of its only hypothesis. -/
  gated : List Gated := []
  /-- Measurements of the track fell within GATE of A only, of B only, of both. -/
  only : Bool × Bool × Bool := (false, false, false)
  deriving DecidableEq, Repr

/-- The course of a step over its lists. -/
structure FStep where
  /-- The tracks, in ascending TRACK_ID. -/
  ws : List WTrack
  /-- Last TRACK_ID given. -/
  nextId : Nat
  /-- BIRTHS_REFUSED. -/
  refused : Nat := 0
  /-- Measurements folded. -/
  folded : Nat := 0
  /-- INVALID_SKIPPED. -/
  invalid : Nat := 0
  /-- Measurements of out-of-sequence lists. -/
  oosm : Nat := 0
  deriving DecidableEq, Repr

/-- A probability between 0 and 1 as an FP32 code. -/
def probCode (v : Nat) : BitVec 32 := BitVec.ofNat 32 (v % 0x3F800001)

/-- Class probabilities after a measurement. -/
def classProbs (old : List (BitVec 32)) (m : BitVec 768) : List (BitVec 32) :=
  (List.range 64).map (fun k => probCode (Config.classProb old (fld m 32 8) (fld m 40 8) k))

/-- A lower existence probability, zero where it is zero already (R237). -/
def lowered (e : BitVec 32) : BitVec 32 := BitVec.ofNat 32 (Config.existMiss e % max 1 e.toNat)

/-- Speed over ground below 0.3 m/s (R243). -/
def slowState (s : BitVec 544) : Bool :=
  let vx := stNum s 3
  let vy := stNum s 4
  (((vx.mul vx).add (vy.mul vy)).mul (.ofInt 100)).lt (.ofInt 9)

/-- The latest contribution of each sensor. -/
def noteSensor (l : List (Nat × Nat)) (sensor tc : Nat) : List (Nat × Nat) :=
  (sensor, max tc ((l.find? (fun p => p.1 = sensor)).elim 0 (·.2))) :: l.filter (fun p => p.1 ≠ sensor)

/-- A new TENTATIVE track from an unassigned measurement (R242). -/
def birthTrack (entry : BitVec 512) (m : BitVec 768) (id tc sensor : Nat) : Track :=
  let s := Config.trackBirth m entry
  { id := BitVec.ofNat 32 id, life := .tentative, hypA := s, probs := classProbs [] m
    exist := probCode (Config.existHit none (fld m 64 32)), lastMeas := tc, lastA := tc, sensors := [(sensor, tc)]
    slow := b2n (slowState s) }

/-- Room for a new track: the track that makes way for it, when the table is full (R244). -/
def makeRoom (ws : List WTrack) (existence : Nat) : Option (List WTrack) :=
  if ws.length < 1024 then some ws
  else
    let coasting := ws.filter (fun w => w.t.life = .coasting && !w.hit)
    match coasting.find? (fun w => coasting.all (fun v => w.t.lastMeas ≤ v.t.lastMeas)) with
    | some w => some (ws.filter (fun v => v.t.id ≠ w.t.id))
    | none =>
      let tent := ws.filter (fun w => w.t.life = .tentative)
      match tent.find? (fun w => tent.all (fun v => !(f32 v.t.exist.toNat).lt (f32 w.t.exist.toNat))) with
      | some w => if (f32 w.t.exist.toNat).lt (f32 existence) then some (ws.filter (fun v => v.t.id ≠ w.t.id)) else none
      | none => none

/-- What a list brings to the tracks. -/
structure Fold where
  /-- The session. -/
  f : Fusion
  /-- Predicts a state block from one time to another. -/
  pr : BitVec 544 → Nat → Nat → BitVec 544
  /-- SENSOR_ID. -/
  sensor : Nat
  /-- CAPTURE_TIME. -/
  tc : Nat
  /-- The list is out of sequence. -/
  oos : Bool

/-- GATE. -/
def Fold.gate (k : Fold) : Num := k.f.fp 0

/-- The entry of the list's sensor. -/
def Fold.entry (k : Fold) : BitVec 512 := k.f.sensor k.sensor

/-- Distance of a measurement from a hypothesis, where it lies within GATE. -/
def Fold.near (k : Fold) (m : BitVec 768) (s : BitVec 544) : Option Nat :=
  (mahal (measObs k.entry m) (stateObs s)).filter (inGate k.gate)

/-- The track as predicted to the list's time: from where it stands, or for an out-of-sequence list from its newest history entry at or
before that time, unless an out-of-sequence list of the step has already brought it to an earlier one; a hypothesis B that the entry
does not hold stays as it is (R240, R241). None where its history does not reach back. -/
def WTrack.predict (k : Fold) (w : WTrack) : Option WTrack :=
  let move := fun (a : BitVec 544) (b : Option (BitVec 544)) (since : Nat) =>
    { w with time := k.tc, here := false, t := { w.t with hypA := k.pr a since k.tc, hypB := b.map (fun s => k.pr s since k.tc) } }
  if !k.oos || (w.oosm && w.time ≤ k.tc) then some (move w.t.hypA w.t.hypB w.time)
  else (w.t.hist.find? (fun e => e.1 ≤ k.tc)).map (fun e => move e.2.1 (e.2.2.or w.t.hypB) e.1)

/-- A measurement of the list has reached the track: what it changes beside the hypotheses. -/
def WTrack.note (k : Fold) (w : WTrack) (m : BitVec 768) (s : BitVec 544) : WTrack :=
  { w with
    hit := true, here := true, oosm := w.oosm || k.oos
    t := { w.t with
      lastMeas := max w.t.lastMeas k.tc, sensors := noteSensor w.t.sensors k.sensor k.tc, probs := classProbs w.t.probs m
      exist := probCode (Config.existHit (some w.t.exist) (fld m 64 32)), slow := if slowState s then min 8 (w.t.slow + 1) else 0 } }

/-- A measurement updates the hypothesis of the track within whose GATE it falls, the nearer where it falls within both; one assigned
to the only hypothesis updates that (R242, R246). -/
def WTrack.take (k : Fold) (w : WTrack) (m : BitVec 768) : WTrack :=
  let a := k.near m w.t.hypA
  let b := w.t.hypB.bind (k.near m)
  let toB := match a, b with
    | some da, some db => decide (db < da)
    | none, some _ => true
    | _, none => false
  let s := Config.trackUpdate (if toB then w.t.hypB.getD 0 else w.t.hypA) m k.entry
  let v := w.note k m s
  { v with
    only := (v.only.1 || (a.isSome && b.isNone), v.only.2.1 || (a.isNone && b.isSome), v.only.2.2 || (a.isSome && b.isSome))
    t := { v.t with
      hypA := if toB then v.t.hypA else s, hypB := if toB then some s else v.t.hypB
      lastA := if toB then v.t.lastA else max v.t.lastA k.tc, lastB := if toB then max v.t.lastB k.tc else v.t.lastB } }

/-- Two measurements of different KIND within GATE of one hypothesis contradict each other: their distance exceeds CONFLICT_GATE, or
they name different classes with a confidence of at least 230 (R245). -/
def Gated.contradicts (f : Fusion) (a b : Gated) : Bool :=
  a.kind ≠ b.kind &&
    ((mahal (measObs a.entry a.m) (measObs b.entry b.m)).any (fun d => (f.fp 4).lt (.fin false d (-16))) ||
      (fld a.m 32 8 ≠ fld b.m 32 8 && 230 ≤ fld a.m 40 8 && 230 ≤ fld b.m 40 8))

/-- The track becomes conflicted: hypothesis A is updated by the measurement nearer the predicted state, B by the other (R245). -/
def WTrack.split (k : Fold) (w : WTrack) (g h : Gated) : WTrack :=
  let (near, far) := if h.dist < g.dist then (h, g) else (g, h)
  let upd := fun (q : Gated) => k.pr (Config.trackUpdate q.prior q.m q.entry) q.tc k.tc
  let v := w.note k g.m (upd near)
  { v with
    only := (false, false, true)
    t := { v.t with hypA := upd near, hypB := some (upd far), lastA := near.tc, lastB := far.tc } }

/-- A measurement within GATE of a track's only hypothesis is kept for the step; where it contradicts an earlier one the track becomes
conflicted, which is the second component (R245). -/
def WTrack.joins (k : Fold) (w : WTrack) (m : BitVec 768) : WTrack × Bool :=
  match w.t.hypB, k.near m w.t.hypA with
  | none, some d =>
    let g : Gated := { kind := (k.f.sensorKind k.sensor).getD 0, m := m, entry := k.entry, tc := k.tc, prior := w.t.hypA, dist := d }
    match w.gated.find? (g.contradicts k.f) with
    | some h => (w.split k g h, true)
    | none => ({ w with gated := w.gated ++ [g] }, false)
  | _, _ => (w, false)

/-- One measurement of a list, with the track that the assignment gives it: it makes tracks conflicted, or updates its track, or, left
unassigned, the nearest conflicted track within whose GATE it falls; otherwise it is left for a birth (R242, R245, R246). -/
def foldMeas (k : Fold) (acc : List (Option WTrack) × List (BitVec 768)) (m : BitVec 768) (given : Option Nat) :
    List (Option WTrack) × List (BitVec 768) :=
  let tried := acc.1.map (fun o => o.map (fun w => w.joins k m))
  let ws := tried.map (fun o => o.map (·.1))
  let used := tried.any (fun o => o.any (·.2))
  let dist := fun (w : WTrack) => match k.near m w.t.hypA, w.t.hypB.bind (k.near m) with
    | some a, some b => some (min a b)
    | a, b => a.or b
  let pairs := ws.zipIdx.filterMap (fun p => p.1.bind (fun w => if w.t.hypB.isSome then (dist w).map (fun d => (d, p.2)) else none))
  let target := given.or ((pairs.find? (fun p => pairs.all (fun q => p.1 ≤ q.1))).map (·.2))
  if used then (ws, acc.2)
  else match target with
    | some i => (ws.modify i (fun o => o.map (fun w => w.take k m)), acc.2)
    | none => (ws, acc.2 ++ [m])

/-- Folds one list: predicts, gates, assigns, updates, lowers the existence of tracks in view that it does not show, and gives births in
record order (R237, R240 to R242, R244 to R246). -/
def foldOne (x : Half) (f : Fusion) (pr : BitVec 544 → Nat → Nat → BitVec 544) (oos : Bool) (st : FStep) (l : OList) : FStep :=
  let k : Fold := { f := f, pr := pr, sensor := l.sensor, tc := l.tc, oos := oos }
  let all := (List.range l.count).map (meas x f.ctx l)
  let good := all.filter measOk
  let ready := st.ws.map (fun w => w.predict k)
  let hyps := ready.zipIdx.flatMap (fun p => match p.1 with
    | some w => (2 * p.2, w.t.hypA) :: (w.t.hypB.map (fun b => (2 * p.2 + 1, b))).toList
    | none => [])
  let elig := good.map (fun m => hyps.filterMap (fun q => (k.near m q.2).map (fun d => (q.1, d))))
  let plan := (good.zip (assign elig []).2.2).map (fun p => (p.1, p.2.map (· / 2)))
  let done := plan.foldl (fun acc p => foldMeas k acc p.1 p.2) (ready, [])
  let moved := (st.ws.zip done.1).map (fun p => match p.2 with
    | none => p.1
    | some w =>
      let v := if w.here || !oos then w else { p.1 with gated := w.gated }
      if w.here || !inView k.entry w.t.hypA then v else { v with t := { v.t with exist := lowered v.t.exist } })
  let born := done.2.foldl (fun (acc : List WTrack × Nat × Nat) m =>
    match makeRoom acc.1 (fld m 64 32) with
    | some ws => (ws ++ [{ t := birthTrack k.entry m (acc.2.1 + 1) l.tc l.sensor, time := l.tc, hit := true, oosm := oos, fresh := true }],
        acc.2.1 + 1, acc.2.2)
    | none => (acc.1, acc.2.1, acc.2.2 + 1)) (moved, st.nextId, st.refused)
  { ws := born.1, nextId := born.2.1, refused := born.2.2, folded := st.folded + good.length
    invalid := st.invalid + (all.length - good.length), oosm := st.oosm + (if oos then good.length else 0) }

/-! ### The end of a step (R243, R246) -/

/-- A track at TOV: predicted state, lifecycle, hypotheses and history; none when it is deleted (R243, R246). -/
def WTrack.finish (f : Fusion) (pr : BitVec 544 → Nat → Nat → BitVec 544) (tov : Nat) (w : WTrack) : Option Track :=
  let t := w.t
  let a := pr t.hypA w.time tov
  let b := t.hypB.map (fun s => pr s w.time tov)
  let n := f.p 0x11 1
  let hits := (w.hit :: t.hits).take n
  let confirmed := f.p 0x10 1 ≤ (hits.filter (fun h => h)).length
  let one := w.only.1 != w.only.2.1 && !w.only.2.2
  let isB := w.only.2.1
  let agree := if w.old && one then (if t.agree ≠ 0 && t.agreeB = isB then t.agree + 1 else 1) else 0
  let endBy : Option Bool := if !w.old then none
    else if 3 ≤ agree then some isB
    else if t.lastB + f.coastNs ≤ tov then some false
    else if t.lastA + f.coastNs ≤ tov then some true
    else none
  let hypB := if endBy.isSome then none else b
  let a := if endBy = some true then b.getD a else a
  let life : Lifecyc := match t.life with
    | .tentative => if confirmed then .confirmed else .tentative
    | _ => if w.hit then .confirmed else .coasting
  let gone := (f32 t.exist.toNat).lt (f.fp 8) || t.lastMeas + f.coastNs ≤ tov ||
    (t.life = .tentative && !confirmed && n ≤ hits.length)
  if gone then none
  else some { t with
    life := life, hypA := a, hypB := hypB, hist := ((tov, a, hypB) :: t.hist).take 32, hits := hits
    lastA := if endBy = some true then t.lastB else t.lastA, static := t.slow = 8
    agree := if endBy.isSome then 0 else agree, agreeB := isB }

/-! ### Ego-motion and pose (R247, R248) -/

/-- The measured parts of a step's ego-motion: STATIC tracks, and inliers of the registration of its scan. -/
structure EgoIn where
  /-- STATIC tracks used. -/
  statics : List (BitVec 544)
  /-- Valid measurements of the folded lists. -/
  meas : List (BitVec 768)
  /-- The scan's points, none without a scan. -/
  scan : Option (List Byte)
  /-- The previous registered scan of the same sensor. -/
  stored : Option (List Byte)

/-- Inlier points of the registration, none without two scans. -/
def EgoIn.inliers (e : EgoIn) : Nat :=
  match e.scan, e.stored with
  | some a, some b => min (Config.scanInliers a b) (a.length / 16)
  | _, _ => 0

/-- EGO_QUALITY is MEASURED: at least 6 STATIC tracks, or a registration with at least 1,000 inliers; never in the first step
(R247). -/
def EgoIn.measured (e : EgoIn) (f : Fusion) : Bool := f.tLast.isSome && (6 ≤ e.statics.length || 1000 ≤ e.inliers)

/-- The ego-motion of a step and the velocity at TOV: zero in the first step; measured; or, extrapolated, the motion that the held
velocity and yaw rate give (R247). -/
def EgoIn.motion (e : EgoIn) (f : Fusion) (tov : Nat) : BitVec 192 × BitVec 64 :=
  match f.tLast with
  | none => (0, 0)
  | some t =>
    if e.measured f then
      let r := Config.egoMotion t tov e.statics e.meas (e.scan.getD []) (e.stored.getD [])
      (r.extractLsb' 0 192, r.extractLsb' 192 64)
    else
      let v := f.egoV.extractLsb' 0 32
      let w := f.egoV.extractLsb' 32 32
      let d := Config.egoArc v w (tov - t)
      let yaw := f32code (((f32 w.toNat).mul (.ofInt (tov - t))).div (.ofInt 1000000000))
      (pack 192 [(0, 32, d.1), (32, 32, d.2), (160, 32, yaw)], f.egoV)

/-- The ego pose in the odometry frame after a motion in the previous ego frame (R248). -/
def poseAfter (pose : BitVec 96) (motion : BitVec 192) : BitVec 96 :=
  let p := (poseVec pose).add ((heading (poseYaw pose)).turn ⟨f32 (fld motion 0 32), f32 (fld motion 32 32)⟩)
  pack 96 [(0, 32, f32code p.x), (32, 32, f32code p.y), (64, 32, f32code ((poseYaw pose).add (f32 (fld motion 160 32))))]

/-- A value rounded in a way that is not stated: an integer next to p × k. -/
def roundOpen (seed key k : Nat) (p : Num) : Nat :=
  match p.mul (.ofInt k) with
  | .fin _ m e => match e with
    | .ofNat e => m * 2 ^ e
    | .negSucc e => m / 2 ^ (e + 1) + (if m % 2 ^ (e + 1) = 0 then 0 else Config.elemNat seed key 1 % 2)
  | _ => 0

/-- The most probable class and its probability (R248); the lower among equals. -/
def bestClass (t : Track) : Nat × BitVec 32 :=
  t.probs.zipIdx.foldl (fun (acc : Nat × BitVec 32) p => if acc.2.toNat < p.1.toNat then (p.2, p.1) else acc) (0, t.probs[0]?.getD 0)

/-- An object record (Table — Fused object record). -/
def objectRecord (f : Fusion) (seed tov : Nat) (ws : List WTrack) (t : Track) : List Byte :=
  let w := ws.find? (fun w => w.t.id = t.id)
  let mask := t.sensors.foldl (fun a p => if tov ≤ p.2 + f.coastNs then a ||| 2 ^ p.1 else a) 0
  let (cls, pr) := bestClass t
  let life := match t.life with
    | .tentative => 0
    | .confirmed => 1
    | .coasting => 2
  leBytes 192 (pack 1536 [(0, 32, t.id.toNat), (32, 16, if t.hypB.isSome then stConflict else stOk), (48, 2, life),
    (50, 1, b2n (w.any (·.fresh))), (51, 1, b2n (w.any (·.oosm))), (52, 1, b2n t.static), (64, 8, cls),
    (72, 8, min 255 (roundOpen seed (sub 9 t.id.toNat) 255 (f32 pr.toNat))), (96, 32, mask),
    (128, 32, min 0xFFFFFFFF ((tov - t.lastMeas) / 1000)), (160, 32, t.exist.toNat), (192, 544, t.hypA.toNat),
    (768, 544, (t.hypB.getD 0).toNat)]).toNat

/-! ### The grid (R249, R250) -/

/-- The session's grid. -/
def Fusion.grid (f : Fusion) : Grid :=
  { corner := ⟨(f32 f.originX.toNat).milli, (f32 f.originY.toNat).milli⟩, w := f.gridW, h := f.gridH, mm := f.cellMm }

/-- A scan return: the odometry position in mm of the sensor and of the return, for one with z between 0.2 m and 3.0 m in the ego frame
(R250). -/
def scanRay (entry : BitVec 512) (pose : BitVec 96) (p : List Num) : Option (Vec × Vec) :=
  let place := fun (l : List Num) =>
    let q := (poseVec pose).add ((heading (poseYaw pose)).turn ⟨l[0]?.getD .nan, l[1]?.getD .nan⟩)
    (⟨q.x.milli, q.y.milli⟩ : Vec)
  let e := toEgo entry p
  let z := (e[2]?.getD Num.nan).mul (.ofInt 10)
  if geNum z (.ofInt 2) && geNum (.ofInt 30) z && e.all Num.isFin then
    some (place (toEgo entry [.zero, .zero, .zero]), place e)
  else none

/-- round(254 × P) limited to 1 to 253 for the log-odds of v / 254 with a sum added (R250). -/
def oddsCell (v : Nat) (sum : Num) : Nat :=
  let v := if v = 255 then 127 else if v = 254 then 253 else v
  match r32 sum with
  | .fin n m e =>
    let w := (expNum n m e).mul (.ofInt v)
    let p := (w.mul (.ofInt 254)).div (w.add (.ofInt (254 - v : Nat)))
    min 253 (max 1 (match p with
      | .fin _ m e => (Num.toInt false m e).toNat
      | _ => 1))
  | .inf n => if n then 1 else 253
  | .nan => 1

/-- A cell after the scan pass: each return in it adds LO_HIT and each ray that crosses it on the way to its return LO_MISS (R250); a ray
does not cross the cell of its own return (log 13). -/
def scanCell (f : Fusion) (g : Grid) (rays : List (Vec × Vec)) (i j old : Nat) : Nat :=
  let here := fun (r : Vec × Vec) => g.cellOf r.2 = ((i : Int), (j : Int))
  let hits := (rays.filter here).length
  let misses := (rays.filter (fun r => !here r && g.crossed r.1 r.2 i j)).length
  if hits + misses = 0 then old
  else oddsCell old (((f.fp 0x14).mul (.ofInt hits)).add ((f.fp 0x18).mul (.ofInt misses)))

/-- A cell after the footprint pass: inside the footprint of a CONFIRMED hypothesis it is raised to max(1, round(254 × EXISTENCE)) when
it holds less or is unknown (R250); a cell is inside when its centre is (log 13). -/
def footCell (g : Grid) (pose : BitVec 96) (tracks : List Track) (i j v : Nat) : Nat :=
  tracks.foldl (fun v t =>
    if t.life ≠ .confirmed then v
    else
      let r := match (f32 t.exist.toNat).mul (.ofInt 254) with
        | .fin n m e => max 1 (Num.toInt n m e).toNat
        | _ => 1
      let inside := (t.hypA :: t.hypB.toList).any (fun s => (footprint pose s).holds (g.centre i j))
      if inside && (v < r || v = 255) then r else v) v

/-- Distance in mm of the ego pose from the grid's centre along an axis. -/
def offCentre (pose corner : Num) (cells mm : Nat) : Num := (pose.milli.sub corner).sub (Num.ofInt (cells * mm : Nat)).half

/-- Whole cells by which the origin moves along an axis, when the grid is recentred (R250). -/
def cellShift (d : Num) (mm : Nat) : Int := d.floor / (max 1 mm : Nat)

/-- Bytes of the grid after a step, with its new origin: it moves by whole cells once the ego pose lies more than an eighth of the
grid from the centre along either axis (R250). -/
def newGrid (x : Half) (f : Fusion) (tov : Nat) (pose : BitVec 96) (rays : List (Vec × Vec)) (tracks : List Track) :
    List Byte × BitVec 32 × BitVec 32 :=
  let g := f.grid
  let ex := offCentre (poseVec pose).x g.corner.x g.w g.mm
  let ey := offCentre (poseVec pose).y g.corner.y g.h g.mm
  let far := fun (d : Num) (cells : Nat) => (Num.ofInt (cells * g.mm : Nat)).lt (d.abs.mul (.ofInt 8))
  let moves := far ex g.w || far ey g.h
  let dx := if moves then cellShift ex g.mm else 0
  let dy := if moves then cellShift ey g.mm else 0
  let move := fun (o : BitVec 32) (d : Int) =>
    if d = 0 then o else BitVec.ofNat 32 (f32code ((((f32 o.toNat).milli).add (.ofInt (d * g.mm))).div (.ofInt 1000)))
  let ox := move f.originX dx
  let oy := move f.originY dy
  let n := ({ f with originX := ox, originY := oy } : Fusion).grid
  let cells := (List.range (f.gridW * f.gridH)).map (fun k =>
    let i := k % f.gridW
    let j := k / f.gridW
    let oi : Int := (i : Int) + dx
    let oj : Int := (j : Int) + dy
    let old := if 0 ≤ oi && oi < f.gridW && 0 ≤ oj && oj < f.gridH then
        (x.vbyte f.ctx (f.gridVa + 64 + (oj.toNat * f.gridW + oi.toNat))).toNat
      else 255
    BitVec.ofNat 8 (footCell n pose tracks i j (scanCell f n rays i j old)))
  (gridHeader ((f.epoch.toNat + 1) % 2 ^ 64) tov ox oy f.gridW f.gridH f.cellMm ++ cells, ox, oy)

/-! ### FUSE_STEP -/

/-- The checks of the scan descriptor, structure 2 (R236, R256). -/
def scanChecks (x : Half) (c : Cmd) : List Chk :=
  if df c.desc 0x28 64 = 0 then [unusedAt c 0x40 64 false, unusedAt c 0x49 8 false]
  else if !descAddrOk x c 0x28 then [{ bad := true, st := stMalformed, off := 0x28 }]
  else
    let t := operand x c 0x28
    let s2 := 2 * 65536
    let lidar := x.sched.fusion.any (fun f => f.sensorKind (df c.desc 0x49 8) = some 1)
    t.checks x c.ctx s2 false ++
      [{ bad := !lidar, st := stMalformed, off := 0x49 }, { bad := formatCodes.contains t.fmt && t.fmt ≠ 0x14, st := stUnsupported },
       { bad := decide (t.layout ≤ 4) && decide (t.layout ≠ 0), st := stUnsupported }, { bad := t.sparse, st := stUnsupported },
       { bad := t.nd ≠ 2 && t.nd ≠ 0, st := stMalformed, off := s2 + 8 }, { bad := t.e 0 ≠ 4, st := stMalformed, off := s2 + 0x10 },
       { bad := 65536 < t.e 1, st := stLimit, off := s2 + 0x18 }]

/-- The checks of FUSE_STEP (R235 to R238, R256). -/
def fuseStepChecks (x : Half) (c : Cmd) : List Chk :=
  let d := c.desc
  let n := df d 0x48 8
  let tov := df d 0x38 64
  let mal := fun (bad : Bool) (o : Nat) => ({ bad := bad, st := stMalformed, off := o } : Chk)
  let lOk := df d 0x20 64 < vaLimit && df d 0x20 64 % 8 = 0 && x.mapped c.ctx (df d 0x20 64) (8 * min n 32)
  ownerChecks (x.sched.fusion.map (·.ctx)) c ++
  [mal (!lOk) 0x20, dAddr d 0x30, mal (df d 0x30 64 % 64 ≠ 0) 0x30, { bad := n = 0, st := stEmpty },
   { bad := 32 < n, st := stLimit, off := 0x48 }, dRsv d 0x4A 432, mal (!x.writable c.ctx (df d 0x30 64) 196736) (3 * 65536),
   mal (x.sched.fusion.any (fun f => f.tLast.any (fun t => tov ≤ t) || (f.tLast.isSome && x.st + 100000000 < tov))) 0x38,
   mal (x.sched.fusion.any (fun f => !x.writable c.ctx f.gridVa (gridBytes f.gridW f.gridH))) (4 * 65536)] ++ scanChecks x c ++
  (if lOk then
    { bad := 8192 < ((oLists x c).map (·.count)).sum, st := stLimit, off := 0x48 } ::
    (oLists x c).flatMap (fun l =>
      let b := (0x100 + l.i) * 65536
      let ok := x.mapped c.ctx l.va 64
      [mal (!ok) b, mal (ok && x.sched.fusion.any (fun f => (f.sensorKind l.sensor).isNone)) b,
       mal (ok && x.vnat c.ctx (l.va + 1) 1 ≠ 0) (b + 1), { bad := ok && 1024 < l.count, st := stLimit, off := b + 2 },
       mal (ok && x.vnat c.ctx (l.va + 0x10) 48 ≠ 0) (b + 0x10),
       mal (ok && l.count ≤ 1024 && !x.mapped c.ctx l.va (64 + 96 * l.count)) b])
   else [])

/-- The work of a step: everything that commits together (R240 to R251, R255). -/
def fuseWork (x : Half) (c : Cmd) (_ : Option Nat) : Work :=
  match x.sched.fusion with
  | none => {}
  | some f =>
    let d := c.desc
    let seed := x.seed
    let tov := df d 0x38 64
    let ls := (oLists x c).map (fun l => (l, f.classify tov l))
    let num := fun (k : LClass) => (ls.filter (fun p => p.2 = k)).map (·.1)
    let folded := ((num .inSeq ++ num .oos).foldl (fun acc l => insertList l acc) [])
    let scan := df d 0x28 64 ≠ 0
    let sd := operand x c 0x28
    let sensor := df d 0x49 8
    let scanBytes := if scan then sd.indices.flatMap (fun i => leBytes 4 (x.elemCode c.ctx sd.base (sd.off i) 32)) else []
    let ego : EgoIn :=
      { statics := (f.tracks.filter (fun t => t.static)).map (·.hypA)
        meas := folded.flatMap (fun l => ((List.range l.count).map (meas x f.ctx l)).filter measOk)
        scan := if scan then some scanBytes else none
        stored := if scan then (f.scans.find? (fun p => p.1 = sensor)).map (·.2) else none }
    let first := f.tLast.isNone
    let measured := ego.measured f
    let extra := if measured then 0 else min 255 (f.extra + 1)
    let quality := if measured then 0 else if !first && (f.quality = 2 || 10 < extra) then 2 else 1
    let (motion, egoV) := ego.motion f tov
    let pose := if first then 0 else poseAfter f.pose motion
    let pr := fun (s : BitVec 544) (t0 t1 : Nat) =>
      if t0 = t1 then s else Config.trackPredict s t0 t1 (tov :: f.tovs) (motion :: f.motions)
    let st := folded.foldl (fun st l => foldOne x f pr ((num .oos).contains l) st l)
      ({ ws := f.tracks.map (fun t => { t := t, time := f.tLast.getD tov, old := t.hypB.isSome }), nextId := f.nextId } : FStep)
    let tracks := st.ws.filterMap (fun w => w.finish f pr tov)
    let statics := ego.statics.length
    let point := fun (k : Nat) => (List.range 3).map (fun q => f32 (x.elemCode c.ctx sd.base (sd.off [q, k]) 32))
    let rays := if scan then (List.range (sd.e 1)).filterMap (fun k => scanRay (f.sensor sensor) pose (point k)) else []
    let grid := newGrid x f tov pose rays tracks
    let conflicts := (tracks.filter (fun t => t.hypB.isSome)).length
    let late := ((num .late).map (·.count)).sum
    let oldest := match folded with
      | [] => 0xFFFFFFFF
      | l :: _ => min 0xFFFFFFFF ((tov - l.tc) / 1000)
    let header := pack 1024 [(0, 64, tov), (64, 64, (f.epoch.toNat + 1) % 2 ^ 64), (128, 32, oldest), (160, 16, tracks.length),
      (176, 16, conflicts), (192, 16, satNat 16 st.oosm), (208, 16, satNat 16 late), (224, 16, (num .early).length),
      (240, 16, (num .rep).length), (256, 16, satNat 16 st.refused), (272, 16, satNat 16 st.invalid), (288, 8, quality),
      (304, 16, satNat 16 statics), (320, 192, motion.toNat), (512, 64, egoV.toNat), (576, 96, pose.toNat)]
    let out := leBytes 128 header.toNat ++ tracks.flatMap (objectRecord f seed tov st.ws)
    { inst := 0x40, writes := placeBytes (df d 0x30 64) out ++ placeBytes f.gridVa grid.1
      reads := [(df d 0x20 64, 8 * ls.length), (f.gridVa, gridBytes f.gridW f.gridH)] ++
        ls.map (fun p => (p.1.va, 64 + 96 * p.1.count)) ++ (if scan then sd.reads x c.ctx else [])
      outs := [(df d 0x30 64, 196736)], foot := out.length + grid.1.length
      det0 := Config.freeNat seed 32 % 2 ^ 32 + tracks.length % 2 ^ 16 * 2 ^ 32 + st.folded % 2 ^ 16 * 2 ^ 48
      det1 := satNat 16 late * 65536 + satNat 16 conflicts
      eff := .fuse { f with
        tLast := some tov, tracks := tracks, nextId := st.nextId
        folded := ((folded.map (fun l => (l.sensor, l.seq))) :: f.folded).take 32, tovs := (tov :: f.tovs).take 32
        motions := (motion :: f.motions).take 32
        pose := pose, egoV := egoV, quality := quality, extra := extra
        scans := if scan then (sensor, scanBytes) :: f.scans.filter (fun p => p.1 ≠ sensor) else f.scans
        epoch := f.epoch + 1, originX := grid.2.1, originY := grid.2.2 } }

/-- An uncorrectable block among the grid's cells that a step finds at its start makes the part rewrite it as unknown; the step ends
with ST_DATA_LOST (R253). -/
def Half.mendGrid (before x : Half) (n : Nat) : Half :=
  match before.cmd n, before.sched.fusion with
  | some c, some f =>
    if (x.cmd n).isSome || dUnit c.desc ≠ 6 || (worst (before.commonChecks c ++ fuseStepChecks before c)).isSome then x
    else match before.firstBad f.ctx [(f.gridVa + 64, f.gridW * f.gridH)] with
      | some va => x.commitBytes f.ctx (placeBytes va (List.replicate 64 255))
      | none => x
  | _, _ => x

/-- FUSE_STEP (R241). -/
def execFuseStep (h : HalfId) (cmd : Nat) (s : State) : Host.Outcome State Fault Refusal :=
  .next (s.mod h (fun x => Half.mendGrid x (x.start cmd 6 0x10 (fun _ _ => true) fuseStepChecks fuseWork) cmd))

end Sys2Proof.Machine
end

