-- ==== Sys2Proof/Machine/Search.lean ====
section
/-! DEFINITION. The planner's search: trajectories, swept boxes and what counts as a collision, costs, the tree and its queue, repair,
and the minimum-risk family (spec/10_motion_planning.md R264 to R275). What no rule gives (samples, steering, refinement, route lengths,
clearances) are functions of their inputs that nothing evaluates (log 13). -/

namespace Sys2Proof.Machine

/-- A field of the parameter block copy. -/
def Plan.p (p : Plan) (off w : Nat) : Nat := fld p.param (8 * off) w

/-- An FP32 field of the parameter block copy. -/
def Plan.fp (p : Plan) (off : Nat) : Num := f32 (p.p off 32)

/-- SLICE_MS in µs. -/
def Plan.sliceUs (p : Plan) : Nat := p.p 0x3E 16 * 1000

/-- HORIZON_MS in µs. -/
def Plan.horizonUs (p : Plan) : Nat := p.p 0x3C 16 * 1000

/-- Slices of the horizon. -/
def Plan.slices (p : Plan) : Nat := p.p 0x3C 16 / max 1 (p.p 0x3E 16)

/-! ### Points and trajectories (Table — Plan point) -/

/-- A plan point. -/
structure PPoint where
  /-- T_US. -/
  us : Nat
  /-- Position. -/
  at' : Vec
  /-- Heading. -/
  yaw : Num
  /-- Speed. -/
  v : Num
  /-- Acceleration. -/
  a : Num
  /-- Curvature. -/
  k : Num
  deriving DecidableEq, Repr

/-- The point of a record. -/
def pointOf (c : BitVec 256) : PPoint :=
  let w := fun i => f32 (fld c (32 * i) 32)
  { us := fld c 0 32, at' := ⟨w 1, w 2⟩, yaw := w 3, v := w 4, a := w 5, k := w 6 }

/-- The record of a point. -/
def PPoint.code (p : PPoint) : BitVec 256 :=
  pack 256 [(0, 32, p.us), (32, 32, f32code p.at'.x), (64, 32, f32code p.at'.y), (96, 32, f32code p.yaw), (128, 32, f32code p.v),
    (160, 32, f32code p.a), (192, 32, f32code p.k)]

/-- Position and heading after a way along the point's arc. -/
def PPoint.along (p : PPoint) (way : Num) : Vec × Num :=
  let yaw := p.yaw.add (p.k.mul way)
  if p.k.isZero then (p.at'.add ⟨p.yaw.cos.mul way, p.yaw.sin.mul way⟩, yaw)
  else (p.at'.add ⟨(yaw.sin.sub p.yaw.sin).div p.k, (p.yaw.cos.sub yaw.cos).div p.k⟩, yaw)

/-- Way and speed after a time in µs at constant acceleration; braking ends at rest. -/
def PPoint.run (p : PPoint) (us : Nat) : Num × Num :=
  let t := (Num.ofInt us).div (.ofInt 1000000)
  let v := p.v.add (p.a.mul t)
  if v.lt .zero then (((p.v.mul p.v).div p.a.neg).half, .zero)
  else ((p.v.mul t).add ((p.a.mul (t.mul t)).half), v)

/-- The point after a time in µs at constant curvature and acceleration, in FP32. -/
def PPoint.after (p : PPoint) (us : Nat) : PPoint :=
  let (way, v) := p.run us
  let (q, yaw) := p.along way
  { p with us := p.us + us, at' := ⟨r32 q.x, r32 q.y⟩, yaw := r32 yaw, v := r32 v }

/-- The trajectory of points spaced `dt` µs apart, at a time in µs after the first; it goes on from the last point. -/
def pointAt (pts : List PPoint) (dt us : Nat) : PPoint :=
  let i := min (us / max 1 dt) (pts.length - 1)
  match pts[i]? with
  | some p => p.after (us - i * dt)
  | none => pointOf 0

/-- The trajectory of primitives of `dur` µs each from a point, at a time in µs; after the last it holds its state at rest, or goes on
without acceleration. -/
def branchAt (dur : Nat) : PPoint → List (BitVec 64) → Nat → PPoint
  | p, [], us => ({ p with a := .zero } : PPoint).after us
  | p, e :: es, us =>
    let q : PPoint := { p with a := f32 (fld e 0 32), k := f32 (fld e 32 32) }
    if us ≤ dur then q.after us else branchAt dur (q.after dur) es (us - dur)

/-! ### The world at a working epoch (R263, R266) -/

/-- What the engine reads: the grid with its cells, the fused ego pose, and the avoided hypotheses with whether each is STATIC. -/
structure World where
  /-- The session. -/
  p : Plan
  /-- The grid. -/
  grid : Grid
  /-- Value of a cell by its number in raster order. -/
  cell : Nat → Nat
  /-- The ego pose at TOV. -/
  pose : BitVec 96
  /-- EGO_VX and EGO_YAW_RATE. -/
  ego : BitVec 64
  /-- Time from TOV to T0 in µs. -/
  lead : Nat
  /-- Avoided hypotheses. -/
  objs : List (BitVec 544 × Bool)
  /-- Route points. -/
  route : List (BitVec 128)

/-- The avoided hypotheses of object record i of a fused output (R266): a CONFIRMED or COASTING track, or a TENTATIVE one with enough
EXISTENCE; both hypotheses of a conflicted one. -/
def avoidedOf (x : Half) (p : Plan) (ctx va i : Nat) : List (BitVec 544 × Bool) :=
  let r : BitVec 1536 := BitVec.ofNat 1536 (x.vnat ctx (va + 128 + 192 * i) 192)
  let life := fld r 48 2
  let static := bitAt r 52
  if life = 1 || life = 2 || (life = 0 && geNum (f32 (fld r 160 32)) (p.fp 0x2C)) then
    (r.extractLsb' 192 544, static) :: (if fld r 32 16 = stConflict then [(r.extractLsb' 768 544, static)] else [])
  else []

/-- What the engine reads for a step (R263). -/
def Half.world (x : Half) (p : Plan) (c : Cmd) : World :=
  let fused := df c.desc 0x20 64
  let g := fun off n => x.vnat p.ctx (p.gridVa + off) n
  let w := g 0x18 2
  { p := p
    grid := { corner := ⟨(f32 (g 0x10 4)).milli, (f32 (g 0x14 4)).milli⟩, w := w, h := g 0x1A 2, mm := g 0x1C 2 }
    cell := fun k => (x.vbyte p.ctx (p.gridVa + 64 + k)).toNat
    pose := BitVec.ofNat 96 (x.vnat c.ctx (fused + 0x48) 12), ego := BitVec.ofNat 64 (x.vnat c.ctx (fused + 0x40) 8)
    lead := (df c.desc 0x38 64 - x.vnat c.ctx fused 8) / 1000
    objs := (List.range (x.vnat c.ctx (fused + 0x14) 2)).flatMap (avoidedOf x p c.ctx fused)
    route := (List.range (df c.desc 0x44 16)).map (fun i => BitVec.ofNat 128 (x.vnat c.ctx (df c.desc 0x28 64 + 16 * i) 16)) }

/-- The displacement of a state block over a time under a constant turn rate and velocity (R266). -/
def turnRate (s : BitVec 544) (t : Num) : Vec :=
  let v : Vec := ⟨stNum s 3, stNum s 4⟩
  let w := stNum s 6
  if w.isZero then ⟨v.x.mul t, v.y.mul t⟩
  else
    let d := (⟨(w.mul t).sin, Num.one.sub (w.mul t).cos⟩ : Vec).turn v
    ⟨d.x.div w, d.y.div w⟩

/-- The predicted box of a hypothesis a time in µs after TOV, in the odometry frame in mm: its footprint, moved unless STATIC, and
enlarged along each axis by SIGMA_K standard deviations (R266). -/
def World.box (k : World) (o : BitVec 544 × Bool) (us : Nat) : OBox :=
  let t := if o.2 then .zero else (Num.ofInt us).div (.ofInt 1000000)
  let pos := (⟨stNum o.1 0, stNum o.1 1⟩ : Vec).add (turnRate o.1 t)
  let c := (poseVec k.pose).add ((heading (poseYaw k.pose)).turn pos)
  let grow := fun axis => (k.p.fp 0x28).mul (f32 (Config.spread o.1 us axis % 2 ^ 32))
  { at' := ⟨c.x.milli, c.y.milli⟩, u := heading (((poseYaw k.pose).add (stNum o.1 5)).add ((stNum o.1 6).mul t))
    hl := ((stNum o.1 7).half.add (grow 0)).milli, hw := ((stNum o.1 8).half.add (grow 1)).milli }

/-- A cell that blocks: at least OCC_THRESH, or unknown unless UNKNOWN_FREE, and not inside the TOV footprint of an avoided track that is
not STATIC (R265, R266). -/
def World.blocked (k : World) (i j : Nat) : Bool :=
  let v := k.cell (j * k.grid.w + i)
  (if v = 255 then k.p.p 0x43 8 % 2 = 0 else k.p.p 0x40 8 ≤ v) &&
    !(k.objs.any (fun o => !o.2 && (footprint k.pose o.1).holds (k.grid.centre i j)))

/-- The cells of the grid that block, as boxes. -/
def World.walls (k : World) : List OBox :=
  (List.range k.grid.h).flatMap (fun j => ((List.range k.grid.w).filter (fun i => k.blocked i j)).map (fun i => k.grid.cell i j))

/-- A point lies outside the grid. -/
def World.outside (k : World) (q : Vec) : Bool :=
  let d := q.sub k.grid.corner
  d.x.lt .zero || d.y.lt .zero || (Num.ofInt (k.grid.w * k.grid.mm : Nat)).lt d.x || (Num.ofInt (k.grid.h * k.grid.mm : Nat)).lt d.y

/-! ### Swept boxes and collisions (R265) -/

/-- The ego footprint at a point, enlarged by MARGIN on every side, in mm. -/
def Plan.foot (p : Plan) (q : PPoint) : OBox :=
  let u := heading q.yaw
  let c := q.at'.add (u.turn ⟨(p.fp 0).half.sub (p.fp 8), .zero⟩)
  { at' := ⟨c.x.milli, c.y.milli⟩, u := u, hl := ((p.fp 0).half.add (p.fp 0x0C)).milli, hw := ((p.fp 4).half.add (p.fp 0x0C)).milli }

/-- The swept box of slice n of a trajectory: the smallest along the heading at the slice's midpoint that encloses the footprint at
both ends. -/
def Plan.swept (p : Plan) (f : Nat → PPoint) (n : Nat) : OBox :=
  boxAround (heading (f (n * p.sliceUs + p.sliceUs / 2)).yaw)
    ((p.foot (f (n * p.sliceUs))).corners ++ (p.foot (f ((n + 1) * p.sliceUs))).corners)

/-- The boxes of the avoided hypotheses during slice n: those of its midpoint (log 13). -/
def World.boxesIn (k : World) (n : Nat) : List OBox :=
  k.objs.map (fun o => k.box o (k.lead + n * k.p.sliceUs + k.p.sliceUs / 2))

/-- Slice n of a trajectory collides: with the grid, outside of which every cell is unknown, or with an object. -/
def World.hits (k : World) (f : Nat → PPoint) (n : Nat) : Bool :=
  let b := k.p.swept f n
  (k.p.p 0x43 8 % 2 = 0 && b.corners.any k.outside) || k.walls.any b.touches || (k.boxesIn n).any b.touches

/-- The first of some slices of a trajectory that collides. -/
def World.firstHit (k : World) (f : Nat → PPoint) (lo n : Nat) : Option Nat := ((List.range n).map (lo + ·)).find? (k.hits f)

/-! ### Costs (R268) -/

/-- The FP32 codes of a box's fields, in m and rad-free form. -/
def OBox.codes (b : OBox) : List Nat := [b.at'.x, b.at'.y, b.u.x, b.u.y, b.hl, b.hw].map f32code

/-- Clearance of slice n of a trajectory. -/
def World.clear (k : World) (f : Nat → PPoint) (n : Nat) : Num :=
  f32 (Config.clearance (k.p.swept f n).codes ((k.walls ++ k.boxesIn n).map OBox.codes) % 2 ^ 32)

/-- The comfort and clearance terms of slice n, taken at its midpoint. -/
def World.sliceCost (k : World) (f : Nat → PPoint) (n : Nat) : Num :=
  let q := f (n * k.p.sliceUs + k.p.sliceUs / 2)
  let lat := (q.v.mul q.v).mul q.k
  let comfort := ((q.a.mul q.a).add (lat.mul lat)).mul (.ofInt (k.p.p 0x3E 16))
  let near := Num.one.div ((k.clear f n).max (Num.one.div (.ofInt 10)))
  ((k.p.fp 0x34).mul comfort).add ((k.p.fp 0x38).mul near)

/-- The terms of some slices. -/
def World.cost (k : World) (f : Nat → PPoint) (lo n : Nat) : Num :=
  ((List.range n).map (fun i => k.sliceCost f (lo + i))).foldl Num.add .zero

/-- Route length beyond a point. -/
def World.left (k : World) (q : PPoint) : Num := f32 (Config.routeLeft k.route (f32code q.at'.x) (f32code q.at'.y) % 2 ^ 32)

/-- The key of a point with a cost-to-come: W_PROGRESS times the route length that it cannot reach within the remaining horizon at V_MAX
is added. -/
def World.key (k : World) (cost : Num) (q : PPoint) : BitVec 32 :=
  let rest := ((k.p.fp 0x10).mul (.ofInt (k.p.horizonUs - q.us : Nat))).div (.ofInt 1000000)
  BitVec.ofNat 32 (f32code (cost.add ((k.p.fp 0x30).mul (((k.left q).sub rest).max .zero))))

/-- The cost of a whole trajectory. -/
def World.total (k : World) (f : Nat → PPoint) : BitVec 32 :=
  BitVec.ofNat 32 (f32code ((k.cost f 0 k.p.slices).add ((k.p.fp 0x30).mul (k.left (f k.p.horizonUs)))))

/-- The lesser of two FP32 codes. -/
def codeLt (a b : BitVec 32) : Bool := (f32 a.toNat).lt (f32 b.toNat)

/-- A point is complete: it reaches the horizon, or rests within 1 m of a last route point whose V_LIMIT is zero. -/
def World.complete (k : World) (q : PPoint) : Bool :=
  k.p.horizonUs ≤ q.us || (q.v.isZero && k.route.getLast?.any (fun r =>
    let d := q.at'.sub ⟨f32 (fld r 0 32), f32 (fld r 32 32)⟩
    (f32 (fld r 64 32)).isZero && geNum .one (d.dot d)))

/-! ### The tree and its queue (R267 to R271) -/

/-- The search as it stands. -/
structure Search where
  /-- Nodes, parents before their children. -/
  tree : List PlanNode
  /-- Queue, oldest entry first. -/
  queue : List (BitVec 32 × Nat)
  /-- Counts and candidates. -/
  run : PlanRun

/-- The node with a number. -/
def Search.node (s : Search) (id : Nat) : Option PlanNode := s.tree.find? (fun n => n.id = id)

/-- The branch to a node, from the root on; the first argument bounds its length. -/
def branchOf (tree : List PlanNode) : Nat → Nat → List PlanNode
  | 0, _ => []
  | d + 1, id => match tree.find? (fun n => n.id = id) with
    | none => []
    | some n => (n.parent.map (branchOf tree d)).getD [] ++ [n]

/-- The branch to a node of the search. -/
def Search.branch (s : Search) (id : Nat) : List PlanNode := branchOf s.tree s.tree.length id

/-- The primitives of a branch: each node below the root carries the acceleration and curvature of its edge. -/
def Search.edges (s : Search) (id : Nat) : List (BitVec 64) := ((s.branch id).drop 1).map (fun n => n.state.extractLsb' 160 64)

/-- Duration of a primitive: 10 slices. -/
def Plan.edgeUs (p : Plan) : Nat := 10 * p.sliceUs

/-- The root's point. -/
def Search.rootPoint (s : Search) : PPoint := pointOf ((s.tree.head?.map (·.state)).getD s.run.root)

/-- The trajectory of primitives from the root. -/
def Search.path (s : Search) (p : Plan) (edges : List (BitVec 64)) : Nat → PPoint := branchAt p.edgeUs s.rootPoint edges

/-- A node's way within its edge's limits: KAPPA_MAX, A_MAX, V_MAX, the route's V_LIMIT and LAT_ACC_MAX. -/
def World.within (k : World) (q r : PPoint) : Bool :=
  let lat := fun (o : PPoint) => geNum (k.p.fp 0x24) ((o.v.mul o.v).mul o.k.abs)
  geNum (k.p.fp 0x20) q.k.abs && geNum (k.p.fp 0x14) q.a.abs && geNum (k.p.fp 0x10) r.v && lat q && lat r &&
    geNum (f32 (Config.routeLimit k.route (f32code r.at'.x) (f32code r.at'.y) % 2 ^ 32)) r.v

/-- A trajectory of primitives keeps within the limits. -/
def World.pathOk (k : World) : PPoint → List (BitVec 64) → Bool
  | _, [] => true
  | p, e :: es =>
    let q : PPoint := { p with a := f32 (fld e 0 32), k := f32 (fld e 32 32) }
    let r := q.after k.p.edgeUs
    k.within q r && k.pathOk r es

/-- The lowest entry, the older among equal keys, and the rest of the queue. -/
def popMin (q : List (BitVec 32 × Nat)) : Option ((BitVec 32 × Nat) × List (BitVec 32 × Nat)) :=
  (q.find? (fun e => q.all (fun o => !codeLt o.1 e.1))).map (fun e => (e, q.erase e))

/-- Entries of the queue (Table — Planner store partition). -/
def queueCap : Nat := 65536

/-- Nodes of the tree. -/
def treeCap : Nat := 131072

/-- Pushes an entry; on a full queue the worse of it and the worst entry held is dropped and counted (R270). -/
def Search.push (s : Search) (e : BitVec 32 × Nat) : Search :=
  if s.queue.length < queueCap then { s with queue := s.queue ++ [e] }
  else
    let t := { s with run := { s.run with drops := s.run.drops + 1 } }
    match s.queue.reverse.find? (fun w => s.queue.all (fun o => !codeLt w.1 o.1)) with
    | some w => if codeLt e.1 w.1 then { t with queue := s.queue.erase w ++ [e] } else t
    | none => t

/-- Nodes on the branches of the candidates. -/
def Search.kept (s : Search) : List Nat := s.run.cands.flatMap (fun c => (s.branch c.node).map (·.id))

/-- Room for one more node: in a full tree the leaf with the worst key that lies on no candidate's branch is freed and counted; none
where there is no such leaf (R271). -/
def Search.room (s : Search) : Option Search :=
  if s.tree.length < treeCap then some s
  else
    let kept := s.kept
    let leaves := s.tree.filter (fun n => !(s.tree.any (fun m => m.parent = some n.id)) && n.id ∉ kept)
    (leaves.find? (fun n => leaves.all (fun m => !codeLt n.key m.key))).map (fun n =>
      { s with tree := s.tree.filter (fun m => m.id ≠ n.id), queue := s.queue.filter (fun e => e.2 ≠ n.id)
               run := { s.run with pruned := s.run.pruned + 1 } })

/-- The cheapest candidate, the older among equals. -/
def bestCand (l : List PlanCand) : Option PlanCand := l.find? (fun c => l.all (fun d => !codeLt d.cost c.cost))

/-- The candidates in the order of their costs. -/
def candOrder : Nat → List PlanCand → List PlanCand
  | 0, l => l
  | n + 1, l => match bestCand l with
    | none => []
    | some c => c :: candOrder n (l.erase c)

/-- Refines one candidate: the result replaces it when it keeps within the limits and no swept box of it collides (R268). -/
def Search.refineOne (s : Search) (k : World) (c : PlanCand) : PlanCand :=
  let e := Config.refine k.p.param k.route s.rootPoint.code c.edges (k.p.p 0x41 8)
  let f := s.path k.p e
  if c.refined then c
  else if k.pathOk s.rootPoint e && (k.firstHit f 0 k.p.slices).isNone then { c with edges := e, cost := k.total f, refined := true }
  else { c with refined := true }

/-- The best candidate has changed: the OPT_BRANCHES best are refined (R267, R268). -/
def Search.refineBest (s : Search) (k : World) : Search :=
  let best := (candOrder s.run.cands.length s.run.cands).take (k.p.p 0x42 8)
  { s with run := { s.run with cands := s.run.cands.map (fun c => if best.contains c then s.refineOne k c else c) } }

/-- The primitive from a point toward a sample: a route point ahead in GOAL_BIAS of a hundred draws, else a reachable state; its
curvature and acceleration are limited to KAPPA_MAX and A_MAX (R267, R269). -/
def World.primitive (k : World) (q : PPoint) (tries : Nat) : PPoint :=
  let d := Config.planDraw k.p.seed k.p.planSeq tries
  let target := if d % 100 < k.p.p 0x44 8 then Config.routeAhead k.route q.code (d / 100)
    else Config.reachable k.p.param q.code (d / 100)
  let (a, c) := Config.steer k.p.param q.code target
  let lim := fun (v m : Num) => (v.min m).max m.neg
  { q with a := lim (f32 (a % 2 ^ 32)) (k.p.fp 0x14), k := lim (f32 (c % 2 ^ 32)) (k.p.fp 0x20) }

/-- One extension attempt: the lowest entry leaves the queue; its primitive, within the limits and free of collisions against W, adds a
child, which enters the queue and, if complete, becomes a candidate (R267, R268, R271). -/
def Search.attempt (s : Search) (k : World) : Search :=
  match popMin s.queue with
  | none => s
  | some (e, rest) =>
    let s := { s with queue := rest, run := { s.run with tries := s.run.tries + 1 } }
    match s.node e.2 with
    | none => s
    | some n =>
      let q := k.primitive (pointOf n.state) (s.run.tries - 1)
      let r := q.after k.p.edgeUs
      let f := fun us => q.after (us - q.us)
      let lo := q.us / max 1 k.p.sliceUs
      if k.complete q || !k.within q r || (k.firstHit f lo 10).isSome then s
      else match s.room with
        | none => s
        | some s =>
          let cost := r32 ((f32 n.cost.toNat).add (k.cost f lo 10))
          let id := (lowestFree (s.tree.map (·.id)) 0 (treeCap + 1)).getD treeCap
          let m : PlanNode := { id := id, parent := some n.id, state := r.code, cost := BitVec.ofNat 32 (f32code cost)
                                key := k.key cost r, epoch := s.run.w }
          let t := ({ s with tree := s.tree ++ [m], run := { s.run with grown := s.run.grown + 1 } } : Search).push (m.key, id)
          if !k.complete r then t
          else
            let c : PlanCand := { node := id, edges := t.edges id, cost := k.total (t.path k.p (t.edges id)) }
            let u := { t with run := { t.run with cands := t.run.cands ++ [c] } }
            if bestCand u.run.cands = bestCand t.run.cands then u else u.refineBest k

/-- The search stops by itself: the queue is empty, or no entry is below the best candidate's cost (R272). -/
def Search.over (s : Search) : Bool :=
  s.queue = [] || (bestCand s.run.cands).any (fun c => s.queue.all (fun e => !codeLt e.1 c.cost))

/-- The search goes on until it stops by itself or by time. A popped entry is replaced by at most one that lies ten slices deeper, and a
complete node is not extended, so the first argument, taken large enough, does not end it (R267, R272). -/
def Search.go (k : World) (halt : Nat → Bool → Bool) : Nat → Search → Search
  | 0, s => s
  | n + 1, s => if s.over || halt s.run.tries (s.run.cands ≠ []) then s else Search.go k halt n (s.attempt k)

/-- Attempts that no search exceeds. -/
def searchFuel : Nat := queueCap * 64

/-! ### Root, re-rooting and repair (R264, R273) -/

/-- The fused ego pose propagated over a time in µs with EGO_VX and EGO_YAW_RATE (R264). -/
def World.egoAt (k : World) (us : Nat) : PPoint :=
  let v := f32 (fld k.ego 0 32)
  let w := f32 (fld k.ego 32 32)
  let q : PPoint := { us := 0, at' := poseVec k.pose, yaw := poseYaw k.pose, v := v, a := .zero, k := if v.isZero then .zero else r32 (w.div v) }
  { q.after us with us := 0 }

/-- Two headings lie within 0.1 rad of each other, also across a full turn. -/
def yawNear (a b : Num) : Bool :=
  let turn := f32 0x40C90FDB
  [Num.zero, turn, turn.neg].any (fun t => geNum .one ((((a.sub b).add t).abs).mul (.ofInt 10)))

/-- The committed plan evaluated at T0, where it reaches T0 and the propagated fused pose lies within 0.5 m and 0.1 rad of it (R264). -/
def World.onPlan (k : World) (t0 : Nat) : Option PPoint :=
  let p := k.p
  let dt := p.copyDt * 1000
  let us := (t0 - p.copyT0) / 1000
  let q := { pointAt (p.copy.map pointOf) dt us with us := 0 }
  let e := k.egoAt k.lead
  let d := q.at'.sub e.at'
  if p.copy ≠ [] && p.copyT0 ≤ t0 && us ≤ (p.copy.length - 1) * dt && geNum .one ((d.dot d).mul (.ofInt 4)) && yawNear q.yaw e.yaw then
    some q
  else none

/-- The node nearest a point, the first among equals. -/
def nearestNode (tree : List PlanNode) (q : PPoint) : Option PlanNode :=
  let d := fun (n : PlanNode) => let e := (pointOf n.state).at'.sub q.at'; e.dot e
  tree.find? (fun n => tree.all (fun m => !(d m).lt (d n)))

/-- A node as it stands after re-rooting: its time counts from the new root. -/
def shiftNode (us : Nat) (n : PlanNode) : PlanNode :=
  { n with state := pack 256 [(0, 32, fld n.state 0 32 - us), (32, 224, fld n.state 32 224)] }

/-- The subtree of a node, it first; parents stand before their children. -/
def subtree (tree : List PlanNode) (root : Nat) : List PlanNode :=
  tree.foldl (fun (acc : List PlanNode) n =>
    if n.id = root then acc ++ [{ n with parent := none }]
    else if n.parent.any (fun q => acc.any (fun a => a.id = q)) then acc ++ [n] else acc) []

/-- Rechecks the retained edges against W, top-down: a child of a kept node whose edge is free of collisions is kept, stamped with W and
given its cost and key again (R273). -/
def recheck (k : World) (w : BitVec 64) (tree : List PlanNode) : List PlanNode :=
  tree.foldl (fun (acc : List PlanNode) n =>
    match n.parent.bind (fun q => acc.find? (fun a => a.id = q)) with
    | some a =>
      let r := pointOf n.state
      let q : PPoint := { pointOf a.state with a := r.a, k := r.k }
      let f := fun us => q.after (us - q.us)
      let lo := q.us / max 1 k.p.sliceUs
      if (k.firstHit f lo 10).isSome then acc
      else
        let cost := r32 ((f32 a.cost.toNat).add (k.cost f lo 10))
        acc ++ [{ n with cost := BitVec.ofNat 32 (f32code cost), key := k.key cost r, epoch := w }]
    | none =>
      if n.parent.isNone then acc ++ [{ n with cost := 0, key := k.key .zero (pointOf n.state), epoch := w }] else acc) []

/-- Sorted insertion of a queue entry, best key first. -/
def insertEntry (e : BitVec 32 × Nat) : List (BitVec 32 × Nat) → List (BitVec 32 × Nat)
  | [] => [e]
  | f :: l => if codeLt e.1 f.1 then e :: f :: l else f :: insertEntry e l

/-- The queue rebuilt from a tree's leaves and from the nodes that lost a child, best key first, up to its capacity (R270, R273). -/
def rebuildQueue (before tree : List PlanNode) : List (BitVec 32 × Nat) :=
  let has := fun (l : List PlanNode) (id : Nat) => l.any (fun n => n.id = id)
  let lost := fun (id : Nat) => before.any (fun n => n.parent = some id && !has tree n.id)
  let l := tree.filter (fun n => !(tree.any (fun m => m.parent = some n.id)) || lost n.id)
  (l.foldl (fun q n => insertEntry (n.key, n.id) q) []).take queueCap

/-- A step's search before its first attempt: the root state, the retained tree re-rooted and repaired or a fresh one, and the queue
(R264, R273). -/
def World.begin (k : World) (w : BitVec 64) (t0 : Nat) : Search :=
  let on := k.onPlan t0
  let root := on.getD (k.egoAt k.lead)
  let fresh : PlanNode := { id := 0, parent := none, state := root.code, key := k.key .zero root, epoch := w }
  let run : PlanRun := { w := w, root := root.code, preds := k.objs.map (·.1) }
  match on.bind (nearestNode k.p.tree) with
  | some n =>
    let desc := (subtree k.p.tree n.id).map (shiftNode (fld n.state 0 32))
    let kept := recheck k w desc
    { tree := kept, queue := rebuildQueue desc kept, run := { run with repaired := true, freed := desc.length - kept.length } }
  | none => { tree := [fresh], queue := [(fresh.key, 0)], run := run }

/-! ### The minimum-risk family (R275) -/

/-- The point of a path after a way: the path's points stand `dt` µs apart. -/
def pathAfter (dt : Nat) : List PPoint → Num → PPoint
  | [], _ => pointOf 0
  | [p], way => let q := p.along way; { p with at' := q.1, yaw := q.2 }
  | p :: rest, way =>
    let len := (p.run dt).1
    if way.lt len then let q := p.along way; { p with at' := q.1, yaw := q.2 } else pathAfter dt rest (way.sub len)

/-- Member i of the family of a path: the path's geometry from its first point, decelerating at DECEL_MIN + i × (DECEL_MAX − DECEL_MIN) / 15
until rest, then holding; n points `step` µs apart. -/
def Plan.member (p : Plan) (path : List PPoint) (dt n step i : Nat) : List (BitVec 256) :=
  let lo := p.fp 0x18
  let dec := lo.add (((p.fp 0x1C).sub lo).mul (.ofInt i) |>.div (.ofInt 15))
  let first : PPoint := { (path.head?.getD (pointOf 0)) with a := dec.neg }
  (List.range n).map (fun j =>
    let (way, v) := first.run (j * step)
    let q := pathAfter dt path way
    ({ q with us := j * step, v := v, a := if v.isZero then .zero else dec.neg } : PPoint).code)

/-- The family of 16 members of a path. -/
def Plan.newFamily (p : Plan) (path : List PPoint) (dt n step : Nat) : List (List (BitVec 256)) :=
  (List.range 16).map (p.member path dt n step)

end Sys2Proof.Machine
end

