-- ==== Sys2Proof/Machine/Plan.lean ====
section
/-! DEFINITION. Unit 0x07, motion planning (spec/10_motion_planning.md R258 to R285): the session, the checks, the start and the commit of
a step, the fallback and the plan record; and COMMAND_COMMIT. -/

namespace Sys2Proof.Machine

/-! ### PLAN_OPEN and PLAN_CLOSE (R259, R260) -/

/-- The checks of the parameter block, structure 1 (R259, R260). -/
def planParamChecks (r : BitVec 1024) : List Chk :=
  let s1 := 65536
  let g := fun off w => fld r (8 * off) w
  let v := fun off => f32 (g off 32)
  let mal := fun (bad : Bool) (o : Nat) => ({ bad := bad, st := stMalformed, off := s1 + o } : Chk)
  let above := fun off => mal (!(Num.zero.lt (v off))) off
  let within := fun off (hi : Num) => mal (!(geNum (v off) .zero && geNum hi (v off))) off
  let atLeast := fun off => mal (!(geNum (v off) .zero)) off
  [above 0x00, above 0x04, within 0x08 (v 0x00), within 0x0C (.ofInt 2), above 0x10, above 0x14, above 0x18,
   mal (!(geNum (v 0x1C) (v 0x18))) 0x1C, above 0x20, above 0x24, within 0x28 (.ofInt 5), within 0x2C (.ofInt 1), atLeast 0x30,
   atLeast 0x34, atLeast 0x38, mal (g 0x3C 16 < 1000 || 10000 < g 0x3C 16) 0x3C,
   mal (g 0x3E 16 ≠ 0 && g 0x3C 16 % (max 1 (g 0x3E 16)) ≠ 0) 0x3C, mal (g 0x3E 16 < 20 || 500 < g 0x3E 16) 0x3E,
   mal (g 0x40 8 < 1 || 254 < g 0x40 8) 0x40, { bad := g 0x41 8 = 0 || g 0x42 8 = 0, st := stEmpty }, mal (8 < g 0x42 8) 0x42,
   mal (g 0x43 8 / 2 ≠ 0) 0x43, mal (100 < g 0x44 8) 0x44, mal (g 0x45 472 ≠ 0) 0x45]

/-- The checks of PLAN_OPEN. -/
def planOpenChecks (x : Half) (c : Cmd) : List Chk :=
  let d := c.desc
  let pv := df d 0x20 64
  let pOk := pv < vaLimit && pv % 64 = 0 && x.mapped c.ctx pv 128
  [{ bad := !pOk, st := stMalformed, off := 0x20 }, dAddr d 0x28, dRsv d 0x34 608,
   { bad := x.sched.plan.isSome || x.opening (fun e => match e with
      | .plan _ => true
      | _ => false), st := stBusy, retry := some 10000 }] ++
  (if pOk then planParamChecks (BitVec.ofNat 1024 (x.vnat c.ctx pv 128)) else [])

/-- The session that a PLAN_OPEN asks for (R259). -/
def planSession (x : Half) (c : Cmd) : Plan :=
  { ctx := c.ctx, param := BitVec.ofNat 1024 (x.vnat c.ctx (df c.desc 0x20 64) 128), gridVa := df c.desc 0x28 64
    seed := BitVec.ofNat 32 (df c.desc 0x30 32) }

/-- The work of PLAN_OPEN. -/
def planOpenWork (x : Half) (c : Cmd) (_ : Option Nat) : Work :=
  { inst := 0x50, reads := [(df c.desc 0x20 64, 128)], det0 := Config.freeNat x.seed 32 % 2 ^ 32, atOnce := true
    eff := .plan (planSession x c) }

/-- PLAN_OPEN (R259). -/
def execPlanOpen (h : HalfId) (cmd : Nat) (s : State) : Host.Outcome State Fault Refusal :=
  .next (s.mod h (fun x => x.start cmd 7 0x01 (fun _ _ => true) planOpenChecks planOpenWork))

/-- The checks of PLAN_CLOSE. -/
def planCloseChecks (x : Half) (c : Cmd) : List Chk := ownerChecks (x.sched.plan.map (·.ctx)) c ++ [dRsv c.desc 0x20 768]

/-- The work of PLAN_CLOSE. -/
def planCloseWork (x : Half) (_ : Cmd) (_ : Option Nat) : Work :=
  { inst := 0x50, det0 := Config.freeNat x.seed 32 % 2 ^ 32, atOnce := true, eff := .planClose }

/-- PLAN_CLOSE (R258). -/
def execPlanClose (h : HalfId) (cmd : Nat) (s : State) : Host.Outcome State Fault Refusal :=
  .next (s.mod h (fun x => x.start cmd 7 0x02 (fun _ _ => true) planCloseChecks planCloseWork))

/-! ### PLAN_STEP: its start (R261 to R263) -/

/-- POINTS (R279). -/
def planPoints (p : Plan) (c : Cmd) : Nat := p.p 0x3C 16 / max 1 (df c.desc 0x46 16)

/-- Bytes of the grid that the session names, from its header (R249). -/
def planGridBytes (x : Half) (p : Plan) : Nat := gridBytes (x.vnat p.ctx (p.gridVa + 0x18) 2) (x.vnat p.ctx (p.gridVa + 0x1A) 2)

/-- The checks of PLAN_STEP (R261, R262, R284). -/
def planStepChecks (x : Half) (c : Cmd) : List Chk :=
  let d := c.desc
  let fused := df d 0x20 64
  let route := df d 0x28 64
  let n := df d 0x44 16
  let dt := df d 0x46 16
  let t0 := df d 0x38 64
  let mal := fun (bad : Bool) (o : Nat) => ({ bad := bad, st := stMalformed, off := o } : Chk)
  let fOk := x.mapped c.ctx fused 196736
  let rOk := route % 16 = 0 && x.mapped c.ctx route (16 * n)
  let tov := x.vnat c.ctx fused 8
  ownerChecks (x.sched.plan.map (·.ctx)) c ++
  [dAddr d 0x20, dAddr d 0x28, dAddr d 0x30, mal (route % 16 ≠ 0) 0x28, mal (df d 0x30 64 % 64 ≠ 0) 0x30,
   { bad := n = 0, st := stEmpty }, { bad := 1024 < n, st := stLimit, off := 0x44 }, mal (dt < 10 || 100 < dt) 0x46, dRsv d 0x48 448,
   mal (!fOk) (2 * 65536), mal (!x.mapped c.ctx route (16 * n)) (4 * 65536), mal (!x.writable c.ctx (df d 0x30 64) 8352) (5 * 65536),
   mal (x.sched.plan.any (fun p => !(x.mapped c.ctx p.gridVa 64 && x.mapped c.ctx p.gridVa (planGridBytes x p)))) (3 * 65536),
   mal (fOk && (t0 < tov || tov + 100000000 < t0)) 0x38,
   mal (fOk && x.sched.plan.any (fun p => p.lastTov.any (fun t => tov < t))) (2 * 65536),
   { bad := x.sched.plan.any (fun p => 256 * dt < p.p 0x3C 16 && dt ≠ 0), st := stLimit, off := 0x46 },
   { bad := dBudget d ≠ 0 && (dBudget d < 2000 || 100000 < dBudget d), st := stLimit, off := 0x0C }] ++
  (if rOk then (List.range (min n 1024)).flatMap (fun i =>
    [mal (x.vnat c.ctx (route + 16 * i + 12) 4 ≠ 0) (4 * 65536 + 16 * i + 12),
     mal (!geNum (f32 (x.vnat c.ctx (route + 16 * i + 8) 4)) .zero) (4 * 65536 + 16 * i + 8)]) else [])

/-- GRID_EPOCH of the session's grid. -/
def Half.gridEpoch (x : Half) (p : Plan) : Nat := x.vnat p.ctx p.gridVa 8

/-- The work of PLAN_STEP at its start: what it reads and reserves, and the working epoch (R263). -/
def planStepWork (x : Half) (c : Cmd) (_ : Option Nat) : Work :=
  match x.sched.plan with
  | none => {}
  | some p =>
    { inst := 0x50, foot := 8352, outs := [(df c.desc 0x30 64, 8352)], epoch0 := x.gridEpoch p
      reads := [(df c.desc 0x20 64, 196736), (df c.desc 0x28 64, 16 * df c.desc 0x44 16), (p.gridVa, planGridBytes x p)] }

/-- The inputs are consistent: the fused output's GRID_EPOCH is not newer than the grid's (R263). -/
def Half.inputsStable (x : Half) (p : Plan) (c : Cmd) : Bool := x.vnat c.ctx (df c.desc 0x20 64 + 8) 8 ≤ x.gridEpoch p

/-- The search of a step as prepared from what the half holds now (R263, R264, R273). -/
def Half.newSearch (x : Half) (p : Plan) (c : Cmd) : Search :=
  (x.world p c).begin (BitVec.ofNat 64 (x.gridEpoch p)) (df c.desc 0x38 64)

/-- A search as the session holds it between the start and the commit of a step. -/
def Plan.holds (p : Plan) (s : Search) : Plan := { p with tree := s.tree, queue := s.queue, run := some s.run }

/-- A step that has started searches under its first working epoch: the number of attempts until the world moves, or until its commit, is
free, since it is a matter of time (R267, R274, log 13). -/
def Half.beginSearch (before x : Half) (n : Nat) : Half :=
  match before.cmd n, x.cmd n, x.sched.plan with
  | some c0, some c, some p =>
    if c0.st = .waiting && c.st = .running && c.status = stOk && x.inputsStable p c then
      let s := Search.go (x.world p c) (fun tries _ => Config.freeNat x.seed 24 ≤ tries) searchFuel (x.newSearch p c)
      { x.took with sched := { x.sched with plan := some (p.holds s) } }
    else x
  | _, _, _ => x

/-- PLAN_STEP: its start; the record is made at its commit (R263, R274). -/
def execPlanStep (h : HalfId) (cmd : Nat) (s : State) : Host.Outcome State Fault Refusal :=
  .next (s.mod h (fun x => Half.beginSearch x (x.start cmd 7 0x10 (fun _ _ => true) planStepChecks planStepWork) cmd))

/-! ### PLAN_STEP: its commit (R274 to R279) -/

/-- SEARCH_US; 0 selects 12,000 µs (R261). -/
def searchUs (c : Cmd) : Nat := if df c.desc 0x40 32 = 0 then 12000 else df c.desc 0x40 32

/-- BUDGET_US − 1,000 µs have passed since the step started: the search limit is reached (R272). -/
def Half.searchLimit (x : Half) (c : Cmd) : Bool := x.since c.started ((budgetUs c - 1000) * 1000)

/-- The search stops by time: a candidate exists and SEARCH_US has elapsed, or the search limit is reached; after how many attempts is
free (R272). -/
def Half.searchHalt (x : Half) (c : Cmd) (tries : Nat) (have' : Bool) : Bool :=
  (have' && x.since c.started (searchUs c * 1000) && Config.freeNat (x.seed + 1) 24 ≤ tries) ||
    (x.searchLimit c && Config.freeNat (x.seed + 2) 24 ≤ tries)

/-- Rechecks the candidates in cost order against the world as it is: the first that passes is taken; one that collides is discarded and
the node of its branch before the hit is pushed back (R274). -/
def tryCands (k : World) : List PlanCand → Search → Option PlanCand × Search
  | [], s => (none, s)
  | c :: l, s => match k.firstHit (s.path k.p c.edges) 0 k.p.slices with
    | none => (some c, s)
    | some n =>
      let t := { s with run := { s.run with cands := s.run.cands.erase c } }
      match (s.branch c.node)[n / 10]? with
      | some m => tryCands k l (t.push (m.key, m.id))
      | none => tryCands k l t

/-- The search stops, its candidates are rechecked, and it resumes while none passes and it has not stopped for good (R274); the first
argument bounds the resumptions. -/
def Search.settle (k : World) (halt : Nat → Bool → Bool) : Nat → Search → Option PlanCand × Search
  | 0, s => (none, s)
  | n + 1, s =>
    let r := tryCands k (candOrder s.run.cands.length s.run.cands) s
    if r.1.isSome || r.2.queue = [] || halt r.2.run.tries false then r
    else Search.settle k halt n (Search.go k halt searchFuel r.2)

/-- The candidate that a step commits, and its search: under W the search ends first; once the epoch has advanced the candidates are
rechecked first (R272, R274). -/
def Half.decidePlan (x : Half) (p : Plan) (c : Cmd) : Option PlanCand × Search :=
  let k := x.world p c
  let s : Search := match p.run with
    | some r => { tree := p.tree, queue := p.queue, run := r }
    | none => x.newSearch p c
  let now := BitVec.ofNat 64 (x.gridEpoch p)
  let moved := s.run.w ≠ now
  let s := { s with run := { s.run with w := now, preds := k.objs.map (·.1) } }
  Search.settle k (x.searchHalt c) (searchFuel + 1) (if moved then s else Search.go k (x.searchHalt c) searchFuel s)

/-- The minimum-risk family that a fallback follows, with the time at which it starts and the spacing of its points in ms: the session's;
rebuilt from the plan copy where it was lost; before the first commit, that of the arc of the fused ego state at TOV (R275, R281). -/
def Half.familyOf (x : Half) (p : Plan) (c : Cmd) : List (List (BitVec 256)) × Nat × Nat :=
  let n := planPoints p c
  let dt := df c.desc 0x46 16
  if p.family ≠ [] then (p.family, p.famT0, p.famDt)
  else if p.copy ≠ [] then
    (p.newFamily (p.copy.map pointOf) (p.copyDt * 1000) p.copy.length (p.copyDt * 1000), p.copyT0, p.copyDt)
  else (p.newFamily [(x.world p c).egoAt 0] 0 n (dt * 1000), x.vnat c.ctx (df c.desc 0x20 64) 8, dt)

/-- The trajectory of a family member, re-timed to T0 along its path (R276). -/
def memberPath (fam : List (List (BitVec 256)) × Nat × Nat) (t0 i us : Nat) : PPoint :=
  pointAt ((fam.1[i]?.getD []).map pointOf) (fam.2.2 * 1000) ((t0 - fam.2.1) / 1000 + us)

/-- The fallback's member: the first that does not collide, else the one whose first hit is latest, the lower among equals, with that
hit (R276). -/
def fallbackMember (hit : Nat → Option Nat) : Nat × Option Nat :=
  match (List.range 16).find? (fun i => hit i = none) with
  | some i => (i, none)
  | none =>
    let at'' := fun i => (hit i).getD 0
    let i := ((List.range 16).find? (fun i => (List.range 16).all (fun j => at'' j ≤ at'' i))).getD 0
    (i, some (at'' i))

/-- Everything that a planning step commits (R272 to R280, R283): the working epoch is the grid's at the commit cycle; a step that
has a candidate commits it, one without ends with ST_TIMEOUT when the search limit has passed and its root is free, else with
ST_NO_PATH, and commits its fallback. -/
def Half.planOutputs (x : Half) (p : Plan) (c : Cmd) : Cmd :=
  let seed := x.seed
  let d := c.desc
  let fused := df d 0x20 64
  let tov := x.vnat c.ctx fused 8
  let t0 := df d 0x38 64
  let dt := df d 0x46 16
  let n := planPoints p c
  let k := x.world p c
  let (cand, s) := x.decidePlan p c
  let now := x.gridEpoch p
  let moved := now - c.epoch0
  let retries := if moved = 0 then 0 else 1 + Config.elemNat seed (sub 0 0) 16 % moved
  let rootHit := k.hits (fun us => (pointOf s.run.root).after us) 0
  let status := if rootHit then stNoPath else if cand.isSome then stOk
    else if x.searchLimit c && s.queue ≠ [] then stTimeout else stNoPath
  let ok := status = stOk
  let stale := !ok && 4 ≤ moved && Config.elemNat seed (sub 0 7) 1 % 2 = 1
  let fam := x.familyOf p c
  let fb := if stale then
      (Config.elemNat seed (sub 0 8) 4 % 16,
        if Config.elemNat seed (sub 0 1) 1 % 2 = 1 then some (Config.elemNat seed (sub 0 2) 16 % max 1 p.slices) else none)
    else fallbackMember (fun i => k.firstHit (memberPath fam t0 i) 0 p.slices)
  let f := if ok then s.path p ((cand.map (·.edges)).getD []) else memberPath fam t0 fb.1
  let collides := !ok && fb.2.isSome
  let w := if stale then c.epoch0 + 4 + Config.elemNat seed (sub 0 9) 64 % (moved - 3) else now
  let hitUs := if collides then (fb.2.getD 0) * p.sliceUs + Config.elemNat seed (sub 0 10) 32 % max 1 p.sliceUs else 0xFFFFFFFF
  let lost := x.vnat c.ctx (fused + 0x24) 1 = 2
  let flags := b2n (!ok) + 2 * b2n collides + 4 * b2n stale + 8 * b2n s.run.repaired + 16 * b2n lost
  let seq := p.planSeq + 1
  let pts := (List.range n).map (fun i => ({ f (i * dt * 1000) with us := i * dt * 1000 } : PPoint).code)
  let clear := ((List.range p.slices).map (k.clear f)).foldl Num.min (.inf false)
  let header : BitVec 1024 := pack 1024 [(0, 32, seq.toNat), (32, 16, status), (48, 16, flags), (64, 64, t0), (128, 64, tov), (192, 64, w),
    (256, 16, n), (272, 16, dt), (288, 8, if ok then 0xFF else fb.1), (296, 8, satNat 8 retries), (304, 16, satNat 16 s.run.drops),
    (320, 32, (k.total f).toNat), (352, 32, f32code clear), (384, 32, s.run.grown), (416, 32, s.run.freed),
    (448, 32, s.run.pruned), (480, 32, hitUs)]
  let bytes := leBytes 128 header.toNat ++ pts.flatMap (fun q => leBytes 32 q.toNat) ++ leBytes 4 seq.toNat ++ List.replicate 28 0
  let next := if ok then (p.newFamily (pts.map pointOf) (dt * 1000) n (dt * 1000), t0, dt)
    else if p.family = [] && p.copy = [] then ([], 0, 0) else fam
  { c with
    writes := placeBytes (df d 0x30 64) bytes, status := status
    det0 := BitVec.ofNat 64 (Config.freeNat (seed + 3) 32 % 2 ^ 32 + satNat 16 s.run.grown * 2 ^ 32 + satNat 8 retries * 2 ^ 48)
    det1 := BitVec.ofNat 32 (satNat 16 s.run.drops * 65536 + flags)
    eff := .plan { p with
      planSeq := seq, lastTov := some tov, copyT0 := t0, copyDt := dt, copy := pts, family := next.1, famT0 := next.2.1, famDt := next.2.2
      tree := s.tree, queue := s.queue, run := none } }

/-! ### COMMAND_COMMIT -/

/-- The commit of a planning step, made in the cycle in which its POST_OP can be taken; while its inputs are not consistent the engine reads
them again (R263, R274, R280). -/
def Half.planCommit (x : Half) (c : Cmd) : Half :=
  match x.sched.plan with
  | some p => if x.postOk c && x.inputsStable p c then ((x.took.took.took.took.modCmd c.id (fun _ => x.planOutputs p c)).tryCommit c.id).settle else x
  | none => x

/-- COMMAND_COMMIT (spec/04_tensor_engines.md R109, spec/08 R228): a command whose pages are being moved waits (spec/12 R331). -/
def execCommandCommit (h : HalfId) (cmd : Nat) (s : State) : Host.Outcome State Fault Refusal :=
  .next (s.mod h (fun x =>
    match x.cmd cmd with
    | none => x
    | some c =>
      if !x.alive || x.inMove c || c.st ≠ .running then x
      else if (x.batch cmd).isSome then x.batchCommit cmd stOk
      else if dUnit c.desc = 7 && dOp c.desc = 0x10 && c.status ≠ stEmpty then x.planCommit c
      else (x.refetch c).commitStarted cmd))

end Sys2Proof.Machine
end

