-- ==== Sys2Proof/Machine/Qos.lean ====
section
/-! DEFINITION. The bandwidth regulator: its registers, limits, windows and deadlines (spec/13_bandwidth_regulation.md). -/

namespace Sys2Proof.Machine

/-! ### Accesses to 64-bit registers (spec/01_two_halves.md R23) -/

/-- The bits of an aligned 64-bit register that an access of `size` bytes at `off` covers. -/
def accMask (off size : Nat) : BitVec 64 := BitVec.ofNat 64 ((2 ^ (8 * size) - 1) * 2 ^ (8 * (off % 8)))

/-- The register with the bits of a store put in. -/
def accMerge (old : BitVec 64) (off size v : Nat) : BitVec 64 :=
  (old &&& ~~~accMask off size) ||| (BitVec.ofNat 64 (v % 2 ^ (8 * size) * 2 ^ (8 * (off % 8))))

/-- The ones that a store writes, at their places in the register. -/
def accOnes (off size v : Nat) : BitVec 64 := accMerge 0 off size v

/-- The value that a load of `size` bytes at `off` takes from an aligned 64-bit register. -/
def accLoad (r : BitVec 64) (off size : Nat) : Nat := r.toNat / 2 ^ (8 * (off % 8)) % 2 ^ (8 * size)

/-! ### Registers (R358, R359) -/

/-- The four real-time ports (R344). -/
def isRtPort (p : Nat) : Bool := p = 22 || p = 25 || p = 30 || p = 32

/-- Ports whose class comes from commands or cores (R344). -/
def isCmdPort (p : Nat) : Bool := p < 22 || (25 ≤ p && p ≤ 29) || p = 31

/-- Urgency of a real-time port (R347). -/
def QPort.urgency (q : QPort) (p : Nat) : Nat :=
  if !isRtPort p then 0 else if q.t3.toNat ≤ q.need then 3 else if q.t2.toNat ≤ q.need then 2 else if q.t1.toNat ≤ q.need then 1 else 0

/-- Transactions of a port outstanding in a class. -/
def Qos.outCount (q : Qos) (port cls : Nat) : Nat := (q.outst.filter (fun t => t.port = port && t.cls = cls)).length

/-- The port with a number. -/
def Qos.port (q : Qos) (p : Nat) : QPort := q.ports[p]?.getD {}

/-- The class with a number. -/
def Qos.cls (q : Qos) (c : Nat) : QClass := q.classes[c]?.getD {}

/-- An aligned 64-bit register of the QOS_ block (Table — QOS registers); reserved space reads zero. -/
def Qos.read (q : Qos) (off : Nat) : BitVec 64 :=
  if off = 0 then pack 64 [(0, 1, b2n (q.causes ≠ 0)), (8, 6, q.causes.toNat)]
  else if off = 8 then pack 64 [(0, 16, q.windowUs.toNat)]
  else if off = 0x10 then pack 64 [(0, 9, q.irqStatus.toNat)]
  else if off = 0x18 then pack 64 [(0, 9, q.irqEnable.toNat)]
  else if off = 0x20 then q.windows
  else if 0x100 ≤ off && off < 0x200 then
    let k := q.cls ((off - 0x100) / 0x20)
    if off % 0x20 = 0 then pack 64 [(0, 32, k.guar.toNat)]
    else if off % 0x20 = 8 then pack 64 [(0, 8, k.weight.toNat), (8, 1, b2n k.safety)]
    else if off % 0x20 = 0x10 then pack 64 [(0, 32, k.served.toNat), (32, 32, k.misses.toNat)]
    else 0
  else if 0x1000 ≤ off && off < 0x1000 + 38 * 0x40 then
    let p := (off - 0x1000) / 0x40
    let k := q.port p
    let cnt := fun lo => pack 64 ((List.range 4).map (fun i => (16 * i, 10, min 1023 (q.outCount p (lo + i)))))
    if off % 0x40 = 0 then pack 64 [(0, 3, k.fixedCls.toNat), (4, 1, b2n (isCmdPort p)), (5, 1, b2n (isRtPort p)), (6, 2, k.urgency p)]
    else if off % 0x40 = 8 then k.otLo
    else if off % 0x40 = 0x10 then k.otHi
    else if off % 0x40 = 0x18 then
      (if isRtPort p then pack 64 [(0, 8, k.t1.toNat), (8, 8, k.t2.toNat), (16, 8, k.t3.toNat), (24, 10, k.boost.toNat)] else 0)
    else if off % 0x40 = 0x20 then (if isRtPort p then pack 64 [(0, 32, k.budgetNs.toNat)] else 0)
    else if off % 0x40 = 0x28 then pack 64 [(0, 32, k.held.toNat), (32, 32, k.late.toNat)]
    else if off % 0x40 = 0x30 then cnt 0
    else cnt 4
  else 0

/-- Changes the regulator. -/
def Half.modQos (x : Half) (f : Qos → Qos) : Half := { x with qos := f x.qos }

/-- Changes a port of the regulator. -/
def Qos.modPort (q : Qos) (p : Nat) (f : QPort → QPort) : Qos := { q with ports := q.ports.modify p f }

/-- Changes a class of the regulator. -/
def Qos.modCls (q : Qos) (c : Nat) (f : QClass → QClass) : Qos := { q with classes := q.classes.modify c f }

/-- The bound on the guarantees: 600 blocks per pseudo-channel in service and microsecond of window (R357). -/
def Half.guarBound (x : Half) (window : Nat) : Nat := 600 * (64 - x.mem.pcsOut.length) * window

/-- GUAR_BLOCKS of a class as last written. -/
def QClass.guarNext (k : QClass) : Nat := (k.newGuar.getD k.guar).toNat

/-- Sum of the guarantees as last written, with class c's replaced. -/
def Qos.guarSum (q : Qos) (c v : Nat) : Nat := (q.classes.zipIdx.map (fun p => if p.2 = c then v else p.1.guarNext)).sum

/-- WINDOW_US as last written. -/
def Qos.windowNext (q : Qos) : Nat := (q.newWindow.getD q.windowUs).toNat

/-- Outstanding limits of four classes all in their range, 1 to 1,023, with their reserved bits dropped (R352). -/
def otOk (v : BitVec 64) : Bool := (List.range 4).all (fun i => fld v (16 * i) 10 ≠ 0)

/-- Outstanding limits without their reserved bits. -/
def otBits (v : BitVec 64) : BitVec 64 := pack 64 ((List.range 4).map (fun i => (16 * i, 10, fld v (16 * i) 10)))

/-- The outcome of a store to the QOS_ block: the regulator after it, or none when the store is ignored and logged (R358). -/
def Half.qosPut (x : Half) (off size v : Nat) : Option Qos :=
  let q := x.qos
  let a := off / 8 * 8
  let r := accMerge (q.read a) off size v
  let low := off % 8 < 4
  if a = 8 then
    let w := fld r 0 16
    if !low then some q
    else if w < 1 || 1000 < w || q.lockWindow || x.guarBound w < q.guarSum 8 0 then none
    else some { q with newWindow := some (BitVec.ofNat 16 w) }
  else if a = 0x10 then some { q with irqStatus := q.irqStatus &&& ~~~((accOnes off size v).extractLsb' 0 9) }
  else if a = 0x18 then some { q with irqEnable := r.extractLsb' 0 9 }
  else if 0x100 ≤ a && a < 0x200 then
    let c := (a - 0x100) / 0x20
    let k := q.cls c
    if a % 0x20 = 0 then
      let g := fld r 0 32
      if !low then some q
      else if k.lockGuar || x.guarBound q.windowNext < q.guarSum c g then none
      else some (q.modCls c (fun k => { k with newGuar := some (BitVec.ofNat 32 g) }))
    else if a % 0x20 = 8 then
      if !low then some q
      else if k.lockWeight || fld r 0 8 = 0 then none
      else some (q.modCls c (fun k => { k with safety := bitAt r 8, newWeight := some (r.extractLsb' 0 8) }))
    else some q
  else if 0x1000 ≤ a && a < 0x1000 + 38 * 0x40 then
    let p := (a - 0x1000) / 0x40
    let k := q.port p
    let o := a % 0x40
    if o = 0 then
      if p = 23 || p = 24 || p = 37 || !low then some q
      else if k.locked then none
      else some (q.modPort p (fun k => { k with fixedCls := r.extractLsb' 0 3 }))
    else if o = 8 || o = 0x10 then
      if k.locked || !otOk r then none
      else some (q.modPort p (fun k => if o = 8 then { k with otLo := otBits r } else { k with otHi := otBits r }))
    else if o = 0x18 then
      if !isRtPort p || k.locked || fld r 8 8 < fld r 0 8 || fld r 16 8 < fld r 8 8 then none
      else some (q.modPort p (fun k => { k with
        t1 := r.extractLsb' 0 8, t2 := r.extractLsb' 8 8, t3 := r.extractLsb' 16 8, boost := r.extractLsb' 24 10 }))
    else if o = 0x20 then
      if !isRtPort p || k.locked then none
      else if !low then some q
      else if fld r 0 32 < 100 || 1000000 < fld r 0 32 then none
      else some (q.modPort p (fun k => { k with budgetNs := r.extractLsb' 0 32 }))
    else some q
  else some q

/-- A naturally aligned store to the QOS_ block by an agent (R358); clearing a status bit re-arms the interrupt (spec/14 R374). -/
def Half.qosStore (x : Half) (ag : Agent) (off size v : Nat) : Half :=
  match x.qosPut off size v with
  | some q => let y := x.modQos (fun _ => q); if off / 8 * 8 = 0x10 then y.rearm 65 else y
  | none => x.ctrlVio ag 7 (0x300000 + off)

/-- A naturally aligned 32-bit or 64-bit access. -/
def aligned (off size : Nat) : Bool := (size = 4 || size = 8) && off % size = 0

/-- QOS_REGISTER_WRITE: a store to a field of the QOS_ block, by its offset in the block (R358). -/
def execQosRegisterWrite (h : HalfId) (ag : Agent) (off size v : Nat) (s : State) : Host.Outcome State Fault Refusal :=
  .next (s.mod h (fun x =>
    if !x.alive || isTool ag || 0x100000 ≤ off then x
    else if !aligned off size then x.ctrlVio ag 1 (0x300000 + off)
    else x.qosStore ag off size v))

/-! ### Windows and guarantees (R355, R356) -/

/-- A miss of class c: its status bit and interrupt, its count, and for a class with SAFETY the Umpire's event, with the warning at
the tenth window in a row (R356, spec/18_safety.md R456; log 29). -/
def Half.missClass (x : Half) (c : Nat) : Half :=
  let y := (x.modQos (fun q => q.modCls c (fun k => { k with misses := k.misses + 1 }))).qosEvent c
  if (x.qos.cls c).safety then
    let n := (x.umpx.missStreak[c]?.getD 0) + 1
    let y := { y with umpx := { y.umpx with missStreak := y.umpx.missStreak.set c n } }
    if n = 10 then y.umpEvent 13 else { y with ump := { y.ump with events := setBit y.ump.events 13 } }
  else y

/-- QOS_WINDOW_END: `busy` says of which classes a transaction was held or queued at every 1 µs tick of the window (R355). -/
def execQosWindowEnd (h : HalfId) (busy : BitVec 8) (s : State) : Host.Outcome State Fault Refusal :=
  .next (s.mod h (fun x =>
    if !x.alive then x
    else
      let missed := fun c => let k := x.qos.cls c; k.guar ≠ 0 && k.count < k.guar.toNat && bitAt busy c
      let y := (List.range 8).foldl (fun (y : Half) c =>
        if missed c then y.missClass c
        else { y with umpx := { y.umpx with missStreak := y.umpx.missStreak.set c 0 } }) x
      y.modQos (fun q => { q with
        windows := q.windows + 1
        windowUs := q.newWindow.getD q.windowUs, newWindow := none
        classes := q.classes.map (fun (k : QClass) => { k with
          served := BitVec.ofNat 32 k.count, count := 0, guar := k.newGuar.getD k.guar, newGuar := none
          weight := k.newWeight.getD k.weight, newWeight := none }) })))

/-! ### Transactions (R341, R344, R351, R352) -/

/-- The class of a transaction of a port: fixed, its command's, its core's, or 7 for the warm-up pattern (R341, R344). A port whose
class comes from commands has no transaction without one. -/
def Half.txnClass (x : Half) (port : Nat) (cmd core : Option Nat) : Option Nat :=
  if !isCmdPort port then some (x.qos.port port).fixedCls.toNat
  else match cmd, core with
    | some n, _ => if 18 ≤ port && port < 22 then none else (x.cmd n).map (fun c => dClass c.desc)
    | none, some k =>
      if 18 ≤ port && port < 22 && k / 4 = port - 18 then (x.cores.app[k]?).map (fun a => a.nvclass.toNat) else none
    | none, none => if port < 18 then some 7 else if port = 31 then some (x.qos.port 31).fixedCls.toNat else none

/-- The limit of a port for a class, with the allowance of its urgency (R348, R352). -/
def Qos.limit (q : Qos) (p c : Nat) : Nat :=
  let k := q.port p
  let base := if c < 4 then fld k.otLo (16 * c) 10 else fld k.otHi (16 * (c - 4)) 10
  let u := k.urgency p
  base + (if u = 3 then k.boost.toNat else if u = 2 then k.boost.toNat / 2 else 0)

/-- Issues a transaction; in deadline mode a real-time port's carries its deadline (R350, R351). -/
def Half.issue (x : Half) (t : QTxn) : Half :=
  let due := if isRtPort t.port && x.qos.causes ≠ 0 then some (x.now + (x.qos.port t.port).budgetNs.toNat) else none
  x.modQos (fun q => { q with outst := q.outst ++ [{ t with deadline := due }] })

/-- Need level F of the four real-time ports (R347): the fill of the port's buffer, and 255 less the fill for the fusion engine. -/
def Qos.setFill (q : Qos) (f : RtFill) : Qos :=
  [(22, f.cores), (25, 255 - f.fusion), (30, f.camera), (32, f.ether)].foldl
    (fun (q : Qos) p => q.modPort p.1 (fun k => { k with need := p.2 % 256 })) q

/-- PORT_TRANSACTION_REQUEST: a transaction of up to four DRAM blocks is issued, or held where it would pass the limit; `turn` has its
target and the level of the real-time ports' buffers (R343, R347, R352). A command's port that holds it may count towards R354. -/
def execPortTransactionRequest (h : HalfId) (port blocks : Nat) (turn : QTurn) (cmd core : Option Nat) (s : State)
    : Host.Outcome State Fault Refusal :=
  .next (s.mod h (fun x =>
    match x.txnClass port cmd core with
    | none => x
    | some c =>
      if !x.alive || 38 ≤ port || 4 < blocks then x
      else
        let x := x.modQos (fun q => q.setFill turn.fill)
        let t : QTxn := { id := x.qos.nextTxn, port := port, cls := c, blocks := blocks, cmd := cmd, target := turn.target }
        let y := x.modQos (fun q => { q with nextTxn := q.nextTxn + 1 })
        if y.qos.outCount port c < y.qos.limit port c then y.issue t
        else
          let y := y.modQos (fun q => { (q.modPort port (fun k => { k with held := k.held + 1 })) with heldTxns := q.heldTxns ++ [t] })
          match cmd with
          | some n => if port < 18 then y.took.modCmd n (fun k => { k with held10 := k.held10 || Config.freeNat y.seed 1 % 2 = 1 }) else y
          | none => y))

/-- Releases held transactions in order of arrival while their port's limit allows; those of commands that have ended were removed
without being issued (R352, R353). -/
def Half.releaseHeld (x : Half) : Half :=
  let live := x.qos.heldTxns.filter (fun t => t.cmd.all (fun n => (x.cmd n).isSome))
  live.foldl (fun (y : Half) t =>
    if y.qos.outCount t.port t.cls < y.qos.limit t.port t.cls then
      (y.modQos (fun q => { q with heldTxns := q.heldTxns.filter (fun u => u.id ≠ t.id) })).issue t
    else y) (x.modQos (fun q => { q with heldTxns := live }))

/-! ### Order at the targets (R345, R346) -/

/-- Transactions that wait at a target, oldest first. -/
def Qos.queued (q : Qos) (g : QTarget) : List QTxn := q.outst.filter (fun t => t.target = g)

/-- The oldest transaction of a port at an urgency. -/
def Qos.urgent (q : Qos) (u : Nat) (l : List QTxn) : Option QTxn := l.find? (fun t => (q.port t.port).urgency t.port = u)

/-- The oldest transaction of the highest class whose blocks in the current window are below its guarantee: DRAM controllers only. -/
def Qos.guaranteed (q : Qos) (g : QTarget) (l : List QTxn) : Option QTxn :=
  match g with
  | .dram _ => (List.range 8).reverse.findSome? (fun c =>
      if (q.cls c).count < (q.cls c).guar.toNat then l.find? (fun t => t.cls = c) else none)
  | _ => none

/-- The transaction with the earliest deadline, the oldest among equals, of those with a deadline up to a time. -/
def earliest (bound : Option Nat) (l : List QTxn) : Option QTxn :=
  let due := l.filter (fun t => t.deadline.any (fun d => bound.all (fun b => d ≤ b)))
  due.find? (fun t => due.all (fun u => t.deadline.getD 0 ≤ u.deadline.getD 0))

/-- Blocks that each class may still receive at a target in its round. -/
def Qos.left (q : Qos) (g : QTarget) : List Int := ((q.credits.find? (fun k => k.target = g)).getD {}).left

/-- Weighted round robin (R345): in a round each class receives WEIGHT blocks, the highest class first, and what a transaction takes
beyond that is taken from its next round; a class that has nothing waiting saves nothing (log 93). -/
def Qos.weighted (q : Qos) (l : List QTxn) : Nat → List Int → Option (QTxn × List Int)
  | 0, _ => none
  | n + 1, left =>
    match (List.range 8).reverse.findSome? (fun c => if 0 < left[c]?.getD 0 then l.find? (fun t => t.cls = c) else none) with
    | some t => some (t, left.modify t.cls (fun k => k - t.blocks))
    | none =>
      if l = [] then none
      else q.weighted l n ((List.range 8).map (fun c =>
        let w : Int := (q.cls c).weight.toNat
        if l.any (fun t => t.cls = c) then left[c]?.getD 0 + w else min w (left[c]?.getD 0 + w)))

/-- The transaction that a target serves next, and the round robin after it: R346 in deadline mode and R345 in normal service. -/
def Half.serves (x : Half) (g : QTarget) : Option (QTxn × List Int) :=
  let q := x.qos
  let l := q.queued g
  let first := if q.causes ≠ 0 then
      ((earliest (some (x.now + 2000)) l).or (q.guaranteed g l)).or (earliest none l)
    else ((q.urgent 3 l).or (q.guaranteed g l)).or (q.urgent 2 l)
  match first with
  | some t => some (t, q.left g)
  | none => q.weighted l 8 (q.left g)

/-- The transaction leaves its target: the port's count falls, DRAM blocks are counted for the window, and a late one is recorded
(R351, R352, R355). -/
def Half.finishTxn (x : Half) (t : QTxn) : Half :=
  let dram := match t.target with
    | .dram _ => t.blocks
    | _ => 0
  let y := x.modQos (fun q => { (q.modCls t.cls (fun k => { k with count := k.count + dram })) with
    outst := q.outst.filter (fun u => u.id ≠ t.id) })
  if t.deadline.any (fun d => d < x.now) then
    (y.modQos (fun q => q.modPort t.port (fun k => { k with late := k.late + 1 }))).qosEvent 8
  else y

/-- PORT_TRANSACTION_COMPLETE: a target serves and completes the transaction that it chooses next, the count falls, and held
transactions are released (R345, R346, R351, R352, R355). -/
def execPortTransactionComplete (h : HalfId) (turn : QTurn) (s : State) : Host.Outcome State Fault Refusal :=
  .next (s.mod h (fun x =>
    if !x.alive then x
    else
      let x := x.modQos (fun q => q.setFill turn.fill)
      match x.serves turn.target with
      | none => x
      | some (t, left) =>
        ((x.modQos (fun q => { q with
          credits := { target := turn.target, left := left } :: q.credits.filter (fun k => k.target ≠ turn.target) })).finishTxn t).releaseHeld))

/-- URG_CAM_x[1:0]: the camera-ingest port's urgency, and 0 while the port is unpowered (R349, spec/22 R548). -/
def Half.urgCam (x : Half) : BitVec 2 := if x.alive then BitVec.ofNat 2 ((x.qos.port 30).urgency 30) else 0

end Sys2Proof.Machine
end

