-- ==== Sys2Proof/Machine/Cores.lean ====
section
/-! DEFINITION. What the application cores and the real-time pairs do to the block: their CSRs, apertures, timers and lockstep
checks (spec/14_cores.md). Their own instruction streams are not part of the block. -/

namespace Sys2Proof.Machine

/-- Changes an application core. -/
def Half.modApp (x : Half) (n : Nat) (f : AppCore → AppCore) : Half :=
  { x with cores := { x.cores with app := x.cores.app.modify n f } }

/-- Changes a real-time pair. -/
def Half.modPair (x : Half) (n : Nat) (f : RtPair → RtPair) : Half :=
  { x with cores := { x.cores with pairs := x.cores.pairs.modify n f } }

/-- The pair with a number. -/
def Half.pair (x : Half) (n : Nat) : RtPair := x.cores.pairs[n]?.getD {}

/-- Core n runs: the half does, the core's cluster is not in reset (spec/20_power_thermal_reset.md R512), and no debugger holds it
(spec/19_security_debug_power.md R485). -/
def Half.coreRuns (x : Half) (n : Nat) : Bool :=
  x.alive && n < 16 && !(x.powx.subReset.contains (n / 4)) && !(x.cores.app[n]?.getD {}).halted

/-- Pair n runs. -/
def Half.pairRuns (x : Half) (n : Nat) : Bool := x.alive && (x.pair n).running && !(x.pair n).halted

/-- NVCTX_WRITE: a context that does not exist is ignored and logged (R364, R365). -/
def execNvctxWrite (h : HalfId) (core : Nat) (v : BitVec 64) (s : State) : Host.Outcome State Fault Refusal :=
  .next (s.mod h (fun x =>
    if !x.coreRuns core then x
    else if (x.ctx (fld v 0 12)).isNone then x.coreVio (.core core 0) 6 0x5C0 0x5C0
    else x.modApp core (fun k => { k with nvctx := v.extractLsb' 0 12, nvctxValid := bitAt v 16 })))

/-- NVCLASS_WRITE: a class outside the permitted mask of the client that owns NVCTX_ID is ignored and logged (R364, R365). -/
def execNvclassWrite (h : HalfId) (core : Nat) (v : BitVec 64) (s : State) : Host.Outcome State Fault Refusal :=
  .next (s.mod h (fun x =>
    if !x.coreRuns core then x
    else
      let cl := x.ctxClient ((x.cores.app[core]?.getD {}).nvctx.toNat)
      if bitAt (x.classMask cl) (fld v 0 3) then x.modApp core (fun k => { k with nvclass := v.extractLsb' 0 3 })
      else x.coreVio (.core core cl) 6 0x5C1 0x5C1))

/-- The agent of an aperture access. -/
def Aperture.agent : Aperture → Agent
  | .system n => .core n 0
  | .client n => .core n 0
  | .window p => .pair p
  | .tcm p => .pair p
  | .coreMap n => .core n 0
  | .pairMap p => .pair p

/-- Address at which the agent sees the first byte of an aperture (Tables — Application-core and Real-time-pair address map). -/
def apBase : Aperture → Nat
  | .system _ => 0x1000000000000
  | .client _ => 0x2000000000000
  | .window _ => 0x40000000
  | .tcm _ => 0
  | .coreMap _ => 0
  | .pairMap _ => 0

/-- The aperture, and the offset in it, that an address of a core's or pair's map names; none in a control space and outside every
region (Tables — Application-core physical map, Real-time pair address map). -/
def apAt (ap : Aperture) (addr : Nat) : Option (Aperture × Nat) :=
  let inside := fun (b n : Nat) => decide (b ≤ addr) && decide (addr < b + n)
  match ap with
  | .coreMap k =>
    if inside 0x1000000000000 vaLimit then some (.system k, addr - 0x1000000000000)
    else if inside 0x2000000000000 vaLimit then some (.client k, addr - 0x2000000000000)
    else none
  | .pairMap p =>
    if addr < 524288 then some (.tcm p, addr)
    else if inside 0x40000000 (2 ^ 30) then some (.window p, addr - 0x40000000)
    else none
  | _ => some (ap, addr)

/-- The address lies in a control space of the agent's map, where REGISTER_WRITE and its like act (R363, R370). -/
def apControl (ap : Aperture) (addr : Nat) : Bool :=
  match ap with
  | .coreMap _ => (ctrlAt addr).isSome
  | .pairMap _ => decide (0xE0000000 ≤ addr) && decide (addr < 0xE0000000 + ctrlBytes)
  | _ => false

/-- The agent runs. -/
def Half.apRuns (x : Half) : Aperture → Bool
  | .system n => x.coreRuns n
  | .client n => x.coreRuns n
  | .window p => x.pairRuns p
  | .tcm p => x.pairRuns p
  | .coreMap n => x.coreRuns n
  | .pairMap p => x.pairRuns p

/-- Context and virtual address of an aperture access of n bytes at an address of the aperture: none when the client aperture is
not live or the address lies outside the aperture (R363, R366, R370). -/
def Half.apAddr (x : Half) (ap : Aperture) (addr n : Nat) : Option (Nat × Nat) :=
  match ap with
  | .system _ => if addr + n ≤ vaLimit then some (0, addr) else none
  | .client k =>
    let a := x.cores.app[k]?.getD {}
    if a.nvctxValid && addr + n ≤ vaLimit then some (a.nvctx.toNat, addr) else none
  | .window p => match x.cfg.pairs[p]? with
    | some b => if addr + n ≤ 2 ^ 30 then some (b.ctx, b.base + addr) else none
    | none => none
  | .tcm _ | .coreMap _ | .pairMap _ => none

/-- The memory error log entry of an aperture access that meets an uncorrectable block (R366). -/
def Half.apError (x : Half) (ctx va : Nat) : Half :=
  let loc := match x.blockAt ctx va with
    | some (st, f, b) => x.dramLoc st f b
    | none => 0
  x.memErr 0x02 0 loc (some (ctx, va))

/-- A load from an aperture (R366). -/
def State.apLoad (s : State) (h : HalfId) (ap : Aperture) (addr size : Nat) : Host.Outcome State Fault Refusal :=
  let x := s.half h
  if !x.apRuns ap then .next s
  else match ap with
    | .tcm p =>
      if addr + size ≤ 524288 then .next { s with resp := .data (leNat (memReads (x.pair p).tcm addr size)) }
      else .next { s with resp := .accessFault }
    | _ => match x.apAddr ap addr size with
      | none => .next { s with resp := .accessFault }
      | some (c, va) =>
        if !x.mapped c va size then .next { s with resp := .accessFault }
        else match x.firstBad c [(va, size)] with
          | some b => .next { (s.setHalf h (x.apError c b)) with resp := .accessFault }
          | none => .next { (s.setHalf h (x.touchReads c [(va, size)])) with resp := .data (x.vnat c va size) }

/-- APERTURE_LOAD: an address in no region of the agent's map gives an access fault (R363, R366, R370). -/
def execApertureLoad (h : HalfId) (ap : Aperture) (addr size : Nat) (s : State) : Host.Outcome State Fault Refusal :=
  match apAt ap addr with
  | some p => s.apLoad h p.1 p.2 size
  | none => if (s.half h).apRuns ap && !(apControl ap addr) then .next { s with resp := .accessFault } else .next s

/-- A store to an aperture: not staged, visible at once, and stale copies of what it changes are dropped; a running command whose input
it changes sees it on some reads and not on others (R304, R366, R367). -/
def State.apStore (s : State) (h : HalfId) (ap : Aperture) (addr size v : Nat) : Host.Outcome State Fault Refusal :=
  let x := s.half h
  if !x.apRuns ap then .next s
  else match ap with
    | .tcm p =>
      if addr + size ≤ 524288 then
        .next { (s.setHalf h (x.modPair p (fun r => { r with tcm := memWrites r.tcm addr (leBytes size v) }))) with resp := .ok }
      else .next { s with resp := .accessFault }
    | _ => match x.apAddr ap addr size with
      | none => .next { s with resp := .accessFault }
      | some (c, va) =>
        let pages := (pagesOf va size).map (fun p => x.tptOf c p)
        if !x.mapped c va size || pages.any (fun t => t.any (fun t => t.ro)) then .next { s with resp := .accessFault }
        else if pages.any (fun t => t.any Tpt.isSync) then
          .next { (s.setHalf h (x.coreVio (Aperture.agent ap) 5 va (apBase ap + addr))) with resp := .dropped }
        else match x.firstBad c [(va, size)] with
          | some b => .next { (s.setHalf h (x.apError c b)) with resp := .accessFault }
          | none =>
            let ws := placeBytes va (leBytes size v)
            .next { (s.setHalf h ((x.noteRaces x.sched.nextCmd.succ c ws).commitBytes c ws)) with resp := .ok }

/-- APERTURE_STORE: an address in no region of the agent's map gives an access fault (R363, R366, R370). -/
def execApertureStore (h : HalfId) (ap : Aperture) (addr size v : Nat) (s : State) : Host.Outcome State Fault Refusal :=
  match apAt ap addr with
  | some p => s.apStore h p.1 p.2 size v
  | none => if (s.half h).apRuns ap && !(apControl ap addr) then .next { s with resp := .accessFault } else .next s

/-! ### What a core reads of itself -/

/-- The time CSR of an application core: the half's local counter in nanoseconds (R362). -/
def Half.timeCsr (x : Half) : BitVec 64 := BitVec.ofNat 64 x.now

/-- The mtime of a real-time pair: the half's synchronised time in nanoseconds (R371). -/
def Half.mtime (x : Half) : BitVec 64 := BitVec.ofNat 64 x.st

/-- CSR 0x5C0 of an application core (R364). -/
def AppCore.nvctxWord (k : AppCore) : BitVec 64 := pack 64 [(0, 12, k.nvctx.toNat), (16, 1, b2n k.nvctxValid)]

/-- CSR 0x5C1 (R364). -/
def AppCore.nvclassWord (k : AppCore) : BitVec 64 := pack 64 [(0, 3, k.nvclass.toNat)]

/-- CSR 0x5C2 of application core n (R364). -/
def nvcoreWord (n : Nat) : BitVec 64 := pack 64 [(0, 4, n)]

/-- MTIME_COMPARE: the pair takes its timer interrupt while mtime, the half's synchronised time, has reached mtimecmp; `cmp` is
the value that the pair's program has put there (R371). -/
def execMtimeCompare (h : HalfId) (pair : Nat) (cmp : BitVec 64) (s : State) : Host.Outcome State Fault Refusal :=
  .next (s.mod h (fun x =>
    if x.pairRuns pair then
      x.modPair pair (fun r => { r with mtimecmp := cmp, timerIrq := decide (cmp.toNat ≤ x.st) })
    else x))

end Sys2Proof.Machine
end

