-- ==== Sys2Proof/Machine/Links.lean ====
section
/-! DEFINITION. The die-to-die links: lanes and widths, retrains and their effects, discovery of the attached dies, loss of a link,
and what the links report (spec/15_die_to_die_links.md). -/

namespace Sys2Proof.Machine

/-! ### Lanes (R376, R385, R386) -/

/-- Data lanes per direction at full width (Table — Links of one half). -/
def lnkData (i : Nat) : Nat := if i < 16 then 64 else 16

/-- Repair or spare lanes per direction. -/
def lnkSpares (i : Nat) : Nat := if i < 16 then 4 else if i = 17 then 2 else 0

/-- Full lane rate in GT/s. -/
def lnkRate (i : Nat) : Nat := if i = 16 then 16 else 32

/-- Payload rate per direction at full width and rate, in MB/s. -/
def lnkMbps (i : Nat) : Nat := if i < 16 then 240000 else if i = 16 then 30000 else if i = 17 then 64000 else 56000

/-- The width that one direction's bad lanes allow, 0 for none (Table — Lane fault outcomes). Data lanes come first, then
repair or spare lanes, then the control lane of the Handoff link. -/
def dirWidth (i : Nat) (bad : List Nat) : Nat :=
  let inR := fun lo hi => (bad.filter (fun n => lo ≤ n && n < hi)).length
  if i < 16 then
    let spare := 4 - inR 64 68
    if inR 0 64 ≤ spare then 64 else if min (inR 0 32) (inR 32 64) ≤ spare then 32 else 0
  else if i = 17 then
    (if inR 0 19 ≤ 2 then 16 else if inR 0 19 ≤ 10 && (inR 18 19 = 0 || inR 16 18 < 2) then 8 else 0)
  else if inR 0 16 = 0 then 16
  else if i = 16 then (if inR 0 8 = 0 || inR 8 16 = 0 then 8 else 0)
  else if inR 0 8 = 0 then 8 else if inR 0 4 = 0 then 4 else 0

/-- Lanes of one direction that repair or spare lanes replace. -/
def dirRepairs (i : Nat) (bad : List Nat) : Nat :=
  let inR := fun lo hi => (bad.filter (fun n => lo ≤ n && n < hi)).length
  if i < 16 then (if inR 0 64 ≤ 4 - inR 64 68 then inR 0 64 else min (inR 0 32) (inR 32 64))
  else if i = 17 then (if inR 0 19 ≤ 2 then inR 0 16 + inR 18 19 else 0)
  else 0

/-- A lane by its number in the model: transmit lane n is n, receive lane n is 256 + n. -/
def laneDir (rx : Bool) (bad : List Nat) : List Nat :=
  (bad.filter (fun n => decide (256 ≤ n) = rx)).map (fun n => n % 256)

/-- The width that the bad lanes of both directions allow: both run at the same width (R386). -/
def lnkWidth (i : Nat) (bad : List Nat) : Nat := min (dirWidth i (laneDir false bad)) (dirWidth i (laneDir true bad))

/-- PHYSICAL, GOOD, SPARES and FAILED of one direction (Table — Link status registers). -/
def laneCounts (i : Nat) (bad : List Nat) : BitVec 32 :=
  let phys := lnkData i + lnkSpares i
  let b := (bad.filter (fun n => n < phys)).length
  pack 32 [(0, 8, phys), (8, 8, phys - b), (16, 8, lnkSpares i - bad.length), (24, 8, bad.length)]

/-- Lanes with errors in 3 of their last 8 intervals of 1 ms (R385). -/
def Link.runFaulty (l : Link) : List Nat := (l.laneHist.filter (fun p => 3 ≤ (p.2.filter id).length)).map (·.1)

/-! ### Training -/

/-- A link has trained at a rate with these bad lanes: its width, counts, state and advisories (R378, R386, R387); without a
usable configuration it goes DOWN. -/
def Half.trained (x : Half) (i rate : Nat) (bad : List Nat) : Half :=
  let l := x.link i
  let w := lnkWidth i bad
  let y := x.modLink i (fun k => { k with
    faulty := bad, laneHist := [], flitTries := 0, fails := 0, recoveryDue := some (x.now + 1000000)
    txLanes := laneCounts i (laneDir false bad), rxLanes := laneCounts i (laneDir true bad) })
  if w = 0 || rate = 0 then y.linkDown i
  else
    let narrower := w < lnkWidth i l.faulty
    let rep := fun b => dirRepairs i (laneDir false b) + dirRepairs i (laneDir true b)
    let r := min rate (lnkRate i)
    let y := y.modLink i (fun k => { k with
      width := BitVec.ofNat 8 w, rate := BitVec.ofNat 8 r
      payload := BitVec.ofNat 32 (lnkMbps i * w / lnkData i * r / lnkRate i)
      degrades := if narrower then satInc k.degrades else k.degrades
      repairs := BitVec.ofNat 16 (satNat 16 (k.repairs.toNat + (rep bad - rep l.faulty))) })
    let low := r < lnkRate i
    let y := y.linkSet i (if w < lnkData i || low then .degraded else .up)
    if (narrower && l.degrades = 0) || low then y.linkAdvisory i else y

/-- Starts a retrain of one half's end of a link (R389): its reason, deadline-mode cause 4, and for the open site no captures
and the started batches killed (spec/08_input_pipeline.md R207, R229). -/
def Half.retrainEnd (x : Half) (i reason : Nat) : Half :=
  let y := (x.modLink i (fun l => { l with
    reason := BitVec.ofNat 8 reason, retrains := satInc l.retrains, recoveryDue := none })).linkSet i .retraining
  let y := y.cause 4 true
  if i = 16 then
    ({ y with sched := { y.sched with pipe := { y.sched.pipe with sideReset := true } } } : Half).killBatches
  else y

/-- The clock of a follower free-runs during a Handoff retrain, without event 1 (spec/16_time_and_ethernet.md R420). -/
def Half.retrainClock (x : Half) : Half :=
  if x.tim.lead || x.tim.st = .unset || x.tim.st = .freeRun then x
  else { x with tim := { x.tim with st := .freeRun, freeSince := BitVec.ofNat 64 x.st } }

/-- Starts a retrain; a Handoff retrain is one for both halves (R389). -/
def State.retrain (s : State) (h : HalfId) (i reason : Nat) : State :=
  if i = handoffLink then
    (s.mod h (fun x => (x.retrainEnd i reason).retrainClock)).mod (other h) (fun x => (x.retrainEnd i reason).retrainClock)
  else s.mod h (fun x => x.retrainEnd i reason)

/-- Numbers of the commands that wait for an answer over a link. -/
def Half.sentOn (x : Half) (tether : Bool) : List Nat :=
  (x.sched.cmds.filter (fun c => c.st = .sent && dTether c.desc = tether)).map (·.id)

/-- Remote operations on a lost link complete with ST_DISCARDED (R391, R392). -/
def Half.discardSent (x : Half) (tether : Bool) : Half :=
  ((x.sentOn tether).foldl (fun y n => y.endLost n) x).settle

/-- One half's end of the lost Handoff link: what it sent and queued is gone, and its Umpire sets event 11
(spec/18_safety.md R456). -/
def Half.handoffGone (x : Half) (st : LnkState) : Half :=
  let y := if st = .down then x.linkDown handoffLink
    else (x.modLink handoffLink (fun l => { l with width := 0, payload := 0 })).linkSet handoffLink st
  ({ y with links := { y.links with outbox := [], bridgeHeld := 0 } } : Half).discardSent false

/-- A requested mode change in progress ends with ST_BUSY (spec/01_two_halves.md R31). -/
def State.dropChange (s : State) : State :=
  let fail := fun (t : State) (o : Option (HalfId × Nat)) => match o with
    | some (h, slot) => t.mod h (fun x => x.failWaiting slot { bad := true, st := stBusy, retry := none })
    | none => t
  let t := match s.dev.change with
    | some c => fail s c.slot
    | none => s
  let t := match t.dev.rejoin with
    | some r => fail t r.slot
    | none => t
  { t with dev := { t.dev with change := none, rejoin := none } }

/-- The Handoff link goes DOWN (R386, R392): both Umpires set event 11, and in DUAL or MIRROR the device enters SOLO on the
chain-carrying half at the next frame boundary (spec/01_two_halves.md R29, spec/18_safety.md R456). -/
def State.handoffDown (s : State) : State :=
  let t := (s.mod .a (fun x => (x.handoffGone .down).umpEvent 11)).mod .b (fun x => (x.handoffGone .down).umpEvent 11)
  if t.dev.mode = .solo then (if t.dev.rejoin.isSome then t.dropChange else t)
  else
    let t := t.dropChange
    { t with dev := { t.dev with change := some { kind := .link, target := .solo, half := t.dev.chain, left := 1 } } }

/-- The message of LNK_RETRAIN that waits for link i completes (R390). -/
def Half.retrainReply (x : Half) (i : Nat) : Half :=
  match (x.link i).slot with
  | some sl =>
    (x.modLink i (fun l => { l with slot := none })).finishWaiting sl (if (x.link i).works then stOk else stTimeout) []
  | none => x

/-- The Tether goes down (spec/17_partners.md R423, R434): the peer is ABSENT and its remote operations are discarded. -/
def Half.tetherGone (x : Half) : Half :=
  let y := ({ (x.linkDown tetherLink) with ptn := { (x.linkDown tetherLink).ptn with admitted := false, tetherUp := none } } : Half)
  ((({ y with sec := { y.sec with tetherReport := false } } : Half).ptnAbsent 11).discardSent true).retrainReply tetherLink

/-- The Tether has trained: from a new link-up the peer is to be admitted (again), and the half signs the one report that it sends with
its identity record (spec/17_partners.md R427, R433, R434, spec/19_security_debug_power.md R469, R478). -/
def Half.tetherTrained (x : Half) (rate : Nat) (bad : List Nat) : Half :=
  let y := x.trained tetherLink rate bad
  if y.ptn.admitted then y
  else
    let issue := !y.sec.tetherReport && y.sec.life ≠ 0 && decide (y.sec.leaves < 2 ^ 30)
    let z := if issue then y.useLeaf else y
    { z with ptn := { z.ptn with tetherUp := some z.now }, sec := { z.sec with tetherReport := true } }

/-- A link goes DOWN. -/
def State.linkLost (s : State) (h : HalfId) (i : Nat) : State :=
  if i = handoffLink then s.handoffDown
  else if i = tetherLink then s.mod h Half.tetherGone
  else s.mod h (fun x => x.linkDown i)

/-! ### Discovery of the attached dies (R379 to R382) -/

/-- One bit of CRC-32 (IEEE 802.3 polynomial, reflected). -/
def crcBit (c : BitVec 32) : BitVec 32 := if c.getLsbD 0 then (c >>> 1) ^^^ 0xEDB88320#32 else c >>> 1

/-- CRC-32 of bytes (IEEE 802.3). -/
def crc32 (l : List Byte) : BitVec 32 :=
  ~~~(l.foldl (fun (c : BitVec 32) (b : Byte) => (List.range 8).foldl (fun (d : BitVec 32) _ => crcBit d) (c ^^^ b.setWidth 32))
    0xFFFFFFFF#32)

/-- How the Captain judges a site identity record (R380). -/
inductive DieKind where
  /-- A Nirlevan compute or Sideline die of the right kind. -/
  | own
  /-- A generic site die. -/
  | generic
  /-- Any other record. -/
  | rejected
  deriving DecidableEq, Repr

/-- The judgement of R380 for the site of link i. -/
def judgeDie (i : Nat) (r : List Byte) : DieKind :=
  let vendor := bytesAt r 0 2
  let kind := bytesAt r 5 1
  if r.length ≠ 64 || (crc32 (r.take 0x3C)).toNat ≠ bytesAt r 0x3C 4 then .rejected
  else if i < 16 then (if vendor = Config.nirlevanVendor && kind = 0x02 then .own else .rejected)
  else if vendor = Config.nirlevanVendor && kind = 0x01 then .own
  else if kind = 0x10 && bytesAt r 6 1 = 0x01 then .generic
  else .rejected

/-- Partner entry of the die on link i. -/
def diePartner (i : Nat) : Nat := if i < 8 then 9 else if i < 16 then 10 else 8

/-- Links of the die on link i. -/
def dieLinks (i : Nat) : List Nat := if i < 16 then (List.range 8).map (fun k => i / 8 * 8 + k) else [16]

/-- The bullpen engines of a compute die found at boot are SPARE (R379, spec/01_two_halves.md R15); the others become ACTIVE as
their domains report power-good. -/
def Half.bullpen (x : Half) (die : Nat) : Half :=
  if x.powx.ready then x
  else { x with sched := { x.sched with engines := x.sched.engines.map (fun (e : Engine) =>
    if e.num / 9 = die && e.st = .off && x.sched.spareEngs.contains e.num then { e with st := .spare, back := .spare } else e) } }

/-- A step of Table — Die discovery fails: the link is DOWN and the step is logged (R379). -/
def Half.stepFails (x : Half) (i step : Nat) : Half := (x.linkDown i).vioLog .config 0x0B 2 5 step i

/-- Records what discovery found on link i (Table — Die discovery steps 3 to 5): the die is admitted, or the site is DISABLED
and quarantined, or, with no record read, the link is DOWN and step 3 is logged (spec/17_partners.md R426). A Nirlevan die of another
firmware version than the base image names is updated to it at once (R381). -/
def Half.discovered (x : Half) (i : Nat) (r : List Byte) : Half :=
  let n := diePartner i
  if r = [] then x.stepFails i 3
  else
    let peer : BitVec 48 := pack 48 [(40, 8, bytesAt r 5 1), (32, 8, bytesAt r 4 1), (16, 16, bytesAt r 2 2), (0, 16, bytesAt r 0 2)]
    let y := x.modLink i (fun l => { l with peer := peer, fw := BitVec.ofNat 32 (bytesAt r 8 4) })
    let takeIn := fun (gen : Bool) =>
      let z := (y.ptnFixed n (i / 8) (bytesAt r 0x0C 8)).bullpen (i / 8)
      if i = 16 then
        ({ z with ptn := { z.ptn with sites := gen }
                  sched := { z.sched with pipe := { z.sched.pipe with sideReset := false } } } : Half)
      else z
    match judgeDie i r with
    | .own =>
      (takeIn false).modLink i (fun l => { l with
        fw := BitVec.ofNat 32 (Config.dieVersion (x.runningImage 0x10) (if i < 16 then 0x06 else 0x07)) })
    | .generic => takeIn true
    | .rejected =>
      let z := (dieLinks i).foldl (fun z k => z.linkSet k .disabled) y
      let z := z.modPartner n (fun p => { p with viol := satInc p.viol, lastCls := 8 })
      if (z.partner n).st = .quarantined then z else z.quarantine n 8 1 (bytesAt r 5 1) (bytesAt r 0x0C 8)

/-! ### Commands -/

/-- A link held out of service by its partner's quarantine (spec/17_partners.md R426). -/
def Half.heldLink (x : Half) (i : Nat) : Bool :=
  ([8, 9, 10, 11].any (fun n => i ∈ partnerLinks n && (x.partner n).st = .quarantined))

/-- A LINK violation of the partner on link i; a quarantine that it brings holds the partner's links DOWN and ends their retrains
(spec/17_partners.md R426, R428). -/
def Half.linkVio (x : Half) (i code : Nat) : Half :=
  let n := if i = tetherLink then 11 else diePartner i
  let y := x.violate (.partner n) 0x04 code 3 i 0
  if (y.partner n).st ≠ .quarantined then y
  else if n = 11 then y.tetherGone
  else (partnerLinks n).foldl (fun z k => if (z.link k).st = .down then z.retrainReply k else z) y

/-- FLIT_CRC_ERROR: a flit is discarded and replayed; `again` says that it is a replay of the flit that failed before. Eight
replays without success start a retrain, counted as a LINK violation of a site's partner (R384, spec/17_partners.md R426). The
Tether's own replay follows PCIe, which retrains on the fourth (PRESUMED, log 31). -/
def execFlitCrcError (h : HalfId) (i : Nat) (again : Bool) (s : State) : Host.Outcome State Fault Refusal :=
  let x := s.half h
  let l := x.link i
  if !(x.alive && i < 19 && l.works) then .next s
  else
    let tries := if again then l.flitTries + 1 else 0
    let x := x.modLink i (fun k => { k with crc := k.crc + 1, flitTries := tries,
                                             replay := if i = handoffLink then k.replay else k.replay + 1 })
    let s := s.setHalf h x
    let s := if i = handoffLink then s.mod (other h) (fun y => y.modLink i (fun k => { k with replay := k.replay + 1 })) else s
    if tries < (if i = tetherLink then 4 else 8) then .next s
    else
      let s := s.retrain h i 3
      .next (s.mod h (fun y => if i = handoffLink then y else y.linkVio i (if i = tetherLink then 2 else 1)))

/-- LANE_FAULT_DETECTED: the parity result of a lane for the interval of 1 ms that ends; errors in 3 of its last 8 intervals
make the lane faulty, and the Captain starts a retrain (R385); a lane that becomes faulty during a retrain is taken out by it (R392). -/
def execLaneFaultDetected (h : HalfId) (i lane : Nat) (rx bad : Bool) (s : State) : Host.Outcome State Fault Refusal :=
  let x := s.half h
  let l := x.link i
  let key := lane + (if rx then 256 else 0)
  if !(x.alive && i < 18 && (l.works || l.st = .retraining) && lane < lnkData i + lnkSpares i + (if i = handoffLink then 1 else 0)) then .next s
  else
    let old := ((l.laneHist.find? (fun p => p.1 = key)).map (·.2)).getD []
    let s := s.setHalf h (x.modLink i (fun k => { k with
      laneHist := (key, (bad :: old).take 8) :: k.laneHist.filter (fun p => p.1 ≠ key) }))
    if l.works && key ∈ ((s.half h).link i).runFaulty then .next (s.retrain h i 2) else .next s

/-- SIDEBAND_LOSS at a site: a retrain and a LINK violation (R389, spec/17_partners.md R426). -/
def execSidebandLoss (h : HalfId) (i : Nat) (s : State) : Host.Outcome State Fault Refusal :=
  let x := s.half h
  if !(x.alive && i ≤ 16 && (x.link i).works) then .next s
  else .next ((s.retrain h i 4).mod h (fun y => y.linkVio i 3))

/-- The clock loads the running half's ST, STATE and STEPPED, which is not a step (spec/16_time_and_ethernet.md R412). -/
def Half.loadClock (x run : Half) : Half :=
  { x with tim := { x.tim with
      base := run.st, base0 := x.tim.local', st := run.tim.st, stepped := run.tim.stepped, freeSince := run.tim.freeSince } }

/-- A half that boots beside a running one loads its clock once the Handoff link carries traffic (R412; log 38). -/
def Half.bootClock (x run : Half) : Half :=
  if x.alive && !x.powx.ready && !x.tim.stepped && run.alive && run.powx.ready && run.tim.running then x.loadClock run else x

/-- The receive and transmit lanes change places at the other end of a link. -/
def mirrorLanes (bad : List Nat) : List Nat := bad.map (fun n => if 256 ≤ n then n - 256 else n + 256)

/-- A failed retrain: the link is tried again, goes DOWN on the third failure in a row, or at once when LNK_RETRAIN asked for it
(R389, R390). -/
def State.retrainFailed (s : State) (h : HalfId) (i : Nat) : State :=
  let l := (s.half h).link i
  let count := fun (x : Half) => x.modLink i (fun k => { k with fails := k.fails + 1 })
  let s := s.mod h count
  let s := if i = handoffLink then s.mod (other h) count else s
  let asked := l.slot.isSome || (i = handoffLink && ((s.half (other h)).link i).slot.isSome)
  if asked || 2 ≤ l.fails then s.linkLost h i
  else
    let again := fun (x : Half) => x.modLink i (fun k => { k with retrains := satInc k.retrains })
    let s := s.mod h again
    if i = handoffLink then s.mod (other h) again else s

/-- RETRAIN_COMPLETE: a retrain or a first training ends. `ok` says that the ends trained at `rate` GT/s, `bad` lists the lanes
that tested bad, and `die` is the site identity record then read (empty: none) (R379, R386, R389). A discovery that does not train fails
in step 2, or in step 1 when it found no die, of which the rate is 0. -/
def execRetrainComplete (h : HalfId) (i : Nat) (ok : Bool) (rate : Nat) (bad : List Nat) (die : List Byte) (s : State) :
    Host.Outcome State Fault Refusal :=
  let x := s.half h
  let l := x.link i
  if !(x.alive && i < 19 && (l.st = .retraining || l.st = .training)) then .next s
  else
    let reply := fun (t : State) => (t.mod h (fun y => y.retrainReply i)).mod (other h)
      (fun y => if i = handoffLink then y.retrainReply i else y)
    if x.heldLink i then .next (reply (s.linkLost h i))
    else if (!ok || rate = 0) && l.st = .training && i ≤ 16 then
      .next (reply (s.mod h (fun y => y.stepFails i (if rate = 0 then 1 else 2))))
    else if !ok then .next (reply (s.retrainFailed h i))
    else
      let all := (bad ++ l.runFaulty).eraseDups
      if i = handoffLink then
        let o := (s.half (other h)).link i
        let all := (all ++ mirrorLanes o.runFaulty).eraseDups
        if lnkWidth i all = 0 || rate = 0 then .next (reply s.handoffDown)
        else
          let t := (s.mod h (fun y => y.trained i rate all)).mod (other h) (fun y => y.trained i rate (mirrorLanes all))
          let run := t.half (other h)
          let own := t.half h
          .next (reply ((t.mod h (fun y => y.bootClock run)).mod (other h) (fun y => y.bootClock own)))
      else if i = tetherLink then
        if lnkWidth i all = 0 || rate = 0 then .next (reply (s.linkLost h i))
        else .next (reply (s.mod h (fun y => y.tetherTrained rate all)))
      else .next (reply (s.mod h (fun y =>
        let z := y.trained i rate all
        if (z.link i).works then z.discovered i die else z)))

/-- LNK_RETRAIN (R390). A link that a quarantine holds out of service is not retrained before the release. -/
def execLnkRetrain (h : HalfId) (slot : Nat) (s : State) : Host.Outcome State Fault Refusal :=
  .next (s.runMsg h slot 0x0903 { lens := [1] }
    (fun x m =>
      let i := pay m 0 8
      let st := (x.link i).st
      [{ bad := 18 < i, st := stMalformed, off := 0x10 },
       { bad := i ≤ 18 && (st = .training || st = .retraining), st := stBusy, retry := some 10000 },
       { bad := decide (i = handoffLink) && st = .disabled, st := stBusy, retry := some 100000 }])
    (fun t m =>
      let i := pay m 0 8
      if (t.half h).heldLink i then .done t stTimeout []
      else .wait ((t.retrain h i 5).mod h (fun y => y.modLink i (fun l => { l with slot := some slot })))))

/-- LINK_RECOVERY_CAUSE_CLEAR: cause 4 clears 1 ms after the retrain completes, once no other link of the half is retraining or
within its 1 ms (spec/13_bandwidth_regulation.md R350). -/
def execLinkRecoveryCauseClear (h : HalfId) (s : State) : Host.Outcome State Fault Refusal :=
  .next (s.mod h (fun x =>
    let recs := x.links.recs.map (fun (l : Link) => if l.recoveryDue.any (fun t => t ≤ x.now) then { l with recoveryDue := none } else l)
    let y : Half := { x with links := { x.links with recs := recs } }
    if recs.any (fun l => l.st = .retraining || l.recoveryDue.isSome) then y else y.cause 4 false))

/-- TETHER_LINK_UP: the Tether trains at a width and rate, and the half makes the report that it sends with its identity record
(spec/17_partners.md R433, R434, spec/19_security_debug_power.md R469, R478). -/
def execTetherLinkUp (h : HalfId) (rate : Nat) (bad : List Nat) (s : State) : Host.Outcome State Fault Refusal :=
  .next (s.mod h (fun x =>
    if !(x.alive && !(x.link tetherLink).works) || x.heldLink tetherLink || lnkWidth tetherLink bad = 0 || rate = 0 then x
    else ({ x with ptn := { x.ptn with admitted := false } } : Half).tetherTrained rate bad))

/-- TETHER_IDENTITY_RECEIVE: the peer's SYS_IDENTIFY record and report arrive; the peer is admitted as entry 11 or quarantined
(spec/17_partners.md R426, R434). -/
def execTetherIdentityReceive (h : HalfId) (serial : BitVec 64) (half : Nat) (report : List Byte) (s : State) :
    Host.Outcome State Fault Refusal :=
  .next (s.mod h (fun x =>
    if !(x.alive && (x.link tetherLink).works) || x.ptn.tetherUp.isNone || (x.partner 11).st = .quarantined then x
    else
      let ok := (x.cfg.peerSerial = 0 || serial = x.cfg.peerSerial) && half = halfCode x.me && Config.reportVerifies report
      let y : Half := { x with ptn := { x.ptn with tetherUp := none } }
      if ok then
        ({ y with ptn := { y.ptn with admitted := true } } : Half).ptnFixed 11 0 serial.toNat
          |>.modPartner 11 (fun p => { p with awaitFirst := false }) |>.announce 78
      else
        ((y.modPartner 11 (fun p => { p with viol := satInc p.viol, lastCls := 8, ident := serial })).quarantine 11 8 1 half 0).announce 78))

/-- TETHER_LINK_DOWN (spec/17_partners.md R423, R434). -/
def execTetherLinkDown (h : HalfId) (s : State) : Host.Outcome State Fault Refusal :=
  .next (s.mod h (fun x => if x.alive then x.tetherGone else x))

end Sys2Proof.Machine
end

