-- ==== Sys2Proof/Machine/Partners.lean ====
section
/-! DEFINITION. Partners: the table and the logs as messages read them, absence and release, and the dies, endpoints and tools that
reach the half (spec/17_partners.md, spec/15_die_to_die_links.md R382). -/

namespace Sys2Proof.Machine

/-- PTN_STATE code (R425). -/
def ptnCode : PtnState → Nat
  | .empty => 0
  | .present => 1
  | .absent => 2
  | .quarantined => 3

/-- A partner entry as PTN_ shows it (Table — Partner entry). -/
def Partner.word (p : Partner) : BitVec 512 :=
  pack 512 [(0, 8, p.kind.toNat), (8, 8, ptnCode p.st), (16, 8, p.attach.toNat), (32, 32, p.gen.toNat), (64, 64, p.ident.toNat),
    (128, 64, p.first.toNat), (192, 64, p.last.toNat), (256, 32, p.viol.toNat), (288, 16, p.quars.toNat),
    (304, 8, p.lastCls.toNat), (320, 64, p.release.toNat)]

/-- How long a kind may show no sign of presence, in ns (Table — Partner kinds); 0 where presence is a link's. -/
def ptnPeriod (kind : Nat) : Nat :=
  if kind = 1 then 1000000000 else if kind = 6 then 10000000000 else if kind = 7 then 60000000000 else 0

/-- Ends a quarantine (R427): the class counts clear; a camera, a function, a die or the Tether peer is restored when it next
shows itself, a link or site by a retrain, an Ethernet peer or tool at once. -/
def State.release (s : State) (h : HalfId) (n : Nat) : State :=
  let p := (s.half h).partner n
  let k := p.kind.toNat
  let seen := (k = 6 || k = 7) && (s.half h).st < p.last.toNat + ptnPeriod k
  let s := s.mod h (fun x => x.modPartner n (fun q => { q with
    st := if seen then .present else .absent, counts := [], release := 0, awaitFirst := true }))
  let back := (partnerLinks n).filter (fun i => ((s.half h).link i).st = .down || ((s.half h).link i).st = .disabled)
  let s := back.foldl (fun t i => t.retrain h i 5) s
  if n = 11 && ((s.half h).link tetherLink).works then
    s.mod h (fun x => { x with ptn := { x.ptn with tetherUp := some x.now, admitted := false }, sec := { x.sec with tetherReport := true } })
  else s

/-- PTN_RELEASE (R432). -/
def execPtnRelease (h : HalfId) (slot : Nat) (s : State) : Host.Outcome State Fault Refusal :=
  .next (s.runMsg h slot 0x0902 { lens := [1] }
    (fun x m => [{ bad := (x.partner (pay m 0 8)).st = .empty, st := stMalformed, off := 0x10 }])
    (fun t m =>
      let n := pay m 0 8
      if ((t.half h).partner n).st = .quarantined then .done (t.release h n) stOk [] else .done t stOk []))

/-- QUARANTINE_RELEASE_TIMEOUT: the RELEASE_TIME of an entry has come (R427). -/
def execQuarantineReleaseTimeout (h : HalfId) (n : Nat) (s : State) : Host.Outcome State Fault Refusal :=
  let x := s.half h
  let p := x.partner n
  if x.alive && p.st = .quarantined && p.release ≠ 0 && p.release.toNat ≤ x.st then .next (s.release h n) else .next s

/-- PARTNER_ABSENT_TIMEOUT: a camera, Ethernet peer or tool has shown no sign of presence for its kind's period (R423). -/
def execPartnerAbsentTimeout (h : HalfId) (n : Nat) (s : State) : Host.Outcome State Fault Refusal :=
  .next (s.mod h (fun x =>
    let p := x.partner n
    let d := ptnPeriod p.kind.toNat
    if x.alive && d ≠ 0 && p.last.toNat + d ≤ x.st then x.ptnAbsent n else x))

/-- The partners that PTN_LIST's short form describes: the first non-EMPTY entry from FIRST, and the one after it (R430). -/
def Half.nextPartner (x : Half) (first : Nat) : Option Partner :=
  x.ptn.entries.find? (fun p => first ≤ p.num && p.st ≠ .empty)

/-- PTN_LIST (R430). With no entry at or after FIRST the model answers zeros with NEXT 0x100 (log 32). -/
def execPtnList (h : HalfId) (slot : Nat) (s : State) : Host.Outcome State Fault Refusal :=
  .next (s.runMsg h slot 0x0901 { lens := [1], long := true }
    (fun _ m => if msgLong m then [{ bad := inLen m ≠ 0, st := stMalformed, off := 0x18 }] else [])
    (fun t m =>
      let x := t.half h
      if msgLong m then
        let bytes := (x.ptn.entries.flatMap (fun p => leBytes 64 p.word.toNat)).take (outLen m / 64 * 64)
        .done (t.setHalf h (x.commitBytes (msgCtx m) (placeBytes (outAddr m) bytes)).settle) stOk [(0x00, 32, bytes.length)]
      else match x.nextPartner (pay m 0 8) with
        | none => .done t stOk [(0x1C, 16, 0x100)]
        | some p => .done t stOk [(0x00, 8, p.num), (0x01, 8, p.kind.toNat), (0x02, 8, ptnCode p.st), (0x03, 8, p.attach.toNat),
            (0x04, 32, p.gen.toNat), (0x08, 64, p.ident.toNat), (0x10, 64, p.last.toNat), (0x18, 32, p.viol.toNat),
            (0x1C, 16, ((x.nextPartner (p.num + 1)).map (·.num)).getD 0x100)]))

/-- The entries of a log from FIRST_SEQ, at most `cap`, and NEXT_SEQ; W is the next ENTRY_SEQ (R431). -/
def logCopy (log : List (BitVec 256)) (w : BitVec 32) (first cap : Nat) : List (BitVec 256) × Nat :=
  let d := (w - BitVec.ofNat 32 first).toNat
  if d = 0 || 2 ^ 31 < d then ([], w.toNat)
  else
    let k := min d log.length
    let es := (log.drop (log.length - k)).take cap
    (es, (w.toNat + 2 ^ 32 - k + es.length) % 2 ^ 32)

/-- The named log and its next ENTRY_SEQ (R431). -/
def Half.logOf (x : Half) (n : Nat) : List (BitVec 256) × BitVec 32 :=
  if n = 0 then (x.ptn.log, x.ptn.written) else if n = 1 then (x.mem.log, x.mem.logSeq) else (x.links.log, x.links.logSeq)

/-- LOG, its reserved byte and FIRST_SEQ of a LOG_READ, from the payload or from the input buffer (R431). -/
def logArgs (x : Half) (m : Msg) : Nat × Nat × Nat :=
  if msgLong m then
    let v := x.vnat (msgCtx m) (inAddr m) 8
    (v % 256, v / 256 % 256, v / 2 ^ 32)
  else (pay m 0 8, pay m 1 8, pay m 4 32)

/-- LOG_READ (R431). -/
def execLogRead (h : HalfId) (slot : Nat) (s : State) : Host.Outcome State Fault Refusal :=
  .next (s.runMsg h slot 0x0A01 { lens := if 60 ≤ slot then [8] else [], long := true }
    (fun x m =>
      let a := logArgs x m
      let at' := fun o => if msgLong m then 0x10 else 0x10 + o
      [{ bad := msgLong m && decide (inLen m ≠ 8), st := stMalformed, off := 0x18 },
       { bad := 2 < a.1, st := stMalformed, off := at' 0 }, { bad := a.2.1 ≠ 0, st := stMalformed, off := at' 1 }])
    (fun t m =>
      let x := t.half h
      let a := logArgs x m
      let l := x.logOf a.1
      let r := logCopy l.1 l.2 a.2.2 (if msgLong m then outLen m / 32 else 1)
      if msgLong m then
        let bytes := r.1.flatMap (fun e => leBytes 32 e.toNat)
        .done (t.setHalf h (x.commitBytes (msgCtx m) (placeBytes (outAddr m) bytes)).settle) stOk
          [(0x00, 32, bytes.length), (0x04, 32, r.2)]
      else .done t stOk [(0x00, 32, r.1.length), (0x04, 32, r.2), (0x08, 256, ((r.1.head?).map (·.toNat)).getD 0)]))

/-- ROOT_PORT_LINK_DOWN: the link goes down, or with `fn` that function is removed by surprise; the port event interrupts
(R423, spec/14_cores.md R374). -/
def execRootPortLinkDown (h : HalfId) (fn : Option (BitVec 48)) (s : State) : Host.Outcome State Fault Refusal :=
  .next (s.mod h (fun x =>
    if !x.alive then x
    else
      let gone := x.ptn.entries.filter (fun p => 16 ≤ p.num && p.kind = 5 && fn.all (fun f => p.ident = f.setWidth 64))
      (gone.foldl (fun y p => y.ptnAbsent p.num) x).announce 77))

/-- The source of a PCIe function's violation. -/
def Half.fnSrc (x : Half) (fn : BitVec 48) : VSrc :=
  match x.ptn.entries.find? (fun p => 16 ≤ p.num && p.kind = 5 && p.ident = fn.setWidth 64 && p.st ≠ .empty) with
  | some p => .partner p.num
  | none => .untracked fn.toNat

/-- All n bytes lie in mapped frame pages that allow the access. -/
def Half.dmaOk (x : Half) (ctx va n : Nat) (store : Bool) : Bool :=
  if store then x.writable ctx va n else x.mappedPlain ctx va n

/-- PCIE_ENDPOINT_DMA: served in mapped client pages, otherwise refused as a violation of class 0x03; a quarantined function's bus
mastering is disabled (R3, R426). A function that makes requests has been enumerated by the operating system's driver (R423). -/
def execPcieEndpointDma (h : HalfId) (fn : BitVec 48) (req : EndpointReq) (s : State) : Host.Outcome State Fault Refusal :=
  let x := (s.half h)
  if !x.alive || x.powx.subReset.contains 13 then .next s
  else
    let x := x.ptnArrive 5 0 fn.toNat
    let src := x.fnSrc fn
    let quar : Bool := match src with
      | .partner n => (x.partner n).st = .quarantined
      | _ => false
    if quar then .next { (s.setHalf h x) with resp := .dropped }
    else
      let vio := fun (code addr : Nat) => { (s.setHalf h (x.violate src 0x03 code 2 0 addr)) with resp := Resp.busError }
      match req with
      | .write c va data =>
        if x.dmaOk c va data.length true then
          .next { (s.setHalf h (x.commitBytes c (placeBytes va data))) with resp := .ok }
        else .next (vio 2 va)
      | .read c va n =>
        if !x.dmaOk c va n false then .next (vio 2 va)
        else match x.firstBad c [(va, n)] with
          | some b => .next { (s.setHalf h (x.apError c b)) with resp := .busError }
          | none => .next { (s.setHalf h x) with resp := .data (x.vnat c va n) }
      | .outside a => .next (vio 2 a)
      | .malformed => .next (vio 1 0)
      | .unexpected => .next (vio 3 0)

/-- The site window that holds n bytes at an address of a context (R382). -/
def Half.siteWin (x : Half) (ctx va n : Nat) : Option SiteWin :=
  (x.cfg.siteWins.take 4).find? (fun w => w.ctx = ctx && w.client = x.ctxClient ctx && w.va ≤ va && va + n ≤ w.va + w.len)

/-- A generic site die is admitted and its link carries traffic. -/
def Half.siteDie (x : Half) : Bool := x.alive && x.ptn.sites && (x.link 16).works && (x.partner 8).st ≠ .quarantined

/-- SITE_DIE_WRITE: visible when it arrives; outside the windows it is dropped and counted (R382). -/
def execSiteDieWrite (h : HalfId) (ctx va : Nat) (data : List Byte) (s : State) : Host.Outcome State Fault Refusal :=
  .next (s.mod h (fun x =>
    if !x.siteDie then x
    else if (x.siteWin ctx va data.length).isSome && x.writable ctx va data.length then
      (x.commitBytes ctx (placeBytes va data)).settle
    else x.violate (.partner 8) 0x08 2 1 0 va))

/-- SITE_DIE_FILL: a FILL on a sync word in a window; on a full word it does not happen yet (R382, log 33). -/
def execSiteDieFill (h : HalfId) (ctx va : Nat) (v : BitVec 64) (s : State) : Host.Outcome State Fault Refusal :=
  .next (s.mod h (fun x =>
    if !x.siteDie then x
    else if (x.siteWin ctx va 8).isSome && !x.syncBad ctx va then
      (if (x.wordAt ctx va).full then x else (x.fillWord ctx va v).settle)
    else x.violate (.partner 8) 0x08 2 1 0 va))

/-- MGMT_BUS_FRAMING_ERROR: NAKed and counted against the tool (R426). -/
def execMgmtBusFramingError (h : HalfId) (tool : Nat) (s : State) : Host.Outcome State Fault Refusal :=
  .next (s.mod h (fun x =>
    if !x.alive || x.toolIgnored (.tool tool) then x else x.violate (x.agentSrc (.tool tool)) 0x09 1 2 0 tool))

/-- MGMT_ALERT_RESPONSE: a tool's read of the alert response address releases the shared MGMT_ALERT_N
(spec/22_package_and_electrical.md R551). -/
def execMgmtAlertResponse (h : HalfId) (s : State) : Host.Outcome State Fault Refusal :=
  let clear := fun (x : Half) => { x with mbx := { x.mbx with alert := false } }
  .next ((s.mod h clear).mod (other h) clear)

end Sys2Proof.Machine
end

