-- ==== Sys2Proof/Machine/Capture.lean ====
section
/-! DEFINITION. Captures: what a receiver or a flow makes of its data, the capture ring, and the duplication of streams to the
other half (spec/08_input_pipeline.md R201 to R209, spec/15_die_to_die_links.md R395, R396). -/

namespace Sys2Proof.Machine

/-! ### The capture ring (R206 to R208) -/

/-- A capture that goes into a ring. -/
structure Entry where
  /-- DATA_KIND. -/
  kind : Nat
  /-- DUPLICATE, PROTOCOL_ERROR and TRUNCATED of the descriptor, at their bits. -/
  flags : Nat
  /-- CAPTURE_TIME. -/
  time : Nat
  /-- MEDIA_TS. -/
  mediaTs : Nat
  /-- WIDTH. -/
  w : Nat
  /-- HEIGHT. -/
  h : Nat
  /-- Data as stored. -/
  data : List Byte

/-- Changes the binding with a number. -/
def Half.modBinding (x : Half) (n : Nat) (f : Binding → Binding) : Half :=
  x.modPipe (fun p => { p with bindings := p.bindings.map (fun b => if b.num = n then f b else b) })

/-- CONSUMED of a ring, as the client last wrote it. -/
def Half.consumed (x : Half) (b : Binding) : Nat := x.vnat b.ctx (b.ring + 4) 4

/-- Counts dropped captures in DROPPED (R207). -/
def Half.dropCaptures (x : Half) (b : Binding) (n : Nat) : Half :=
  let d := b.dropped + BitVec.ofNat 32 n
  (x.modBinding b.num (fun k => { k with dropped := d })).commitBytes b.ctx (placeBytes (b.ring + 8) (leBytes 4 d.toNat))

/-- The entry that the next capture takes is unconsumed (R207). -/
def Half.entryHeld (x : Half) (b : Binding) : Bool :=
  (b.produced - BitVec.ofNat 32 (x.consumed b)).toNat = 2 ^ b.log2 || x.pinned b.num (some (b.produced.toNat % 2 ^ b.log2))

/-- The 64 bytes of a capture descriptor (Table — Capture descriptor). PHASE is 1 on the first pass (spec/02 R63). -/
def captureDesc (b : Binding) (e : Entry) (va len before : Nat) : List Byte :=
  let q := b.produced.toNat
  leBytes 64 (pack 512 [(0, 32, q), (32, 16, e.flags + (1 - q / 2 ^ b.log2 % 2)), (48, 8, b.source), (56, 8, e.kind), (64, 64, e.time),
    (128, 64, va), (192, 32, len), (224, 16, e.w), (240, 16, e.h), (256, 32, e.mediaTs), (288, 32, before)]).toNat

/-- Writes a capture: its data, its descriptor, then PRODUCED (R208); with the entry unconsumed it is dropped (R207). -/
def Half.putCapture (x : Half) (b : Binding) (e : Entry) : Half :=
  if x.entryHeld b then x.dropCaptures b 1
  else
    let i := b.produced.toNat % 2 ^ b.log2
    let va := b.data + i * b.slotBytes
    let data := e.data.take b.slotBytes
    let before := (b.dropped - b.droppedLast).toNat
    let y := x.commitBytes b.ctx (placeBytes va data)
    let y := y.commitBytes b.ctx (placeBytes (b.ring + 64 + 64 * i) (captureDesc b e va data.length before))
    let p := b.produced + 1
    (y.commitBytes b.ctx (placeBytes b.ring (leBytes 4 p.toNat))).modBinding b.num
      (fun k => { k with produced := p, droppedLast := k.dropped })

/-- The binding of a source. -/
def Half.sourceBinding (x : Half) (source : Nat) : Option Binding := x.sched.pipe.bindings.find? (fun b => b.source = source)

/-! ### CSI-2 data (R202, R206); the data-type codes and the packings are those of MIPI CSI-2 (PRESUMED, log 28) -/

/-- DATA_KIND of a CSI-2 data type, none for one outside Table — Input sources. -/
def csiKind (dt : Nat) : Option Nat :=
  if dt = 0x2A then some 0x01 else if dt = 0x2B then some 0x02 else if dt = 0x2C then some 0x03 else if dt = 0x2E then some 0x04
  else if dt = 0x1E then some 0x05 else if dt = 0x24 then some 0x06 else none

/-- A 16-bit little-endian sample. -/
def sample16 (v : Nat) : List Byte := leBytes 2 v

/-- RAW10 bytes, four pixels in five, unpacked to 16-bit samples. -/
def unpack10 : List Byte → List Byte
  | a :: b :: c :: d :: l :: rest =>
    let low := fun k => l.toNat >>> (2 * k) % 4
    sample16 (a.toNat * 4 + low 0) ++ sample16 (b.toNat * 4 + low 1) ++ sample16 (c.toNat * 4 + low 2) ++
      sample16 (d.toNat * 4 + low 3) ++ unpack10 rest
  | _ => []

/-- RAW12 bytes, two pixels in three, unpacked to 16-bit samples. -/
def unpack12 : List Byte → List Byte
  | a :: b :: l :: rest => sample16 (a.toNat * 16 + l.toNat % 16) ++ sample16 (b.toNat * 16 + l.toNat / 16) ++ unpack12 rest
  | _ => []

/-- RAW16 bytes, the high byte of each pixel first, as 16-bit samples. -/
def unpack16 : List Byte → List Byte
  | a :: b :: rest => sample16 (a.toNat * 256 + b.toNat) ++ unpack16 rest
  | _ => []

/-- Wire data as they are stored (R206). -/
def storedData (kind : Nat) (l : List Byte) : List Byte :=
  if kind = 0x02 then unpack10 l else if kind = 0x03 then unpack12 l else if kind = 0x04 then unpack16 l else l

/-! ### Forwarding (R209, R393, R395, R396) -/

/-- The number that a list holds for a source. -/
def seqOf (l : List (Nat × Nat)) (source : Nat) : Option Nat := (l.find? (fun p => p.1 = source)).map (·.2)

/-- The list with the number of a source replaced. -/
def setSeq (l : List (Nat × Nat)) (source v : Nat) : List (Nat × Nat) := (source, v) :: l.filter (fun p => p.1 ≠ source)

/-- Sends a capture to the other half, or drops it at the sender during a retrain or when SAFETY traffic of 4 MiB is queued. -/
def Half.forward (x : Half) (b : Binding) (e : Entry) : Half :=
  let q := (seqOf x.links.fwdSeq b.source).getD 0
  let y : Half := { x with links := { x.links with fwdSeq := setSeq x.links.fwdSeq b.source (q + 1) } }
  let m := LinkMsg.capture b.source e.kind e.flags e.time e.mediaTs e.w e.h q e.data
  let l := x.link handoffLink
  if l.st = .retraining || (y.isSafety m && 4194304 < y.safetyQueued + e.data.length) then
    ({ y with links := { y.links with fwdDropped := satInc y.links.fwdDropped } } : Half).lnkEvent handoffLink
  else if l.works then y.send m
  else y

/-- A capture of a binding: its ring, and the other half when FORWARD is set and that half has bound the matching source. The
ring of the origin is never affected by forwarding. -/
def State.captured (s : State) (h : HalfId) (b : Binding) (e : Entry) : State :=
  let s := s.mod h (fun x => x.putCapture b e)
  if b.forward && b.source < 0x40 && ((s.half (other h)).sourceBinding (b.source + 0x40)).isSome then
    s.mod h (fun x => x.forward b e)
  else s

/-! ### Commands -/

/-- A violation of a camera for each failed packet (R203, spec/17_partners.md R426). -/
def Half.csiVio (x : Half) (r cls code : Nat) : Nat → Half
  | 0 => x
  | n + 1 => (x.csiVio r cls code n).violate (.partner r) cls code 1 r 0

/-- A capture of a CSI-2 receiver (R201 to R203): its violations first; a receiver held in reset by its camera's quarantine
captures nothing. -/
def State.csiCapture (s : State) (h : HalfId) (c : Capture) : State :=
  let r := c.source
  let x := s.half h
  if (x.partner r).st = .quarantined || x.ptn.sites then s
  else
    let x := (x.ptnFixed r r 0).modPartner r (fun p => { p with awaitFirst := false })
    match csiKind (c.select / 16), x.sourceBinding r with
    | some kind, some b =>
      if b.select ≠ c.select then s.setHalf h x
      else
        let data := storedData kind c.data
        let long := b.slotBytes < data.length
        let y := ((x.csiVio r 0x01 1 c.ecc).csiVio r 0x01 2 c.crc).csiVio r 0x02 1 (b2n c.cut)
        let y := y.csiVio r 0x02 2 (b2n long)
        let flags := 4 * b2n (decide (0 < c.ecc + c.crc)) + 2 * b2n (c.cut || long)
        let s := s.setHalf h y
        if (y.partner r).st = .quarantined then s
        else if y.sched.pipe.sideReset || !(y.link 16).works then s.mod h (fun z => z.dropCaptures b 1)
        else s.captured h b { kind := kind, flags := flags, time := c.time, mediaTs := 0, w := c.w, h := c.h, data := data }
    | _, _ => s.setHalf h x

/-- The oldest image or access unit of a flow whose packets have arrived becomes a capture (R201, R202). -/
def State.flowCapture (s : State) (h : HalfId) (source : Nat) : State :=
  match takeFirst (fun (c : Capture) => if c.source = source then some c else none) (s.half h).sched.pipe.whole,
    (s.half h).sourceBinding source with
  | none, _ => s
  | some (_, rest), none => s.mod h (fun z => z.modPipe (fun p => { p with whole := rest }))
  | some (c, rest), some b =>
    let s := s.mod h (fun z => z.modPipe (fun p => { p with whole := rest }))
    if b.select ≠ c.select then s
    else
      let kind := if c.select = 0 then 0x11 else 0x10
      let long := b.slotBytes < c.data.length
      if (s.half h).sched.pipe.sideReset then s.mod h (fun z => z.dropCaptures b 1)
      else s.captured h b { kind := kind, flags := 2 * b2n (c.cut || long), time := c.time, mediaTs := c.mediaTs, w := 0, h := 0
                            data := c.data }

/-- CAPTURE_WRITE (R201 to R209). For a CSI-2 source the operand is what the receiver took from the wire; for a flow it names the source,
whose oldest assembled image or access unit is written (log 28). -/
def execCaptureWrite (h : HalfId) (c : Capture) (s : State) : Host.Outcome State Fault Refusal :=
  if !(s.half h).alive then .next s
  else if c.source < 8 then .next (s.csiCapture h c)
  else if 0x20 ≤ c.source && c.source ≤ 0x3F then .next (s.flowCapture h c.source)
  else .next s

/-- ARRIVAL_MARK: the endpoint's write to the mark address completes at the root port (R201). -/
def execArrivalMark (h : HalfId) (s : State) : Host.Outcome State Fault Refusal :=
  let x := s.half h
  match x.alive && !x.powx.subReset.contains 13, x.sourceBinding 0x10 with
  | true, some b =>
    if x.sched.pipe.sideReset then .next (s.mod h (fun y => y.dropCaptures b 1))
    else .next (s.captured h b { kind := 0x20, flags := 0, time := x.st, mediaTs := 0, w := 0, h := 0, data := [] })
  | _, _ => .next s

/-- FORWARDED_CAPTURE_RECEIVE: the first forwarded capture that waits on the Handoff link goes into the binding of its duplicated
source, with DUPLICATE set; a gap in its forward sequence counts as drops (R396). -/
def execForwardedCaptureReceive (h : HalfId) (s : State) : Host.Outcome State Fault Refusal :=
  let o := s.half (other h)
  match o.takeOut (fun m => match m with
      | .capture src kind flags time ts w hh q data => some (src, q, { kind := kind, flags := flags, time := time, mediaTs := ts, w := w, h := hh, data := data : Entry })
      | _ => none) with
  | none => .next s
  | some ((src, q, e), rest) =>
    if !((s.half h).alive && (s.half h).handoffUp) then .next s
    else
      let s := s.setHalf (other h) { o with links := { o.links with outbox := rest } }
      .next (s.mod h (fun x =>
        let gap := q - (seqOf x.links.fwdSeen src).getD q
        let x : Half := { x with links := { x.links with fwdSeen := setSeq x.links.fwdSeen src (q + 1) } }
        match x.sourceBinding (0x40 + src) with
        | none => x
        | some b =>
          let x := if gap = 0 then x else x.dropCaptures b gap
          match x.sourceBinding (0x40 + src) with
          | some b =>
            if x.sched.pipe.sideReset then x.dropCaptures b 1
            else
              let long := b2n (decide (b.slotBytes < e.data.length) && e.flags / 2 % 2 = 0)
              x.putCapture b { e with flags := e.flags + 8 + 2 * long }
          | none => x))

end Sys2Proof.Machine
end

