-- ==== Sys2Proof/Machine/Clients.lean ====
section
/-! DEFINITION. The client, context and queue family of messages (spec/02_captain_and_mailboxes.md R50 to R57,
spec/11_scheduling_and_sync.md R286 to R300). -/

namespace Sys2Proof.Machine

/-- Contexts of a client. -/
def Half.ctxCount (x : Half) (cl : Nat) : Nat := (x.sched.ctxs.filter (fun k => k.client = cl)).length

/-- Queues of a client. -/
def Half.queueCount (x : Half) (cl : Nat) : Nat := (x.sched.queues.filter (fun q => x.ctxClient q.ctx = cl)).length

/-- The lowest free client ID in 1 to 255 (R50). -/
def Half.freeClient (x : Half) : Nat := (lowestFree (x.sched.clients.map (·.id)) 1 255).getD 0

/-- CLIENT_REGISTER (R50, R51). -/
def execClientRegister (h : HalfId) (slot : Nat) (s : State) : Host.Outcome State Fault Refusal :=
  .next (s.runMsg h slot 0x0201 { lens := [8] }
    (fun x m => [{ bad := decide (pay m 0 16 = 0), st := stMalformed, off := 0x10 }, rsv m 0x02 0 16,
      { bad := decide (pay m 4 32 = 0), st := stMalformed, off := 0x14 },
      { bad := decide (4095 < pay m 0 16), st := stLimit, off := 0x10 },
      { bad := decide (524288 < pay m 4 32), st := stLimit, off := 0x14 },
      { bad := decide (256 ≤ x.sched.clients.length), st := stBusy, retry := some 10000 }])
    (fun t m =>
      let id := (t.half h).freeClient
      let c : Client := { id := id, maxCtx := pay m 0 16, maxQ := pay m 4 32 }
      .done (t.mod h (fun x => { x with sched := { x.sched with clients := x.sched.clients ++ [c] } })) stOk [(0, 8, id)]))

/-- A released client's slots go FREE, once their message has completed (R36). -/
def Half.freeSlots (x : Half) (cl : Nat) : Half :=
  { x with mbx := { x.mbx with slots := x.mbx.slots.map (fun k =>
      if k.ownerValid && k.ownerClient.toNat = cl then
        if k.st = .owned || k.st = .done then freedSlot k
        else if k.st = .posted || k.st = .acked then { k with freeOnDone := true } else k
      else k) } }

/-- Releases a client: every context is torn down, its slots are freed, its doorbells are unbound with its queues (R288). -/
def Half.releaseClient (x : Half) (cl : Nat) : Half :=
  let y := ((x.sched.ctxs.filter (fun k => k.client = cl)).map (·.id)).foldl (fun y c => y.teardown c) x
  let y := y.freeSlots cl
  { y with sched := { y.sched with clients := y.sched.clients.filter (fun k => k.id ≠ cl) } }

/-- CLIENT_RELEASE (spec/11 R288). -/
def execClientRelease (h : HalfId) (slot : Nat) (s : State) : Host.Outcome State Fault Refusal :=
  .next (s.runMsg h slot 0x0202 { lens := [1] }
    (fun x m => [{ bad := decide (pay m 0 8 = 0) || (x.client (pay m 0 8)).isNone, st := stDenied, off := 0x10 }])
    (fun t m => .done (t.mod h (fun x => (x.releaseClient (pay m 0 8)).settle)) stOk []))

/-- CTX_CREATE (spec/11 R286, spec/02 R51). -/
def execCtxCreate (h : HalfId) (slot : Nat) (s : State) : Host.Outcome State Fault Refusal :=
  .next (s.runMsg h slot 0x0203 { lens := [8] }
    (fun x m =>
      let cl := msgClient m
      let tier := payBits m 0 0 2
      [{ bad := decide (tier = 0) && decide (cl ∉ x.cfg.chainClients), st := stDenied, off := 0x10 },
       { bad := decide (tier = 1) && decide (cl ∉ x.cfg.rtClients), st := stDenied, off := 0x10 },
       rsv m 0 2 6, rsv m 1 0 56,
       { bad := decide (cl ≠ 0) && (x.client cl).any (fun k => k.maxCtx ≤ x.ctxCount cl), st := stLimit, off := 0x0C },
       { bad := decide (4096 ≤ x.sched.ctxs.length), st := stBusy, retry := some 10000 }])
    (fun t m =>
      let x := t.half h
      let id := (lowestFree (x.sched.ctxs.map (·.id)) 1 4095).getD 0
      let c : Ctx := { id := id, client := msgClient m, tier := payBits m 0 0 2 }
      .done (t.mod h (fun x => { x with sched := { x.sched with ctxs := x.sched.ctxs ++ [c] } })) stOk [(0, 12, id)]))

/-- CTX_DESTROY (spec/11 R287, R288, R297). -/
def execCtxDestroy (h : HalfId) (slot : Nat) (s : State) : Host.Outcome State Fault Refusal :=
  .next (s.runMsg h slot 0x0204 { lens := [0] }
    (fun _ m => [{ bad := decide (msgCtx m = 0), st := stDenied, off := 0x0A }])
    (fun t m => .done (t.mod h (fun x => (x.teardown (msgCtx m)).settle)) stOk []))

/-- QUEUE_CREATE (R51, R52). It writes nothing into the ring header, so CMD_HEAD there holds what the client left until the first fetch:
the model's choice (R54, log 83). -/
def execQueueCreate (h : HalfId) (slot : Nat) (s : State) : Host.Outcome State Fault Refusal :=
  .next (s.runMsg h slot 0x0205 { lens := [0x20] }
    (fun x m =>
      let c := msgCtx m
      let cl := msgClient m
      let lg := pay m 0x18 8
      let n := 2 ^ lg
      let okLog := 4 ≤ lg && lg ≤ 16
      [{ bad := decide (vaLimit ≤ pay m 0 64) || decide (pay m 0 64 % 4096 ≠ 0) ||
           (okLog && !(x.mappedPlain c (pay m 0 64) (n * 128))), st := stMalformed, off := 0x10 },
       { bad := decide (vaLimit ≤ pay m 8 64) || decide (pay m 8 64 % 4096 ≠ 0) ||
           (okLog && !(x.writable c (pay m 8 64) (n * 32))), st := stMalformed, off := 0x18 },
       { bad := decide (vaLimit ≤ pay m 0x10 64) || decide (pay m 0x10 64 % 64 ≠ 0) || !(x.writable c (pay m 0x10 64) 64)
         st := stMalformed, off := 0x20 },
       rsv m 0x19 0 56,
       { bad := !okLog, st := stLimit, off := 0x28 },
       { bad := decide (cl ≠ 0) && (x.client cl).any (fun k => k.maxQ ≤ x.queueCount cl), st := stLimit, off := 0x0C },
       { bad := decide (524288 ≤ x.sched.queues.length), st := stBusy, retry := some 10000 }])
    (fun t m =>
      let x := t.half h
      let id := (lowestFree (x.sched.queues.map (·.id)) 0 524288).getD 0
      let q : Queue := { id := id, ctx := msgCtx m, cmdRing := pay m 0 64, cplRing := pay m 8 64, header := pay m 0x10 64
                         log2 := pay m 0x18 8 }
      .done (t.mod h (fun x => { x with sched := { x.sched with queues := x.sched.queues ++ [q] } })) stOk [(0, 19, id)]))

/-- The QUEUE_ID of a message names a queue of its context (R53). -/
def Half.queueOf (x : Half) (m : Msg) : Option Queue :=
  x.sched.queues.find? (fun q => q.id = payBits m 0 0 19 && q.ctx = msgCtx m)

/-- QUEUE_DESTROY (R53). -/
def execQueueDestroy (h : HalfId) (slot : Nat) (s : State) : Host.Outcome State Fault Refusal :=
  .next (s.runMsg h slot 0x0206 { lens := [4] }
    (fun x m => [rsv m 0 19 13, { bad := (x.queueOf m).isNone, st := stMalformed, off := 0x10 }])
    (fun t m => .done (t.mod h (fun x =>
      let id := payBits m 0 0 19
      let y := x.endCmds ((x.sched.cmds.filter (fun c => c.queue = id)).map (·.id)) stDiscarded
      ({ y with sched := { y.sched with queues := y.sched.queues.filter (fun q => q.id ≠ id) } } : Half).settle)) stOk []))

/-- QUEUE_BIND_DOORBELL (R53, R57). -/
def execQueueBindDoorbell (h : HalfId) (slot : Nat) (s : State) : Host.Outcome State Fault Refusal :=
  .next (s.runMsg h slot 0x0207 { lens := [8] }
    (fun x m =>
      let d := pay m 4 16
      [{ bad := decide (d / 16 ≠ msgClient m), st := stDenied, off := 0x14 },
       rsv m 0 19 13, rsv m 6 0 16,
       { bad := (x.queueOf m).isNone || (x.queueOf m).any (fun q => q.doorbell.isSome), st := stMalformed, off := 0x10 },
       { bad := x.sched.queues.any (fun q => q.doorbell = some d), st := stMalformed, off := 0x14 },
       { bad := decide (d % 16 = 15), st := stLimit, off := 0x14 }])
    (fun t m => .done (t.mod h (fun x => x.modQueue (payBits m 0 0 19) (fun q => { q with doorbell := some (pay m 4 16) })))
      stOk []))

/-- CLIENT_COUNTERS (spec/11 R299, R300); a client that is not registered is answered as malformed (log 22). -/
def execClientCounters (h : HalfId) (slot : Nat) (s : State) : Host.Outcome State Fault Refusal :=
  .next (s.runMsg h slot 0x020A { lens := [1] }
    (fun x m => [{ bad := decide (msgClient m ≠ 0) && decide (pay m 0 8 ≠ msgClient m), st := stDenied, off := 0x10 },
      { bad := (x.client (pay m 0 8)).isNone, st := stMalformed, off := 0x10 }])
    (fun t m =>
      let x := t.half h
      let c := (x.client (pay m 0 8)).getD {}
      .done t stOk [(0x00, 64, c.submitted.toNat), (0x08, 64, c.completed.toNat), (0x10, 64, c.killed.toNat),
        (0x18, 64, c.discarded.toNat), (0x20, 64, x.st)]))

end Sys2Proof.Machine
end

