-- ==== Sys2Proof/Machine/Mailbox.lean ====
section
/-! DEFINITION. The mailbox family: slot ownership, the inbound message, acknowledgement, and the three system messages
(spec/02_captain_and_mailboxes.md, spec/00_scope.md R4). -/

namespace Sys2Proof.Machine

/-- MBX_OWNER_CLAIM: a store of MBX_OWNER with VALID = 1 (R35). -/
def execMbxOwnerClaim (h : HalfId) (ag : Agent) (slot : Nat) (client : BitVec 8) (s : State) :
    Host.Outcome State Fault Refusal :=
  .next (s.mod h (fun x => if !x.alive || x.toolIgnored ag then x
    else if reaches ag slot then x.ownerStore ag slot true client else x.slotRefused ag slot 0x80))

/-- MBX_OWNER_RELEASE: a store of MBX_OWNER with VALID = 0 (R35). -/
def execMbxOwnerRelease (h : HalfId) (ag : Agent) (slot : Nat) (s : State) : Host.Outcome State Fault Refusal :=
  .next (s.mod h (fun x => if !x.alive || x.toolIgnored ag then x
    else if reaches ag slot then x.ownerStore ag slot false 0 else x.slotRefused ag slot 0x80))

/-- MBX_IN_WRITE: a 64-bit word, or with `wide` false a 32-bit half word, of MBX_IN (R34). A word number beyond the message is
an offset outside MBX_IN, to which this command does not go. -/
def execMbxInWrite (h : HalfId) (ag : Agent) (slot : Nat) (wide : Bool) (word : Nat) (v : BitVec 64) (s : State) :
    Host.Outcome State Fault Refusal :=
  let size := if wide then 8 else 4
  .next (s.mod h (fun x => if !x.alive || x.toolIgnored ag || 64 < (word + 1) * size then x
    else if reaches ag slot then x.inStore slot (word * size) size v.toNat else x.slotRefused ag slot (word * size)))

/-- MESSAGE_ACKNOWLEDGE: the Captain takes the message whose doorbell arrived first (R42, R43). -/
def execMessageAcknowledge (h : HalfId) (s : State) : Host.Outcome State Fault Refusal :=
  .next (s.mod h Half.acknowledge)

/-- SYS_NOP (R49). -/
def execSysNop (h : HalfId) (slot : Nat) (s : State) : Host.Outcome State Fault Refusal :=
  .next (s.runMsg h slot 0x0100 { lens := [0] } (fun _ _ => []) (fun t _ => .done t stOk []))

/-- The identification record of a half (spec/00_scope.md Table — SYS_IDENTIFY outbound payload). -/
def identFields (x : Half) (serial : BitVec 64) : List (Nat × Nat × Nat) :=
  [(0x00, 16, 0x8400), (0x02, 8, 0xB0), (0x03, 8, 0x01), (0x04, 8, halfCode x.me), (0x08, 32, x.ident.captainFw.toNat),
   (0x0C, 32, x.ident.baseImage.toNat), (0x10, 64, serial.toNat)]

/-- SYS_IDENTIFY (spec/00_scope.md R4). -/
def execSysIdentify (h : HalfId) (slot : Nat) (s : State) : Host.Outcome State Fault Refusal :=
  .next (s.runMsg h slot 0x0101 { lens := [0] } (fun _ _ => [])
    (fun t _ => .done t stOk (identFields (t.half h) t.dev.serial)))

/-- MODE code (R49). -/
def modeCode : DevMode → Nat
  | .dual => 0
  | .mirror => 1
  | .solo => 2

/-- Power-state code (R49, spec/20_power_thermal_reset.md R495). -/
def pwrCode : PwrState → Nat
  | .run => 0
  | .dim => 1
  | .doze => 2
  | .hibernate => 3
  | .off => 4

/-- OTHER_STATE as the answering half x sees it (R49): a running half that neither path reaches is unknown; one that is off, asleep
or in its safe state is known by the path on which it went there (log 21). -/
def otherState (x o : Half) : Nat :=
  if o.alive && !x.handoffStands && !x.ump.peerBus then 7
  else if o.umpx.safe then 5 else if o.powx.held then 6 else pwrCode o.pow.st

/-- CHAIN_HALF: 0xFF when the chain is evacuated (R49, spec/17_partners.md R436). -/
def State.chainCode (s : State) : Nat := if s.dev.evacuated then 0xFF else halfCode s.dev.chain

/-- A mode change is in progress (spec/01_two_halves.md R31). -/
def State.changing (s : State) : Bool := s.dev.change.isSome || s.dev.rejoin.isSome

/-- Table — SYS_STATUS payload. -/
def statusFields (s : State) (h : HalfId) : List (Nat × Nat × Nat) :=
  let x := s.half h
  [(0x00, 8, modeCode s.dev.mode), (0x01, 8, s.chainCode), (0x02, 8, pwrCode x.pow.st), (0x03, 8, otherState x (s.half (other h))),
   (0x04, 8, x.sec.life), (0x05, 8, x.cfg.mode), (0x06, 16, b2n s.changing + 2 * b2n s.dev.evacuated), (0x08, 64, x.frame),
   (0x10, 32, x.cfg.frameRate)]

/-- SYS_STATUS (R49). -/
def execSysStatus (h : HalfId) (slot : Nat) (s : State) : Host.Outcome State Fault Refusal :=
  .next (s.runMsg h slot 0x0102 { lens := [0] } (fun _ _ => []) (fun t _ => .done t stOk (statusFields t h)))

end Sys2Proof.Machine
end

