-- ==== Sys2Proof/Machine/Time.lean ====
section
/-! DEFINITION. The time unit: the synchronised clock, gPTP, the exchange between the halves, and what reads them
(spec/16_time_and_ethernet.md R404 to R422). -/

namespace Sys2Proof.Machine

/-! ### The clock (R411 to R415) -/

/-- The clock runs on from its present time at another rate, at most 1,000 ppm (R411). -/
def Half.setRate (x : Half) (r : Int) : Half :=
  { x with tim := { x.tim with base := x.st, base0 := x.tim.local', rate := max (-1000000) (min 1000000 r) } }

/-- Changes an Ethernet port. -/
def Half.modPort (x : Half) (p : Nat) (f : TimPort → TimPort) : Half :=
  { x with timx := { x.timx with ports := x.timx.ports.modify p f } }

/-- An Ethernet port. -/
def Half.port (x : Half) (p : Nat) : TimPort := x.timx.ports[p]?.getD {}

/-- The step of an UNSET clock: ST takes the source's time (R413). -/
def Half.stepClock (x : Half) (off : Int) : Half :=
  let y := { x with tim := { x.tim with
    base := (x.st + off).toNat, base0 := x.tim.local', stepped := true, held := none
    st := if x.tim.source = 0 then .freeRun else .synced } }
  let y := if x.tim.source = 0 then { y with tim := { y.tim with freeSince := BitVec.ofNat 64 y.st } } else y
  y.timEvent 0

/-- A source is found: event 2, and SOURCE with its port (R417, R421). -/
def Half.acquire (x : Half) (src port : Nat) : Half :=
  let y : Half := { x with tim := { x.tim with source := BitVec.ofNat 2 src, sourcePort := BitVec.ofNat 4 port } }
  if x.tim.source = 0 then y.timEvent 2 else y

/-- A source is lost: the clock free-runs at its last rate, event 1 is set and the Umpire is told (R417, spec/18 R456). An UNSET
clock starts its count again. -/
def Half.loseSource (x : Half) : Half :=
  if x.tim.source = 0 then x
  else
    let y : Half := { x with tim := { x.tim with source := 0, sourcePort := 0, valid := 0 } }
    let y : Half := if x.tim.st = .unset then y
      else { y with tim := { y.tim with
        st := .freeRun, freeSince := if x.tim.st = .freeRun then x.tim.freeSince else BitVec.ofNat 64 x.st } }
    (y.timEvent 1).umpEvent 12

/-- STATE by the measured offset (R415); out of FREE_RUN an offset between the two bounds is SYNCED (log 34). -/
def Half.offsetState (x : Half) (off : Int) : Half :=
  let a := off.natAbs
  let st : TimState := if 1000 < a then .slewing else if a < 100 then .synced else if x.tim.st = .freeRun then .synced else x.tim.st
  let y : Half := { x with tim := { x.tim with st := st, freeSince := 0 } }
  if st = .slewing && x.tim.st ≠ .slewing then y.timEvent 4 else y

/-- A new rate: a frequency estimate, on whose method the spec is silent, and an offset correction within SLEW_LIMIT
(R415; log 35). -/
def Half.newRate (x : Half) : Half :=
  let f : Int := (Config.freeNat x.seed 32 % 2000001 : Nat) - (1000000 : Int)
  let c : Int := (Config.elemNat x.seed 1 32 % (2 * x.cfgb.slewPpb + 1) : Nat) - (x.cfgb.slewPpb : Int)
  let y := x.took.setRate (f + c)
  { y with tim := { y.tim with freq := f } }

/-- A valid offset measurement, in ns, from the source that the clock follows (R413 to R415, R418, R420). -/
def Half.measured (x : Half) (off : Int) : Half :=
  let x : Half := { x with tim := { x.tim with offset := BitVec.ofInt 64 off } }
  if x.tim.held.isSome then { x with tim := { x.tim with held := some off } }
  else if x.tim.st = .unset then
    let n := x.tim.valid + 1
    if n < 3 then { x with tim := { x.tim with valid := n } }
    else if x.powx.ready then { x with tim := { x.tim with valid := 0, held := some off } }
    else ({ x with tim := { x.tim with valid := 0 } } : Half).stepClock off
  else if x.timx.gmNew && x.tim.valid + 1 < 3 then { x with tim := { x.tim with valid := x.tim.valid + 1 } }
  else
    let y : Half := { x with tim := { x.tim with valid := 0 }, timx := { x.timx with gmNew := false } }
    (y.newRate).offsetState off

/-! ### gPTP (R407, R408, R416 to R418) -/

/-- The port carries gPTP (R399, R408). -/
def Half.carriesPtp (x : Half) (p : Nat) : Bool := if x.cfg.bridge then p < 4 else p ∈ x.cfgb.ptpPorts.take 2

/-- Partner identity of an Ethernet peer (spec/17_partners.md R423). -/
def ethIdent (src port : Nat) : Nat := src % 2 ^ 48 + port * 2 ^ 48

/-- The source of an Ethernet peer's violation, and whether it is quarantined. -/
def Half.ethSrc (x : Half) (src port : Nat) : VSrc × Bool :=
  match x.ptn.entries.find? (fun p => 16 ≤ p.num && p.kind = 6 && p.ident.toNat = ethIdent src port && p.st ≠ .empty) with
  | some p => (.partner p.num, p.st = .quarantined)
  | none => (.untracked (ethIdent src port), false)

/-- The slave port by role. -/
def Half.slavePort (x : Half) : Option Nat := ((List.range 5).find? (fun p => (x.port p).role = 1))

/-- What the half's own clock would announce: priority1, clockClass 248, clockAccuracy 0xFE, then its own identity (R407). -/
def Half.ownVector (x : Half) : Nat :=
  x.cfgb.priority1 * 2 ^ 104 + 248 * 2 ^ 96 + 0xFE * 2 ^ 88 + Config.ownClock (halfCode x.me) % 2 ^ 88

/-- The port that the BMCA, or the external configuration, makes slave (R407). -/
def Half.bestPort (x : Half) : Option Nat :=
  if x.cfgb.extRoles ≠ [] then ((x.cfgb.extRoles.find? (fun r => r.2 = 1)).map (·.1)).filter (fun p => (x.port p).linkUp)
  else
    let can := (List.range 5).filter (fun p => x.carriesPtp p && (x.port p).linkUp && (x.port p).asCapable && (x.port p).announce.isSome)
    let vec := fun p => ((x.port p).announce.map (·.1)).getD 0
    (can.find? (fun p => can.all (fun q => vec p ≤ vec q))).filter
      (fun p => 255 ≤ x.cfgb.priority1 || vec p < x.ownVector)

/-- PTP_ROLE of a port: slave for the chosen one, passive where another master announces itself, master elsewhere (R421;
log 34). -/
def Half.roleOf (x : Half) (best : Option Nat) (p : Nat) : Nat :=
  if !x.carriesPtp p then 0
  else match x.cfgb.extRoles.find? (fun r => r.1 = p) with
    | some r => r.2
    | none => if !(x.port p).linkUp then 4 else if best = some p then 1 else if (x.port p).announce.isSome then 3 else 2

/-- The source's next three measurements are gathered, in FREE_RUN, before it is followed (R418). -/
def Half.regather (x : Half) : Half :=
  if x.tim.st = .unset then { x with tim := { x.tim with valid := 0 } }
  else { x with
    tim := { x.tim with
      valid := 0, st := .freeRun, freeSince := if x.tim.st = .freeRun then x.tim.freeSince else BitVec.ofNat 64 x.st }
    timx := { x.timx with gmNew := true } }

/-- A grandmaster change: event 3, GM_CHANGES, and three measurements gathered in FREE_RUN (R418, R420). -/
def Half.newGm (x : Half) (gm : BitVec 64) (steps : Nat) : Half :=
  let y : Half := { x with tim := { x.tim with gm := gm, stepsRemoved := BitVec.ofNat 16 steps } }
  if x.tim.gm = gm then y
  else if x.tim.gm = 0 then y
  else
    ({ y with tim := { y.tim with gmChanges := y.tim.gmChanges + 1 } } : Half).regather.timEvent 3

/-- Assigns the port roles again, and takes up a lead's new slave port and grandmaster (R417, R418). A follower's ports only
monitor (R416), and so do those of a half whose relay has its slave port on the other half. -/
def Half.bmca (x : Half) : Half :=
  let best := if x.timx.elsewhere then none else x.bestPort
  let old := x.slavePort
  let y : Half := { x with timx := { x.timx with ports := x.timx.ports.zipIdx.map (fun (p : TimPort × Nat) =>
    { p.1 with role := BitVec.ofNat 4 (x.roleOf best p.2) }) } }
  if !y.tim.lead then y
  else
    let y := if best ≠ old && old.isSome && y.tim.source = 1 then
        (if best.isNone then (if x.timx.elsewhere then y else y.loseSource) else { y with tim := { y.tim with sourcePort := BitVec.ofNat 4 (best.getD 0) } })
      else y
    match best.bind (fun p => (y.port p).announce) with
    | some (_, gm, steps) => y.newGm gm steps
    | none => y

/-- The port's asCapable changes; the slave port's loss of it loses the source (R417). -/
def Half.setCapable (x : Half) (p : Nat) (b : Bool) : Half :=
  let y := x.modPort p (fun k => { k with asCapable := b })
  let y := if !b && y.tim.lead && y.tim.source = 1 && y.tim.sourcePort.toNat = p then y.loseSource else y
  if (x.port p).asCapable = b then y else y.bmca

/-- A gPTP message reaches the time unit: the state after the arrival of its sender, and whether the unit takes it. On a port
without gPTP it is counted in PTP_DROPS; a wrong domain or a malformed message is a violation too; the messages of a
quarantined peer are ignored, and the port is not asCapable toward it (R402, spec/17_partners.md R426). -/
def Half.takePtp (x : Half) (m : Ptp) : Half × Bool :=
  let drop := fun (y : Half) => y.modPort m.port (fun p => { p with ptpDrops := p.ptpDrops + 1 })
  if !(x.alive && m.port < 5 && (x.port m.port).linkUp && !x.powx.subReset.contains 12) then (x, false)
  else if !x.carriesPtp m.port then (drop x, false)
  else
    let y := x.ptnArrive 6 m.port (ethIdent m.src m.port)
    let (src, quar) := y.ethSrc m.src m.port
    let bar := fun (z : Half) => if (z.ethSrc m.src m.port).2 then z.setCapable m.port false else z
    if quar then (y, false)
    else if !m.ok then (bar ((drop y).violate src 0x05 1 1 m.port 0), false)
    else if m.domain ≠ x.cfgb.domain then (bar ((drop y).violate src 0x05 2 1 m.port m.domain), false)
    else (y, true)

/-- An interval of 2^n seconds, in ns. -/
def logInterval (n : Int) : Nat := if n < 0 then 1000000000 / 2 ^ n.natAbs else 1000000000 * 2 ^ n.toNat

/-- The ingress timestamp of a Sync in ps: the reference plane's time less INGRESS_LAT_PS and ASYM_PS (R405). -/
def Half.syncIngress (x : Half) (p t : Nat) : Int := (t : Int) - ((x.port p).ingressLat.toNat : Int) - (x.port p).asym.toInt

/-- What a Sync measures in ns: the source's time less the half's (R413, R415). -/
def Half.syncOffset (x : Half) (p t origin : Nat) (corr : Int) : Int :=
  ((origin : Int) + corr + ((x.port p).linkDelay.toNat : Int) - x.syncIngress p t) / 1000

/-- An offset measurement of a port: origin time with its corrections and the link delay, against the ingress time (R405, R413,
R415). Only a lead follows its port. -/
def Half.portMeasure (x : Half) (p t origin : Nat) (corr : Int) : Half :=
  let q := x.port p
  let y := x.modPort p (fun k => { k with syncRx := k.syncRx + 1, pendSync := none })
  if q.role = 1 && q.asCapable && y.tim.lead then
    let y : Half := { y with timx := { y.timx with lastSync := y.now } }
    (y.acquire 1 p).measured (x.syncOffset p t origin corr)
  else y

/-- The port sends a frame. -/
def Half.sendOn (x : Half) (p : Nat) (w : Wire) : Half := x.modPort p (fun k => { k with sent := k.sent + 1, last := some w })

/-- The Sync is to leave by every master port of the bridge but the one it came by, if it came by this half (R410). -/
def Half.relayOut (x : Half) (from' : Option Nat) (r : RelaySync) : Half :=
  (List.range 4).foldl (fun (y : Half) q =>
    if from' ≠ some q && (y.port q).role = 2 then y.modPort q (fun k => { k with relay := some r }) else y) x

/-- The relay passes a Sync on to the master ports of both halves (R409, R410). -/
def Half.relay (x : Half) (p t origin : Nat) (corr : Int) : Half :=
  if !x.cfg.bridge then x
  else
    let q := x.port p
    let r : RelaySync := { origin := origin, corr := corr, ingress := x.syncIngress p t, delay := q.linkDelay.toNat
                           rate := q.nbrRate.toInt }
    let y := x.relayOut (some p) r
    if y.handoffStands then y.send (.sync r) else y

/-- correctionField of a relayed Sync that leaves at an egress timestamp: the residence time, scaled by the rate ratio, and the mean link
delay of the ingress port are added (R410). -/
def RelaySync.corrAt (r : RelaySync) (egress : Nat) : Int :=
  r.corr + ((egress : Int) - r.ingress) * (1000000000 + r.rate) / 1000000000 + r.delay

/-- In the bridge configuration a lead follows the relay's slave port on the other half, too (R416). -/
def State.feedLead (s : State) (h : HalfId) (p : Nat) (off : Int) : State :=
  let q := (s.half h).port p
  let o := s.half (other h)
  if (s.half h).cfg.bridge && q.role = 1 && q.asCapable && o.alive && o.tim.lead && o.timx.elsewhere && o.handoffUp then
    s.setHalf (other h) ((({ o with timx := { o.timx with lastSync := o.now } } : Half).acquire 1 (8 + p)).measured off)
  else s

/-- The best announced vector at a port that could be slave. -/
def Half.bestVec (x : Half) : Option Nat := x.bestPort.map (fun p => (((x.port p).announce).map (·.1)).getD 0)

/-- The relay of the bridge configuration has one slave port for both halves: where the better one stands (R399, R416). The lead takes up a
grandmaster that the other half's port announces, and loses its source when neither half has a slave port. -/
def State.relayRoles (s : State) : State :=
  let joined := s.a.cfg.bridge && s.b.cfg.bridge && s.a.alive && s.b.alive && s.a.handoffUp
  let better := fun (x y : Half) => match x.bestVec, y.bestVec with
    | some u, some v => decide (u < v)
    | some _, none => true
    | none, _ => false
  let put := fun (x : Half) (on : Bool) =>
    if x.timx.elsewhere = on then x else ({ x with timx := { x.timx with elsewhere := on } } : Half).bmca
  let inA := joined && !(better s.b s.a) && s.a.bestVec.isSome
  let inB := joined && better s.b s.a
  let follow := fun (x o : Half) =>
    if !x.tim.lead then x
    else if x.timx.elsewhere then
      match (o.bestPort).bind (fun p => (o.port p).announce) with
      | some (_, gm, steps) => x.newGm gm steps
      | none => x
    else if x.tim.source = 1 && x.slavePort.isNone then x.loseSource else x
  let a := put s.a inB
  let b := put s.b inA
  if s.a.cfg.bridge then { s with a := follow a b, b := follow b a } else s

/-- A Sync with its origin time is complete: the measurement, and the relay (R410, R413, R416). -/
def State.takeSync (s : State) (h : HalfId) (y : Half) (p t origin : Nat) (corr : Int) : State :=
  (s.setHalf h ((y.portMeasure p t origin corr).relay p t origin corr)).feedLead h p (y.syncOffset p t origin corr)

/-- GPTP_SYNC_RECEIVE: a one-step Sync is a measurement, a two-step one waits for its Follow_Up; `origin` is its origin time in ps
and `corr` its correction in ps (R407, R410, R415). -/
def execGptpSyncReceive (h : HalfId) (m : Ptp) (twoStep : Bool) (origin : Nat) (corr : Int) (s : State) :
    Host.Outcome State Fault Refusal :=
  let (y, ok) := (s.half h).takePtp m
  .next (if !ok then s.setHalf h y
    else if twoStep then s.setHalf h (y.modPort m.port (fun k => { k with pendSync := some (m.seq, m.t) }))
    else s.takeSync h y m.port m.t origin corr)

/-- GPTP_FOLLOW_UP_RECEIVE (R407). -/
def execGptpFollowUpReceive (h : HalfId) (m : Ptp) (origin : Nat) (corr : Int) (s : State) : Host.Outcome State Fault Refusal :=
  let (y, ok) := (s.half h).takePtp m
  .next (if !ok then s.setHalf h y
    else match (y.port m.port).pendSync with
      | some (q, t) => if q = m.seq then s.takeSync h y m.port t origin corr else s.setHalf h y
      | none => s.setHalf h y)

/-- GPTP_ANNOUNCE_RECEIVE: `vec` is the announced priority vector, smaller for better (R407, R418). -/
def execGptpAnnounceReceive (h : HalfId) (m : Ptp) (vec : Nat) (gm : BitVec 64) (steps : Nat) (s : State) :
    Host.Outcome State Fault Refusal :=
  let (y, ok) := (s.half h).takePtp m
  .next (if !ok then s.setHalf h y
    else (s.setHalf h
      (y.modPort m.port (fun k => { k with announce := some (vec, gm, steps), lastAnn := y.now })).bmca).relayRoles)

/-- GPTP_PDELAY_RECEIVE: a request is answered; the Follow_Up of a response completes a measurement of the mean link delay and
the neighbour rate; asCapable follows neighborPropDelayThresh (R405, R407). -/
def execGptpPdelayReceive (h : HalfId) (m : Ptp) (k : Pdelay) (s : State) : Host.Outcome State Fault Refusal :=
  .next ((s.mod h (fun x =>
    let (y, ok) := x.takePtp m
    if !ok then y
    else
      let p := y.port m.port
      let t4 := m.t - p.ingressLat.toNat
      match k with
      | .req => (y.took.sendOn m.port (.pdelayResp t4)).sendOn m.port (.pdelayFollowUp (Config.freeNat y.seed 80))
      | .resp t2 => y.modPort m.port (fun q => { q with pdResp := some (t2, t4) })
      | .followUp t3 =>
        match p.reqTime, p.pdResp with
        | some t1, some (t2, t4) =>
          let ppb : Int := match p.pdPrev with
            | some (a, b) => if t4 ≤ b then 0 else (((t3 : Int) - a) - ((t4 : Int) - b)) * 1000000000 / ((t4 : Int) - b)
            | none => 0
          let turn : Int := ((t4 : Int) - t1) * (1000000000 + ppb) / 1000000000
          let d := satNat 32 (((turn - ((t3 : Int) - t2)) / 2).toNat)
          let z := y.modPort m.port (fun q => { q with
            linkDelay := BitVec.ofNat 32 d, nbrRate := BitVec.ofInt 32 ppb, reqTime := none, pdResp := none, pdPrev := some (t3, t4) })
          z.setCapable m.port (decide (d ≤ y.cfgb.propThresh * 1000))
        | _, _ => y)).relayRoles)

/-- A port of a running half that carries gPTP and has a link. -/
def Half.ptpLive (x : Half) (p : Nat) : Bool := x.alive && p < 5 && x.carriesPtp p && (x.port p).linkUp

/-- GPTP_SYNC_TRANSMIT: a master port sends a one-step Sync. A Sync of the part's own carries its egress timestamp as originTimestamp (R408), one that the relay passes on its correctionField (R410); a
port of the relay that has a source sends only what is relayed. -/
def execGptpSyncTransmit (h : HalfId) (out : Departure) (s : State) : Host.Outcome State Fault Refusal :=
  .next (s.mod h (fun x =>
    let port := out.port
    if !(x.ptpLive port && (x.port port).role = 2) then x
    else
      let egress := out.t + (x.port port).egressLat.toNat
      match (x.port port).relay with
      | some r => (x.sendOn port (.sync r.origin (r.corrAt egress))).modPort port (fun k => { k with relay := none })
      | none =>
        if x.cfg.bridge && (x.slavePort.isSome || x.timx.elsewhere) then x else x.sendOn port (.sync egress 0)))

/-- PDELAY_REQ_TRANSMIT: `t` is the time in ps at which the request crosses the reference plane (R405, R407). -/
def execPdelayReqTransmit (h : HalfId) (port t : Nat) (s : State) : Host.Outcome State Fault Refusal :=
  .next (s.mod h (fun x => if x.ptpLive port then
      (x.sendOn port .pdelayReq).modPort port (fun k => { k with reqTime := some (t + k.egressLat.toNat), pdResp := none })
    else x))

/-- ANNOUNCE_TRANSMIT (R407). -/
def execAnnounceTransmit (h : HalfId) (port : Nat) (s : State) : Host.Outcome State Fault Refusal :=
  .next (s.mod h (fun x => if x.ptpLive port && (x.port port).role = 2 then x.sendOn port .announce else x))

/-- SYNC_RECEIPT_TIMEOUT on the slave port (R417). -/
def execSyncReceiptTimeout (h : HalfId) (s : State) : Host.Outcome State Fault Refusal :=
  .next (s.mod h (fun x =>
    if x.alive && x.tim.lead && x.tim.source = 1 && x.since x.timx.lastSync (x.cfgb.syncTimeout * logInterval x.cfgb.logSync) then
      x.loseSource
    else x))

/-- ANNOUNCE_RECEIPT_TIMEOUT on a port (R418). -/
def execAnnounceReceiptTimeout (h : HalfId) (port : Nat) (s : State) : Host.Outcome State Fault Refusal :=
  .next ((s.mod h (fun x =>
    let p := x.port port
    if x.alive && p.announce.isSome && x.since p.lastAnn (x.cfgb.annTimeout * logInterval x.cfgb.logAnn) then
      (x.modPort port (fun k => { k with announce := none })).bmca
    else x)).relayRoles)

/-- ETH_LINK_CHANGE (R417): a port that goes down is no longer asCapable and forgets its announce. -/
def execEthLinkChange (h : HalfId) (port : Nat) (up : Bool) (s : State) : Host.Outcome State Fault Refusal :=
  .next ((s.mod h (fun x =>
    if !x.alive || 5 ≤ port then x
    else if up then (x.modPort port (fun k => { k with linkUp := true })).bmca
    else
      let y := if x.tim.lead && x.tim.source = 1 && x.tim.sourcePort.toNat = port then x.loseSource else x
      (y.modPort port (fun k => { k with
        linkUp := false, asCapable := false, announce := none, pendSync := none, reqTime := none, pdResp := none, pdPrev := none
        relay := none })).bmca)).relayRoles)

/-! ### Between the halves (R416, R417, R419) -/

/-- Exchanges within and beyond the bound of 5,000 ps: event 5 at the tenth in a row, and STANDBY_READY is then withheld for 100
good ones (R416, spec/18_safety.md R456). -/
def Half.exchangeBound (x : Half) (ps : Int) : Half :=
  if 5000 < ps.natAbs then
    let n := x.timx.badExch + 1
    let y : Half := { x with timx := { x.timx with badExch := n, goodExch := 0 } }
    if n = 10 then ((({ y with umpx := { y.umpx with standbyReady := false } } : Half).timEvent 5).umpEvent 12) else y
  else
    let g := min 100 (x.timx.goodExch + 1)
    { x with timx := { x.timx with badExch := if 10 ≤ x.timx.badExch && g < 100 then x.timx.badExch else 0, goodExch := g } }

/-- TIME_EXCHANGE: the follower half measures its time against the lead's, `ps` being this half minus the lead, and follows it;
it reports the lead's STATE, grandmaster and offset, and steps with the lead (R413, R416). -/
def execTimeExchange (h : HalfId) (ps : Int) (s : State) : Host.Outcome State Fault Refusal :=
  .next (s.mod h (fun x =>
    let o := s.half (other h)
    if !(x.alive && o.tim.running && o.alive && x.handoffUp && !x.tim.lead && o.tim.lead) then x
    else
      let y : Half := { x with
        tim := { x.tim with interHalf := BitVec.ofInt 32 ps }
        timx := { x.timx with lastExch := x.now } }
      let y := (y.acquire 2 0).exchangeBound ps
      let y := if o.tim.st = .unset then y else y.measured (-ps / 1000)
      let y : Half := { y with tim := { y.tim with
        gm := o.tim.gm, stepsRemoved := o.tim.stepsRemoved, offset := o.tim.offset
        held := if o.tim.held.isSome && y.tim.st = .unset then o.tim.held else y.tim.held } }
      if y.tim.st = .unset || o.tim.st = .unset then y
      else { y with tim := { y.tim with st := o.tim.st, freeSince := o.tim.freeSince } }))

/-- FOLLOWER_EXCHANGE_TIMEOUT (R417). -/
def execFollowerExchangeTimeout (h : HalfId) (s : State) : Host.Outcome State Fault Refusal :=
  .next (s.mod h (fun x =>
    if x.alive && !x.tim.lead && x.tim.source = 2 && x.since x.timx.lastExch 3000000 then x.loseSource else x))

/-- The half becomes the time lead: its source is its own slave port, at the rate it has (R419). -/
def Half.becomeLead (x : Half) : Half :=
  if x.tim.lead then x
  else
    let y : Half := { x with tim := { x.tim with lead := true, interHalf := 0 } }
    match y.slavePort with
    | some p => if (y.port p).asCapable then { y with tim := { y.tim with source := 1, sourcePort := BitVec.ofNat 4 p },
                                                       timx := { y.timx with lastSync := y.now } }
      else y.loseSource
    | none => y.loseSource

/-- The half becomes the follower. -/
def Half.becomeFollower (x : Half) : Half :=
  if x.tim.lead then { x with tim := { x.tim with lead := false, source := 2, sourcePort := 0 }, timx := { x.timx with lastExch := x.now } }
  else x

/-- The time lead is the chain-carrying half (R416). -/
def State.setLead (s : State) (h : HalfId) : State := (s.mod h Half.becomeLead).mod (other h) Half.becomeFollower

/-- START_WAIT_EXPIRY (R414). -/
def execStartWaitExpiry (h : HalfId) (s : State) : Host.Outcome State Fault Refusal :=
  .next (s.mod h (fun x =>
    if x.tim.running && x.since x.tim.startedAt (x.cfgb.startWaitMs * 1000000) then { x with timx := { x.timx with startWait := true } }
    else x))

/-! ### Reading the clock (R406, R421, R422) -/

/-- STATE code. -/
def timCode : TimState → Nat
  | .unset => 0
  | .synced => 1
  | .slewing => 2
  | .freeRun => 3

/-- The word at TIM_ offset 0x018. -/
def Half.timState (x : Half) : BitVec 64 :=
  pack 64 [(0, 3, timCode x.tim.st), (3, 1, b2n x.tim.stepped), (4, 1, b2n x.tim.lead), (8, 2, x.tim.source.toNat),
    (12, 4, x.tim.sourcePort.toNat), (32, 16, x.tim.stepsRemoved.toNat), (48, 16, x.tim.gmChanges.toNat)]

/-- The word at TIM_ offset 0x028. -/
def Half.timRate (x : Half) : BitVec 64 := pack 64 [(0, 32, encInt 32 x.tim.rate), (32, 32, x.cfgb.slewPpb)]

/-- TIM_STATUS (R422). -/
def execTimStatus (h : HalfId) (slot : Nat) (s : State) : Host.Outcome State Fault Refusal :=
  .next (s.runMsg h slot 0x0801 { lens := [0] } (fun _ _ => []) (fun t _ =>
    let x := t.half h
    .done t stOk [(0x00, 64, x.timState.toNat), (0x08, 64, x.tim.offset.toNat), (0x10, 64, x.timRate.toNat),
      (0x18, 64, x.tim.gm.toNat), (0x20, 64, x.tim.freeSince.toNat), (0x28, 64, x.tim.interHalf.toNat)]))

/-- TIM_PORT_ASYM (R406). -/
def execTimPortAsym (h : HalfId) (slot : Nat) (s : State) : Host.Outcome State Fault Refusal :=
  .next (s.runMsg h slot 0x0802 { lens := [8] }
    (fun _ m => [{ bad := 4 < pay m 0 8, st := stMalformed, off := 0x10 }, rsv m 1 0 24,
      { bad := 1000000 < (decInt 32 (pay m 4 32)).natAbs, st := stLimit, off := 0x14 }])
    (fun t m => .done (t.mod h (fun x => x.modPort (pay m 0 8) (fun p => { p with asym := BitVec.ofNat 32 (pay m 4 32) }))) stOk []))

end Sys2Proof.Machine
end

