-- ==== Sys2Proof/Machine/Flows.lean ====
section
/-! DEFINITION. Received Ethernet frames, and the packets of a flow: their framing and how they make an image or an access unit
(spec/08_input_pipeline.md R201, R202, spec/16_time_and_ethernet.md R403). The layouts of frames and packets are those of IEEE 802.3,
IEEE 802.1Q, IPv4, IPv6, UDP, RTP, RFC 7798, RFC 2435 and IEEE 1722 (PRESUMED, log 36). -/

namespace Sys2Proof.Machine

/-! ### Frames -/

/-- n bytes at an offset of a frame, the most significant first, as the network sends them. -/
def netNat (l : List Byte) (off n : Nat) : Nat := ((l.drop off).take n).foldl (fun (a : Nat) b => a * 256 + b.toNat) 0

/-- Destination MAC address. -/
def frameDst (f : List Byte) : Nat := netNat f 0 6

/-- Source MAC address. -/
def frameSrc (f : List Byte) : Nat := netNat f 6 6

/-- The frame carries a VLAN tag. -/
def frameTagged (f : List Byte) : Bool := netNat f 12 2 = 0x8100

/-- VLAN ID of a tagged frame. -/
def frameVlan (f : List Byte) : Option Nat := if frameTagged f then some (netNat f 14 2 % 4096) else none

/-- VLAN priority, 0 for an untagged frame (R402). -/
def framePrio (f : List Byte) : Nat := if frameTagged f then netNat f 14 2 / 8192 else 0

/-- Offset of the bytes that follow the EtherType. -/
def frameBody (f : List Byte) : Nat := if frameTagged f then 18 else 14

/-- EtherType. -/
def frameType (f : List Byte) : Nat := netNat f (frameBody f - 2) 2

/-- UDP destination port of a frame over IPv4 or IPv6 (R403). -/
def frameUdp (f : List Byte) : Option Nat :=
  let o := frameBody f
  if frameType f = 0x0800 && netNat f (o + 9) 1 = 17 && netNat f (o + 6) 2 % 8192 = 0 then
    some (netNat f (o + netNat f o 1 % 16 * 4 + 2) 2)
  else if frameType f = 0x86DD && netNat f (o + 6) 1 = 17 then some (netNat f (o + 42) 2)
  else none

/-- IEEE 1722 stream ID (R403). -/
def frameStream (f : List Byte) : Option Nat := if frameType f = 0x22F0 then some (netNat f (frameBody f + 4) 8) else none

/-- A group address. -/
def multicast (mac : Nat) : Bool := mac / 2 ^ 40 % 2 = 1

/-! ### Packets -/

/-- What a packet of a flow brings to its image or access unit. -/
structure FlowPacket where
  /-- The last packet of the image or access unit. -/
  last : Bool
  /-- A packet with which an image or access unit can begin. -/
  begins : Bool
  /-- RTP timestamp or IEEE 1722 presentation time. -/
  ts : Nat
  /-- Sequence number. -/
  seq : Nat
  /-- Numbers after which the sequence number wraps. -/
  wrap : Nat
  /-- Data in the form in which they are stored. -/
  bytes : List Byte

/-- Payload of a frame's UDP datagram. -/
def udpPayload (f : List Byte) : Option (List Byte) :=
  let o := frameBody f
  let u := if frameType f = 0x0800 then o + netNat f o 1 % 16 * 4 else o + 40
  let n := netNat f (u + 4) 2
  if (frameUdp f).isSome && 8 ≤ n && u + n ≤ f.length then some ((f.drop (u + 8)).take (n - 8)) else none

/-- Marker, sequence number, timestamp and payload of an RTP packet. -/
def rtpOf (p : List Byte) : Option (Bool × Nat × Nat × List Byte) :=
  let b := netNat p 0 1
  let o := 12 + 4 * (b % 16)
  let o := if b / 16 % 2 = 1 then o + 4 + 4 * netNat p (o + 2) 2 else o
  let pad := if b / 32 % 2 = 1 then netNat p (p.length - 1) 1 else 0
  if p.length < 12 || b / 64 ≠ 2 || p.length < o + pad then none
  else some (128 ≤ netNat p 1 1, netNat p 2 2, netNat p 4 4, (p.drop o).take (p.length - o - pad))

/-- The start code that stands before each NAL unit of a stored access unit. -/
def startCode : List Byte := [0, 0, 0, 1]

/-- The NAL units of an aggregation packet, each after its 16-bit size; the first argument bounds their number. -/
def nalUnits : Nat → List Byte → Option (List Byte)
  | _, [] => some []
  | n + 1, a :: b :: rest =>
    let k := a.toNat * 256 + b.toNat
    if k < 2 || rest.length < k then none else (nalUnits n (rest.drop k)).map (fun l => startCode ++ rest.take k ++ l)
  | _, _ => none

/-- The data of an RFC 7798 payload, and whether they begin with a NAL unit: a single NAL unit, an aggregation packet (48) or a
fragmentation unit (49). PACI packets (50) and the other types lie outside R202. -/
def h265Packet (p : List Byte) : Option (Bool × List Byte) :=
  let t := netNat p 0 1 / 2 % 64
  let fu := netNat p 2 1
  if p.length < 3 then none
  else if t < 48 then some (true, startCode ++ p)
  else if t = 48 then (nalUnits p.length (p.drop 2)).map (fun l => (true, l))
  else if t = 49 && 4 ≤ p.length && fu / 64 ≠ 3 then
    some (128 ≤ fu, if 128 ≤ fu then
        startCode ++ [BitVec.ofNat 8 (netNat p 0 1 / 128 * 128 + fu % 64 * 2 + netNat p 0 1 % 2), BitVec.ofNat 8 (netNat p 1 1)] ++ p.drop 3
      else p.drop 3)
  else none

/-- The data of an RFC 2435 payload, and whether they begin the image, whose headers come from the first packet. -/
def jpegPacket (last : Bool) (p : List Byte) : Option (Bool × List Byte) :=
  let off := netNat p 1 3
  let main := if 64 ≤ netNat p 4 1 then 12 else 8
  let h := if 128 ≤ netNat p 5 1 && off = 0 then main + 4 + netNat p (main + 2) 2 else main
  if p.length < h || netNat p 4 1 ∉ [0, 1, 64, 65] then none
  else some (off = 0, (if off = 0 then Config.jpegHeaders (p.take h) else []) ++ p.drop h ++ if last then [0xFF, 0xD9] else [])

/-- The packet that a frame brings to a flow in the format of SELECT, none where its framing lies outside R202. -/
def flowPacket (select : Nat) (f : List Byte) : Option FlowPacket :=
  if select < 2 then
    match (udpPayload f).bind rtpOf with
    | none => none
    | some (last, seq, ts, p) => (if select = 0 then h265Packet p else jpegPacket last p).map (fun d =>
        { last := last, begins := d.1, ts := ts, seq := seq, wrap := 65536, bytes := d.2 })
  else
    let b := f.drop (frameBody f)
    let n := netNat b 20 2
    let last := netNat b 22 1 / 16 % 2 = 1
    if frameType f ≠ 0x22F0 || netNat b 0 1 ≠ 0x03 || netNat b 1 1 / 16 % 8 ≠ 0 || netNat b 16 2 ≠ 0x0200 || b.length < 24 + n then none
    else (jpegPacket last ((b.drop 24).take n)).map (fun d =>
      { last := last, begins := d.1, ts := netNat b 12 4, seq := netNat b 2 1, wrap := 256, bytes := d.2 })

/-! ### Assembly -/

/-- An image or access unit with one packet more; a gap in the sequence numbers flags it TRUNCATED (log 28). -/
def FlowAsm.add (a : FlowAsm) (p : FlowPacket) : FlowAsm :=
  { a with seq := p.seq, cut := a.cut || p.seq ≠ (a.seq + 1) % p.wrap, data := a.data ++ p.bytes }

/-- The capture that an assembled image or access unit makes. -/
def FlowAsm.capture (a : FlowAsm) (cut : Bool) : Capture :=
  { source := a.source, select := a.select, time := a.time, mediaTs := a.mediaTs, w := 0, h := 0, data := a.data, ecc := 0, crc := 0
    cut := cut || a.cut }

/-- The capture time of a packet that came in at a port at `t` ps: its ingress timestamp with the port's asymmetry applied, in ns
(R201, spec/16_time_and_ethernet.md R405). -/
def Half.ingressTime (x : Half) (port t : Nat) : Nat := (((t : Int) - (x.port port).asym.toInt) / 1000).toNat

/-- A packet joins the image or access unit of its flow, or begins one with the ingress timestamp of its port; the last packet makes
it whole. One whose last packet never came is whole, and truncated, when a packet of another timestamp arrives (log 28). -/
def Half.addPacket (x : Half) (b : Binding) (port t : Nat) (p : FlowPacket) : Half :=
  let old := x.sched.pipe.flows.find? (fun a => a.source = b.source && a.select = b.select)
  let new : FlowAsm := { source := b.source, select := b.select, time := x.ingressTime port t, mediaTs := p.ts, seq := p.seq
                         cut := !p.begins, data := p.bytes }
  let (left, run) : List Capture × FlowAsm := match old with
    | some a => if a.mediaTs = p.ts then ([], a.add p) else ([a.capture true], new)
    | none => ([], new)
  let rest := x.sched.pipe.flows.filter (fun a => a.source ≠ b.source)
  x.modPipe (fun k => { k with
    flows := if p.last then rest else run :: rest
    whole := k.whole ++ left ++ (if p.last then [run.capture false] else []) })

end Sys2Proof.Machine
end

