-- ==== Sys2Proof/Machine/Ethernet.lean ====
section
/-! DEFINITION. The Ethernet MACs: frames as bytes, frame rings, flows and the bridge
(spec/16_time_and_ethernet.md R399 to R405, R409). -/

namespace Sys2Proof.Machine

/-! ### Flows (R403) -/

/-- A frame matches a flow: its ingress port, and every key that the flow names (R403). -/
def Flow.takes (k : Flow) (port : Nat) (f : List Byte) : Bool :=
  k.ports.contains port && (k.vlan.isNone || k.vlan = frameVlan f) && (k.dmac.isNone || k.dmac = some (frameDst f)) &&
    (k.udp.isNone || k.udp = frameUdp f) && (k.stream.isNone || k.stream = frameStream f)

/-- The first flow, in ascending number, that takes the frame (R403). -/
def Half.flowOf (x : Half) (port : Nat) (f : List Byte) : Option Flow :=
  let hits := x.cfgb.flows.filter (fun k => k.takes port f)
  hits.find? (fun k => hits.all (fun j => k.num ≤ j.num))

/-! ### Frame rings (R400 to R402) -/

/-- Virtual address of the next descriptor of a ring. -/
def Half.ringDesc (x : Half) (r : Ring) : Nat :=
  let next := if r.tx then (x.port r.port).txNext else (x.port r.port).rxNext
  r.va + 32 * (next[r.num]?.getD 0)

/-- The ring moves on to its following descriptor. -/
def Half.ringStep (x : Half) (r : Ring) : Half :=
  let adv := fun (l : List Nat) => l.modify r.num (fun i => (i + 1) % 2 ^ r.log2)
  x.modPort r.port (fun p => if r.tx then { p with txNext := adv p.txNext } else { p with rxNext := adv p.rxNext })

/-- Completes a descriptor: LENGTH, ERROR, TS_VALID, the timestamp in ps, and OWN cleared; IRQ set raises identity 72 + m
(Table — Frame descriptor, R401). -/
def Half.ringDone (x : Half) (r : Ring) (len : Nat) (err : Bool) (t : Option Nat) : Half :=
  let va := x.ringDesc r
  let irq := x.vnat r.ctx (va + 0x0A) 1 / 8 % 2 = 1
  let flags := b2n irq * 8 + b2n err * 4 + b2n t.isSome * 2
  let y := x.commitBytes r.ctx (placeBytes (va + 0x08) (leBytes 2 len ++ leBytes 1 flags))
  let y := match t with
    | some ps => y.commitBytes r.ctx (placeBytes (va + 0x10) (leBytes 8 (ps / 1000) ++ leBytes 2 (ps % 1000)))
    | none => y
  let y := y.ringStep r
  if irq then y.announce (72 + r.port) else y

/-- The receive ring that the configuration assigns to the VLAN priority (R402), unless it is disabled (R400). -/
def Half.rxRing (x : Half) (port prio : Nat) : Option Ring :=
  (x.cfgb.rings.find? (fun r => r.port = port && !r.tx && r.prios.contains prio)).filter
    (fun r => !((x.port port).rxOff[r.num]?.getD false))

/-- Rule 4 of R402: the frame goes to the receive ring of its priority. A frame for which no ring is assigned is dropped, and a
frame buffer that is not writable is left unwritten with ERROR set (log 36). -/
def Half.toRing (x : Half) (port : Nat) (f : List Byte) (t : Nat) : Half :=
  match x.rxRing port (framePrio f) with
  | none => x
  | some r =>
    let va := x.ringDesc r
    if x.vnat r.ctx (va + 0x0A) 1 % 2 = 0 then x.modPort port (fun p => { p with ringDrops := p.ringDrops + 1 })
    else
      let cap := x.vnat r.ctx (va + 0x08) 2
      let buf := x.vnat r.ctx va 8
      let data := f.take cap
      let ok := x.writable r.ctx buf data.length
      let y := if ok then x.commitBytes r.ctx (placeBytes buf data) else x
      y.ringDone r data.length (!ok || decide (cap < f.length)) (some t)

/-! ### The bridge (R409) -/

/-- A port of the bridge in the numbering of its filtering table: 4 for each half before, then the port. -/
def bridgePort (h : HalfId) (p : Nat) : Nat := 4 * halfCode h + p

/-- Learns the source address of a frame; a table of 8,192 entries takes no new address (R409). -/
def Half.learn (x : Half) (mac port : Nat) : Half :=
  let rest := x.timx.fdb.filter (fun e => e.1 ≠ mac)
  if multicast mac || 8192 ≤ rest.length then x else { x with timx := { x.timx with fdb := (mac, port) :: rest } }

/-- The bridge ports that filtering gives a destination: static entries, then the learned one, else all eight (R409). -/
def Half.bridgeOut (x : Half) (dst : Nat) : List Nat :=
  let st := (x.cfgb.fdbStatic.take 4096).filter (fun e => e.1 = dst)
  if st ≠ [] then st.map (·.2)
  else match x.timx.fdb.find? (fun e => e.1 = dst) with
    | some e => [e.2]
    | none => List.range 8

/-- The half's own stack takes the frame through the internal bridge port (R409). -/
def Half.forStack (x : Half) (dst : Nat) : Bool := dst = Config.ownMac (halfCode x.me) || multicast dst

/-- The frame leaves by the ports of this half that filtering names, but for the one it came by; its own address goes nowhere
else (R409). -/
def Half.bridgeLocal (x : Half) (inPort : Nat) (f : List Byte) : Half :=
  let out := x.bridgeOut (frameDst f)
  if frameDst f = Config.ownMac (halfCode x.me) then x
  else (List.range 4).foldl (fun (y : Half) p =>
    if bridgePort x.me p ∈ out && bridgePort x.me p ≠ inPort && (y.port p).linkUp then y.sendOn p (.frame f) else y) x

/-- The frame has a way to go on the other half: a port that filtering names there, or that half's stack. -/
def Half.bridgeCrosses (x : Half) (f : List Byte) : Bool :=
  let dst := frameDst f
  dst ≠ Config.ownMac (halfCode x.me) &&
    (dst = Config.ownMac (halfCode (other x.me)) || multicast dst ||
      (x.bridgeOut dst).any (fun p => p / 4 = halfCode (other x.me)))

/-- Sends a frame across on BULK. While the link is degraded or retrains, the 1 MiB queue holds it, and a frame that would
overflow the queue is dropped and counted in BRIDGE_DROPS of its ingress port (R394, R409; log 37). -/
def Half.bridgeCross (x : Half) (port : Nat) (f : List Byte) : Half :=
  let l := x.link handoffLink
  if l.st = .up then x.send (.bridge (bridgePort x.me port) f)
  else if l.st = .degraded || l.st = .retraining then
    if 1048576 < x.links.bridgeHeld + f.length then x.modPort port (fun p => { p with bridgeDrops := p.bridgeDrops + 1 })
    else
      let y := x.send (.bridge (bridgePort x.me port) f)
      { y with links := { y.links with bridgeHeld := y.links.bridgeHeld + f.length } }
  else x

/-! ### Commands -/

/-- The MACs of the half work. -/
def Half.macLive (x : Half) (port : Nat) : Bool :=
  x.alive && decide (port < 5) && (x.port port).linkUp && !x.powx.subReset.contains 12

/-- A frame that a flow takes at `t` ps: its sender becomes a partner; without a binding it is counted in UNBOUND_DROPS; framing
outside R202 is dropped and counted against the sender (R402, spec/17_partners.md R423, R426); any other packet joins its image or
access unit, which CAPTURE_WRITE writes when it is whole (spec/08_input_pipeline.md R202). -/
def Half.toFlow (x : Half) (port : Nat) (f : List Byte) (k : Flow) (t : Nat) : Half :=
  let y := x.ptnArrive 6 port (ethIdent (frameSrc f) port)
  match y.sourceBinding (0x20 + k.num) with
  | none => y.modPort port (fun p => { p with unboundDrops := p.unboundDrops + 1 })
  | some b => match flowPacket b.select f with
    | some p => y.addPacket b port t p
    | none => y.violate (y.ethSrc (frameSrc f) port).1 0x06 1 1 port 0

/-- ETH_RECEIVE_FRAME: `frame` is the frame without its FCS, `fcs` says whether the FCS is good, and `t` is the synchronised time
in ps at which it crossed the port's reference plane. The first rule of R402 that applies takes the frame; gPTP messages that the
time unit takes have commands of their own. -/
def execEthReceiveFrame (h : HalfId) (port : Nat) (frame : List Byte) (fcs : Bool) (t : Nat) (s : State) :
    Host.Outcome State Fault Refusal :=
  .next (s.mod h (fun x =>
    if !(x.macLive port && fcs) then x
    else
      let ts := t - (x.port port).ingressLat.toNat
      if frameType frame = 0x88F7 then
        if !x.carriesPtp port || netNat frame (frameBody frame + 4) 1 ≠ x.cfgb.domain then
          (x.takePtp { port := port, src := frameSrc frame, domain := netNat frame (frameBody frame + 4) 1, seq := 0, ok := true, t := t }).1
        else x
      else match x.flowOf port frame with
        | some k => x.toFlow port frame k ts
        | none =>
          if x.cfg.bridge && port < 4 then
            let y := (x.learn (frameSrc frame) (bridgePort h port)).bridgeLocal (bridgePort h port) frame
            let y := if y.bridgeCrosses frame then y.bridgeCross port frame else y
            if y.forStack (frameDst frame) then y.toRing port frame ts else y
          else x.toRing port frame ts))

/-- MAC_TRANSMIT: the MAC takes the ring's next descriptor that it owns; `t` is the synchronised time in ps at which the frame
crosses the reference plane (R401, R405, spec/14_cores.md R372). -/
def execMacTransmit (h : HalfId) (port ring t : Nat) (s : State) : Host.Outcome State Fault Refusal :=
  .next (s.mod h (fun x =>
    match x.cfgb.rings.find? (fun r => r.port = port && r.num = ring && r.tx) with
    | none => x
    | some r =>
      let va := x.ringDesc r
      if !x.macLive port || ((x.port port).txOff[ring]?.getD false) || x.vnat r.ctx (va + 0x0A) 1 % 2 = 0 then x
      else
        let len := x.vnat r.ctx (va + 0x08) 2
        if len < 60 || 9600 < len then x.ringDone r len true none
        else match r.pair.filter (fun p => !x.ump.gates.getLsbD p) with
          | some _ =>
            let y := x.modPort port (fun p => { p with gateDrops := p.gateDrops + 1 })
            ({ y with cores := { y.cores with gateDrops := y.cores.gateDrops + 1 } } : Half).ringDone r len true none
          | none =>
            if x.mapped r.ctx (x.vnat r.ctx va 8) len then
              (x.sendOn port (.frame (x.vread r.ctx (x.vnat r.ctx va 8) len))).ringDone r len false (some (t + (x.port port).egressLat.toNat))
            else x.ringDone r len true none))

/-- What crosses the bridge: a frame with its ingress port, or a Sync of the relay. -/
def LinkMsg.crossing : LinkMsg → Option (Sum (Nat × List Byte) RelaySync)
  | .bridge port frame => some (.inl (port, frame))
  | .sync r => some (.inr r)
  | _ => none

/-- BRIDGE_FRAME_RECEIVE: the oldest crossing frame in the other half's outbox leaves its queue, is forwarded to this half's bridge
ports, and goes to this half's stack when it is for it (R409); a Sync goes to the ports as the relay sends it (R410). -/
def execBridgeFrameReceive (h : HalfId) (s : State) : Host.Outcome State Fault Refusal :=
  let o := s.half (other h)
  .next (match o.takeOut LinkMsg.crossing with
    | none => s
    | some (m, rest) =>
      if !((s.half h).alive && (s.half h).handoffUp && (s.half h).cfg.bridge) then s
      else
        let held := match m with
          | .inl (_, frame) => o.links.bridgeHeld - frame.length
          | .inr _ => o.links.bridgeHeld
        let s := s.setHalf (other h) { o with links := { o.links with outbox := rest, bridgeHeld := held } }
        s.mod h (fun x => match m with
          | .inr r => x.relayOut none r
          | .inl (port, frame) =>
            let y := (x.learn (frameSrc frame) port).bridgeLocal port frame
            if y.forStack (frameDst frame) then y.toRing (port % 4) frame (x.st * 1000) else y))

end Sys2Proof.Machine
end

