-- ==== Sys2Proof/Machine/Images.lean ====
section
/-! DEFINITION. Images and the configuration composed from them: the image header, who may sign what, the boot slots, overlay
records, and the active configuration of a half (spec/19_security_debug_power.md R472 to R476,
spec/21_configuration_and_update.md R516 to R521). -/

namespace Sys2Proof.Config

open Sys2Proof.Machine

/-- The items of Cfg that a record sets, on whose encoding the spec is silent (R518; log 11). -/
opaque cfgItem : (key : Nat) → (value : List (BitVec 8)) → Cfg → Cfg

/-- The items of CfgB that a record sets, on whose encoding the spec is silent (R518; log 11). -/
opaque cfgbItem : (key : Nat) → (value : List (BitVec 8)) → CfgB → CfgB

end Sys2Proof.Config

namespace Sys2Proof.Machine

/-! ### The image header (R472) -/

/-- IMAGE_KIND. -/
def imgKind (i : List Byte) : Nat := bytesAt i 0x04 2

/-- VERSION. -/
def imgVersion (i : List Byte) : Nat := bytesAt i 0x08 4

/-- SECURITY_VERSION. -/
def imgSecVersion (i : List Byte) : Nat := bytesAt i 0x0C 4

/-- LENGTH of the payload. -/
def imgLen (i : List Byte) : Nat := bytesAt i 0x18 4

/-- The payload. -/
def imgPayload (i : List Byte) : List Byte := (i.drop 0x1000).take (imgLen i)

/-- A signer that the lifecycle state does not allow for an image kind, or a revoked root 0 (Table — Lifecycle properties,
R473). -/
def Half.signerDenied (x : Half) (kind signer : Nat) : Bool :=
  let root := signer = 1 || (signer = 0 && !x.sec.root0Revoked)
  if kind ≤ 0x07 then !root
  else if x.sec.life = 0 || x.sec.life = 4 then !root
  else if x.sec.life = 1 then (if x.sec.owner.isSome then signer ≠ 2 else !root)
  else signer ≠ 2

/-- The public key of a signer, if there is one. -/
def Half.signerKey (x : Half) (signer : Nat) : Option (BitVec 480) :=
  if signer = 0 || signer = 1 then some (Config.rootKey signer) else if signer = 2 then x.sec.owner else none

/-- Minimum SECURITY_VERSION stored for an image kind (R474). -/
def Half.minVersion (x : Half) (kind : Nat) : Nat := ((x.sec.minSec.find? (fun p => p.1 = kind)).map (·.2)).getD 0

/-- The checks of an image of a kind (R468, R472, R474, R521): `serial` is the part's SERIAL, `top` the largest LENGTH. -/
def Half.imageChecks (x : Half) (serial : BitVec 64) (kind top : Nat) (i : List Byte) : List Chk :=
  let signer := bytesAt i 0x06 1
  let sig := (i.drop 0x40).take 3284
  [{ bad := x.signerDenied kind signer || match x.signerKey signer with
      | some k => Config.hssTypes sig && !(Config.hssVerify k (i.take 0x40) sig)
      | none => true
     st := stDenied },
   { bad := !(Config.hssTypes sig), st := stMalformed, off := 0x10 },
   { bad := bytesAt i 0x10 8 ≠ 0 && bytesAt i 0x10 8 ≠ serial.toNat, st := stDenied },
   { bad := decide (imgSecVersion i < x.minVersion kind), st := stDenied },
   { bad := bytesAt i 0 4 ≠ 0x5650494D, st := stMalformed, off := 0x10 },
   { bad := imgKind i ≠ kind, st := stMalformed, off := 0x10 },
   { bad := bytesAt i 0x07 1 ≠ 0 || bytesAt i 0x1C 4 ≠ 0 || !((i.drop 0xD14).take 0x2EC).all (· = 0), st := stMalformed, off := 0x10 },
   { bad := (i.length ≠ 0x1000 + imgLen i) || Config.sha256 (imgPayload i) ≠ BitVec.ofNat 256 (bytesAt i 0x20 32)
     st := stMalformed, off := 0x10 },
   { bad := decide (top < imgLen i), st := stLimit, off := 0x10 }]

/-- An image of a kind passes verification (R472, R474). -/
def Half.imageOk (x : Half) (serial : BitVec 64) (kind : Nat) (i : List Byte) : Bool :=
  (worst (x.imageChecks serial kind 0x10000000 i)).isNone

/-! ### Boot slots (R476, R528) -/

/-- The image kinds with an A and a B slot, in the order of the records of an attestation report (R478, R528). -/
def slotKinds : List Nat := [0x01, 0x02, 0x03, 0x04, 0x05, 0x06, 0x07, 0x10]

/-- The image in a slot of a kind. -/
def Half.flashSlot (x : Half) (kind : Nat) (slotB : Bool) : Option (List Byte) :=
  ((if slotB then x.svc.flashB else x.svc.flashA).find? (fun p => p.1 = kind)).map (·.2)

/-- The image in a slot when it passes verification and the slot is not marked invalid. -/
def Half.goodSlot (x : Half) (serial : BitVec 64) (kind : Nat) (slotB : Bool) : Option (List Byte) :=
  if (kind, slotB) ∈ x.svc.invalid then none else (x.flashSlot kind slotB).filter (x.imageOk serial kind)

/-- The image that a boot takes: the active slot's, else the other's (R475, R476); with it, the slot. -/
def Half.bootImage (x : Half) (serial : BitVec 64) (kind : Nat) : Option (List Byte × Bool) :=
  let act := decide (kind ∈ x.svc.selB)
  match x.goodSlot serial kind act with
  | some i => some (i, act)
  | none => (x.goodSlot serial kind (!act)).map (fun i => (i, !act))

/-! ### Overlays and their records (R516, R517) -/

/-- SLOT of an overlay's payload. -/
def ovlSlot (p : List Byte) : Nat := bytesAt p 0x02 1

/-- The records of a payload from an offset on, `n` of them; none when one overruns it (R517). -/
def recordsFrom : Nat → List Byte → Option (List (Nat × List Byte))
  | 0, _ => some []
  | n + 1, l =>
    let len := bytesAt l 2 2
    let room := 4 + cdiv len 4 * 4
    if l.length < room then none
    else (recordsFrom n (l.drop room)).map (fun r => (bytesAt l 0 2, (l.drop 4).take len) :: r)

/-- The records of an overlay payload. -/
def ovlRecords (p : List Byte) : Option (List (Nat × List Byte)) := recordsFrom (bytesAt p 0x06 2) (p.drop 0x40)

/-- The overlays in ascending slot order. -/
def ovlsInOrder (l : List Ovl) : List Ovl := (List.range 8).flatMap (fun s => l.filter (fun o => o.slot = s))

/-- The mode that slot 0 or, when it is empty, the base image names (R516). -/
def ovlMode (base : List Byte) (l : List Ovl) : Nat :=
  match l.find? (fun o => o.slot = 0) with
  | some o => bytesAt (imgPayload o.image) 0x03 1
  | none => Config.baseMode base % 6

/-- An overlay is active in a mode: slot 0, or a supplement whose MODE_MASK names the mode (R516). -/
def Ovl.active (o : Ovl) (mode : Nat) : Bool := o.slot = 0 || (bytesAt (imgPayload o.image) 0x04 1).testBit mode

/-- The overlays active with a base image, in order of application (R516). -/
def activeOvls (base : List Byte) (l : List Ovl) : List Ovl := (ovlsInOrder l).filter (fun o => o.active (ovlMode base l))

/-- The records of the composition; a later one replaces an earlier one of the same key (R516). -/
def composedRecords (base : List Byte) (l : List Ovl) : List (Nat × List Byte) :=
  let all := Config.baseRecords base ++ (activeOvls base l).flatMap (fun o => (ovlRecords (imgPayload o.image)).getD [])
  all.foldl (fun (acc : List (Nat × List Byte)) r => acc.filter (fun p => p.1 ≠ r.1) ++ [r]) []

/-! ### The active configuration (R518) -/

/-- A value held within bounds. -/
def clamp (lo hi v : Nat) : Nat := max lo (min hi v)

/-- The configuration before its records: the mode, its Quick lane and its suspended mark (spec/04_tensor_engines.md R120,
spec/20_power_thermal_reset.md R495). -/
def modeDefaults (mode : Nat) : Cfg × CfgB :=
  ({ mode := mode, quickLane := mode = 0 || mode = 4, suspended := mode = 1 || mode = 2 }, {})

/-- The default comparison bands in 1/1,000: position and extent, velocity, heading, existence, ego position, ego heading, plan
position, plan speed (spec/18_safety.md Table — Comparison bands). -/
def defaultBands : List Nat := [100, 100, 20, 50, 50, 5, 200, 200]

/-- The band of an item: the configuration may narrow it and never widens it (spec/18_safety.md R451). -/
def CfgB.band (c : CfgB) (i : Nat) : Nat :=
  let d := defaultBands[i]?.getD 0
  match c.bands.find? (fun p => p.1 = i) with
  | some p => min d p.2
  | none => d

/-- The comparison band of an item in the configuration in use. -/
def Half.band (x : Half) (i : Nat) : Nat := x.cfgb.band i

/-- Tolerance bands narrowed by others: the lower N and the lower C of each row (spec/03_arithmetic_formats.md R89). -/
def narrowTol (old new : List (Nat × Nat)) : List (Nat × Nat) :=
  old.zipIdx.map (fun p => match new[p.2]? with
    | some q => (min p.1.1 q.1, min p.1.2 q.2)
    | none => p.1)

/-- A configuration has a band wider than another one's: a higher N or C of a row, or a wider comparison band (R518,
spec/03_arithmetic_formats.md R89). -/
def CfgB.widens (old new : CfgB) : Bool :=
  (old.tol.zip new.tol).any (fun p => p.1.1 < p.2.1 || p.1.2 < p.2.2) || (List.range 8).any (fun i => old.band i < new.band i)

/-- One record sets the items of its group, each within its range (Table — Configuration keys). -/
def applyRecord (c : Cfg × CfgB) (r : Nat × List Byte) : Cfg × CfgB :=
  let d := Config.cfgItem r.1 r.2 c.1
  let e := Config.cfgbItem r.1 r.2 c.2
  let g := r.1 / 256
  if g = 1 then
    ({ c.1 with chainClients := d.chainClients, rtClients := d.rtClients, quickClients := d.quickClients
                decClients := d.decClients, classMask := d.classMask, systemCore := d.systemCore % 16, pairs := d.pairs
                siteWins := d.siteWins.take 4, peerSerial := d.peerSerial, evacReceiver := d.evacReceiver }, c.2)
  else if r.1 = 0x0200 then
    ({ c.1 with primary := d.primary, shareHalf := d.shareHalf, share := clamp 30 70 d.share }, c.2)
  else if r.1 = 0x0201 then ({ c.1 with frameRate := clamp 10 100 (leNat r.2) }, c.2)
  else if r.1 = 0x0202 then ({ c.1 with quickLane := d.quickLane, suspended := d.suspended }, c.2)
  else if g = 3 then ({ c.1 with qos := d.qos, qosLocks := d.qosLocks }, c.2)
  else if g = 4 then ({ c.1 with cap := d.cap.map (clamp 60 480) }, c.2)
  else if r.1 = 0x0500 then ({ c.1 with bridge := d.bridge }, c.2)
  else if g = 5 then
    (c.1, { c.2 with ptpPorts := e.ptpPorts, domain := e.domain % 128, extRoles := e.extRoles, priority1 := e.priority1 % 256
                     syncTimeout := clamp 2 255 e.syncTimeout, annTimeout := clamp 2 255 e.annTimeout
                     logSync := max (-5) (min 0 e.logSync), logAnn := max (-3) (min 3 e.logAnn), propThresh := e.propThresh
                     startWaitMs := min 60000 e.startWaitMs, slewPpb := clamp 1000 500000 e.slewPpb, lats := e.lats
                     flows := e.flows.take 32, rings := e.rings, fdbStatic := e.fdbStatic.take 4096 })
  else if g = 6 then
    (c.1, { c.2 with bands := e.bands, tol := narrowTol c.2.tol e.tol, intervals := e.intervals, releases := e.releases, loopPair := e.loopPair % 2 })
  else if g = 7 then
    (c.1, { c.2 with hotThreshold := clamp 1 15 e.hotThreshold, hotParts := e.hotParts.take 4, decThreshold := e.decThreshold, means := e.means
                     bulkLimit := clamp 1000 16000 e.bulkLimit })
  else if g = 8 then (c.1, { c.2 with viol := e.viol })
  else if g = 9 then (c.1, { c.2 with memThresh := e.memThresh })
  else c

/-- The active configuration composed from a base image and overlays (R516). -/
def composeCfg (base : List Byte) (l : List Ovl) : Cfg × CfgB :=
  let recs := composedRecords base l
  let c := recs.foldl applyRecord (modeDefaults (ovlMode base l))
  ({ c.1 with bootMode := Config.bootMode recs }, c.2)

/-! ### Taking up a configuration (R523) -/

/-- Default caps by mode, in W (spec/20_power_thermal_reset.md R501). -/
def defaultCap (mode : Nat) : Nat := ([320, 60, 120, 200, 90, 480][mode]?).getD 480

/-- The cap that the configuration sets for its mode, in W (R501). -/
def Cfg.capW (c : Cfg) : Nat := c.cap.getD (defaultCap c.mode)

/-- The regulator with its RW fields as the configuration loads them, and its locks (spec/13_bandwidth_regulation.md R358). -/
def Half.loadQos (x : Half) : Half :=
  let q0 := x.qos
  let base : Qos := { q0 with
    windowUs := 0xA, newWindow := none, lockWindow := false, irqEnable := 0
    classes := q0.classes.map (fun (k : QClass) => { misses := k.misses, served := k.served, count := k.count })
    ports := q0.ports.zipIdx.map (fun (p : QPort × Nat) => { p.1 with
      fixedCls := if p.2 = 23 || p.2 = 24 then 7 else if p.2 = 37 then 0 else 2
      otLo := 0x0100010001000100#64, otHi := 0x0100010001000100#64, boost := 0x40, t1 := 0x40, t2 := 0x80, t3 := 0xC0
      budgetNs := 0x7D0, locked := false }) }
  let y := x.cfg.qos.foldl (fun (y : Half) r => match y.qosPut r.1 8 r.2.toNat with
    | some q => { y with qos := q }
    | none => y) { x with qos := base }
  let lock := fun (o : Nat) => y.cfg.qosLocks.contains o
  let q := y.qos
  { y with qos := { q with
      windowUs := q.newWindow.getD q.windowUs, newWindow := none, lockWindow := lock 8
      classes := q.classes.zipIdx.map (fun (p : QClass × Nat) => { p.1 with
        guar := p.1.newGuar.getD p.1.guar, weight := p.1.newWeight.getD p.1.weight, newGuar := none, newWeight := none
        lockGuar := lock (0x100 + p.2 * 0x20), lockWeight := lock (0x108 + p.2 * 0x20) })
      ports := q.ports.zipIdx.map (fun (p : QPort × Nat) => { p.1 with
        locked := (List.range 5).any (fun i => lock (0x1000 + p.2 * 0x40 + 8 * i)) }) } }

/-- A ring's pages: its descriptors (spec/16_time_and_ethernet.md R400). -/
def Half.ringMapped (x : Half) (r : Ring) : Bool := x.writable r.ctx r.va (32 * 2 ^ r.log2)

/-- Rings whose pages are not wholly mapped are disabled and logged; the others start at descriptor 0 (R400, spec/17 R426). -/
def Half.loadRings (x : Half) : Half :=
  let off := fun (p : Nat) (tx : Bool) => (List.range 4).map (fun n =>
    x.cfgb.rings.any (fun r => r.port = p && r.tx = tx && r.num = n && !(x.ringMapped r)))
  let bad := x.cfgb.rings.filter (fun r => !(x.ringMapped r))
  let y : Half := { x with timx := { x.timx with ports := x.timx.ports.zipIdx.map (fun (p : TimPort × Nat) => { p.1 with
    rxNext := [0, 0, 0, 0], txNext := [0, 0, 0, 0], rxOff := off p.2 false, txOff := off p.2 true }) } }
  bad.foldl (fun (z : Half) r => z.vioLog .config 0x0B 1 5 (r.port * 8 + r.num * 2 + b2n r.tx) r.va) y

/-- The Ethernet part of a configuration: latencies, rings and port roles; a new slave port, domain or interval is taken up as a new
source is (R405, R418, R420). -/
def Half.loadPorts (x : Half) (old : Cfg × CfgB) : Half :=
  let lat := fun (p : Nat) => x.cfgb.lats.find? (fun l => l.1 = p)
  let y : Half := { x with timx := { x.timx with ports := x.timx.ports.zipIdx.map (fun (p : TimPort × Nat) => { p.1 with
    ingressLat := BitVec.ofNat 32 (min 1000000 (((lat p.2).map (·.2.1)).getD 0))
    egressLat := BitVec.ofNat 32 (min 1000000 (((lat p.2).map (·.2.2)).getD 0)) }) } }
  let y := if y.cfgb.rings = old.2.rings then y else y.loadRings
  let z := y.bmca
  if z.tim.source = 1 && (z.slavePort ≠ x.slavePort || z.cfgb.domain ≠ old.2.domain || z.cfgb.logSync ≠ old.2.logSync ||
      z.cfgb.logAnn ≠ old.2.logAnn) then z.regather
  else z

/-- Takes up an active configuration in one cycle (R523): the QOS_ fields, the cap, the ports, the loop pair. -/
def Half.takeCfg (x : Half) (c : Cfg × CfgB) : Half :=
  let old := (x.cfg, x.cfgb)
  let y : Half := { x with
    cfg := c.1, cfgb := c.2
    pow := { x.pow with cap := BitVec.ofNat 16 (10 * c.1.capW) }
    cores := { x.cores with loopPair := c.2.loopPair } }
  y.loadQos.loadPorts old

end Sys2Proof.Machine
end

