-- ==== Sys2Proof/Machine/Reset.lean ====
section
/-! DEFINITION. Power domains, what a reset and a low-power state leave in place, entry to the safe state, and the boot chain
(spec/20_power_thermal_reset.md R492 to R499, R512 to R515, spec/19_security_debug_power.md R475 to R477,
spec/18_safety.md R453). -/

namespace Sys2Proof.Machine

/-! ### Power domains (R492, R493) -/

/-- An engine that a power state may power: not RETIRED, a SPARE only once it is to replace another, and its compute die was admitted at
boot (R493, spec/04_tensor_engines.md R115, spec/15 R379). -/
def Half.enginePowered (x : Half) (n : Nat) : Bool :=
  let e := x.engine n
  (e.st ≠ .spare || x.sched.retireSpare = some n || x.owedSpares.contains n) && e.st ≠ .retired && (e.st ≠ .off || e.back ≠ .off || (!x.powx.ready && (x.partner (9 + n / 9)).st = .present))

/-- The domains that the half's power state powers (Table — Domains by power state). -/
def Half.wantDomain (x : Half) (d : Nat) : Bool :=
  let runs := x.pow.st = .run || x.pow.st = .dim
  let on := runs || x.pow.st = .doze
  if d = 0 then true
  else if x.umpx.safe then false
  else if d ≤ 18 then runs && x.enginePowered (d - 1)
  else if d ≤ 30 then on && d - 19 ∉ x.mem.slicesOut
  else if d ≤ 32 then runs && !((List.range 8).all (fun k => (x.link ((d - 31) * 8 + k)).st = .down))
  else if d = 38 || d = 39 then on || x.pow.st = .hibernate
  else on

/-- The domains that the power state powers, as PWR_DOMAINS shows them. -/
def Half.wantDomains (x : Half) : BitVec 56 :=
  (List.range 56).foldl (fun (a : BitVec 56) d => if x.wantDomain d then setBit a d else a) 0

/-- Switches off every domain that the power state does not power. -/
def Half.trimDomains (x : Half) : Half := { x with pow := { x.pow with domains := x.pow.domains &&& x.wantDomains } }

/-! ### What is kept (R514) -/

/-- An engine after a loss of its power: RETIRED, its disagreement record and the count of uncorrectable scratch errors since
manufacture are non-volatile, everything else is as at reset (spec/04_tensor_engines.md R114, R118). -/
def Engine.coldStart (e : Engine) : Engine :=
  { num := e.num, st := if e.st = .retired then .retired else .off, back := .off
    lastDisagree := e.lastDisagree, disagreeValid := e.disagreeValid, scratchUE := e.scratchUE }

/-- A link record after a reset of its half: its repair state, counts and advisory are non-volatile (spec/15 R386, R397). -/
def Link.coldStart (l : Link) : Link :=
  { degrades := l.degrades, repairs := l.repairs, advisory := l.advisory, faulty := l.faulty }

/-- A partner entry over a half reset at synchronised time t: PRESENT becomes ABSENT; counts, GENERATION and quarantines are kept,
and RELEASE_TIME holds the remaining hold until the half next reports ready (R514). -/
def Partner.overReset (t : Nat) (p : Partner) : Partner :=
  { p with
    st := if p.st = .present then .absent else p.st
    release := if p.release = 0 then 0 else BitVec.ofNat 64 (max 1 (p.release.toNat - t)) }

/-- The half without its switched domains: what the always-on domain, the non-volatile store, the boot flash and, over a half
reset, the partner table and the logs keep (Table — Retention). DRAM and the tables in it are gone, and so is every command in
flight. -/
def Half.switchedOff (x : Half) : Half :=
  { me := x.me, free := x.free, cfg := x.cfg, cfgb := x.cfgb, ump := x.ump, umpx := x.umpx, tests := x.tests
    sched := { spareEngs := x.sched.spareEngs, engines := x.sched.engines.map Engine.coldStart }
    mem := { retired := x.mem.retired, slicesOut := x.mem.slicesOut, pcsOut := x.mem.pcsOut, log := x.mem.log, logSeq := x.mem.logSeq }
    qos := { causes := x.qos.causes }
    links := { recs := x.links.recs.map Link.coldStart, log := x.links.log, logSeq := x.links.logSeq, advisories := x.links.advisories }
    timx := { ports := x.timx.ports.map (fun (p : TimPort) => { asym := p.asym }) }
    ptn := { x.ptn with entries := x.ptn.entries.map (fun (p : Partner) => p.overReset x.st), sites := false, tetherUp := none, admitted := false }
    sec := { x.sec with upload := none, pendLife := none, tetherReport := false }
    svc := { flashA := x.svc.flashA, flashB := x.svc.flashB, selB := x.svc.selB, invalid := x.svc.invalid
             overlays := x.svc.overlays, trims := x.svc.trims, trimData := x.svc.trimData }
    pow := { thetaJ := x.pow.thetaJ, thetaM := x.pow.thetaM, cap := x.pow.cap, st := x.pow.st, coolant := x.pow.coolant, age := x.pow.age }
    powx := { thetaOld := x.powx.thetaOld, inReset := x.powx.inReset, wakeAt := x.powx.wakeAt, wakeLine := x.powx.wakeLine
              lastCoolant := 0 } }

/-- The Umpire after a reset of its domain: the records that are non-volatile, the count of safe-state entries, since every exit of the
safe state is a half reset (log 95), and KILL (R514, spec/18_safety.md R445, R464, spec/22_package_and_electrical.md R547). -/
def Half.umpireReset (x : Half) : Half :=
  { x with
    ump := { transients := x.ump.transients, safeEntries := x.ump.safeEntries, disagreeFrame := x.ump.disagreeFrame, kill := x.ump.kill, killed := x.ump.killed }
    umpx := {}, tests := List.replicate 10 {} }

/-- The security block after a reset of its domain: the security region is non-volatile (spec/19_security_debug_power.md R467),
the debug level ends (R488), and FIELD-DEBUG time is what was last written (R483). -/
def Half.secReset (x : Half) : Half :=
  { x with sec := { x.sec with
      debug := 0, debugEnd := 0, report := none, bucket := 16, refill := 0, upload := none, pendLife := none, tetherReport := false
      fdTime := x.sec.fdSaved, keygen := false } }

/-- The half in reset (R512): every domain of it, domain 0 included; it is off until it boots. -/
def Half.halfReset (x : Half) : Half :=
  let y := x.switchedOff.umpireReset.secReset
  { y with pow := { y.pow with st := .off, coolant := 0x410, age := 0xFFFF }, powx := { y.powx with wakeAt := none, wakeLine := false } }

/-- The half before a device power-on (R514): the partner table and the logs go too, and the local records of the logs start
again. -/
def Half.powerReset (x : Half) : Half :=
  let y := x.halfReset
  { y with
    mem := { y.mem with log := [], logSeq := 0 }
    links := { y.links with log := [], logSeq := 0 }
    ump := { y.ump with safeEntries := 0 }
    ptn := {}
    qos := {}
    cfg := {}, cfgb := {} }

/-! ### The other half's end (R391, spec/11_scheduling_and_sync.md R298) -/

/-- The in-flight commands that depend on a lost half complete with ST_DISCARDED (R298): remote operations over the Handoff link,
and huddles that wait for its arrival. -/
def Half.dependents (x : Half) : List Nat :=
  x.sentOn false ++ (x.mem.huddles.filter (fun k => bitAt k.mask 43 && !bitAt k.arrived 43)).map (·.cmd)

/-- A half is lost: the other half's end of the Handoff link is DISABLED (R391), its queued traffic is gone, and its dependent
commands are discarded (R298). -/
def State.peerGone (s : State) (h : HalfId) : State :=
  s.mod (other h) (fun x =>
    if x.pow.st = .off && !x.powx.booted then x
    else
      let y := x.dependents.foldl (fun (z : Half) n => z.endLost n) (x.handoffGone .disabled)
      y.settle)

/-! ### Gates (spec/18_safety.md R442, spec/14_cores.md R372) -/

/-- The lifecycle state lets the Umpire refresh the chain gate permits (Table — Lifecycle properties). -/
def Half.permits (x : Half) : Bool := x.sec.life = 1 || x.sec.life = 2 || x.sec.life = 3

/-- Sets the gates; a changed gate raises its pair's external line (spec/14_cores.md R375), and an open one has a fresh permit. -/
def Half.setGates (x : Half) (g : BitVec 2) : Half :=
  let y : Half := { x with ump := { x.ump with
    gates := g, permit := (List.range 2).map (fun j => if g.getLsbD j then x.ump.clock else x.ump.permit[j]?.getD 0) } }
  (List.range 2).foldl (fun (z : Half) j => if x.ump.gates.getLsbD j = g.getLsbD j then z else z.pairLine j) y

/-- Closes every gate of the half. -/
def Half.closeGates (x : Half) : Half := x.setGates 0

/-- Opens the chain gate: that of the loop pair, where permits are refreshed (R442) and INVASIVE is not open (spec/19 R487). -/
def Half.openGates (x : Half) : Half :=
  if x.permits && x.sec.debug ≠ 2 && x.alive then x.setGates (if x.cores.loopPair = 0 then 1 else 2) else x

/-! ### The safe state (R453) -/

/-- The half enters its safe state: every switched domain off, its gates closed, its Handoff link DISABLED, any debug level
ended (spec/19_security_debug_power.md R488). FAULT, already sent on both heartbeat paths, stays on its way (R454). -/
def Half.enterSafe (x : Half) (fault : Bool) : Half :=
  let msgs := if fault then [LinkMsg.fault] else []
  let y := x.closeGates.switchedOff
  let y : Half := { y with
    ump := { y.ump with gates := 0, safeEntries := satInc y.ump.safeEntries, role := 0 }
    umpx := { y.umpx with safe := true, sub := .none, standbyReady := false, untrusted := false }
    sec := { y.sec with debug := 0, debugEnd := 0 }
    pow := { y.pow with st := x.pow.st, domains := 1 }
    powx := { y.powx with wakeAt := none }
    links := { y.links with outbox := msgs, busOut := x.links.busOut ++ msgs } }
  y.modLink handoffLink (fun l => { l with st := .disabled })

/-! ### The boot chain (R475 to R477) -/

/-- What the boot finds that the state does not hold. -/
def bootKinds : List Nat := [0x02, 0x03, 0x04, 0x05, 0x06, 0x07, 0x10]

/-- Place of an image kind in SLOT_MASK and FALLBACK_MASK (R478). -/
def kindBit (kind : Nat) : Nat := if kind = 0x10 then 7 else kind - 1

/-- A half that cannot boot stays in its safe state and never reports ready (R476). -/
def Half.bootFailed (x : Half) : Half :=
  { x with umpx := { x.umpx with safe := true }, pow := { x.pow with domains := 1 } }

/-- The time unit starts (spec/16_time_and_ethernet.md R412): the local counter at zero and ST equal to it, UNSET. -/
def Half.startClock (x : Half) : Half := { x with tim := { running := true }, sec := { x.sec with fdMark := 0 } }

/-- Client 0 and context 0, which the Captain creates at boot (spec/02_captain_and_mailboxes.md R50, spec/11 R287). -/
def Half.systemClient (x : Half) : Half :=
  { x with sched := { x.sched with
      clients := { id := 0, maxCtx := 4096, maxQ := 524288 } :: x.sched.clients.filter (fun c => c.id ≠ 0)
      ctxs := { id := 0, client := 0, tier := 2 } :: x.sched.ctxs.filter (fun c => c.id ≠ 0) } }

/-- Boot steps 5 to 7 with the images already chosen: the configuration, the identification fields, the time unit, client 0 and
the pairs; the domains and the engines follow as they report power-good (R494), the links as they train. The power cap is the
running half's, else the configuration's (R501). An overlay with no passing copy is not applied, and its slot is empty (R476). -/
def Half.bootUp (x : Half) (imgs : List (Nat × List Byte × Bool)) (ovls : List Ovl) (run : Option Half) : Half :=
  let img := fun k => ((imgs.find? (fun p => p.1 = k)).map (fun p => p.2.1)).getD []
  let y : Half := { x with
    svc := { x.svc with overlays := ovls, running := imgs.map (fun p => (p.1, p.2.1)), ranB := (imgs.filter (fun p => p.2.2)).map (·.1) }
    ident := { captainFw := BitVec.ofNat 32 (imgVersion (img 2)), baseImage := BitVec.ofNat 32 (imgVersion (img 0x10)) }
    pow := { x.pow with st := .run, domains := 1 }
    powx := { x.powx with booted := true, ready := false, wakeLatched := false, wakeLine := false, wakeAt := none }
    cores := { x.cores with pairs := x.cores.pairs.map (fun (p : RtPair) => { p with
      running := true, fw := b2n (imgs.any (fun i => i.1 = 4 && i.2.2)) }) } }
  let y := y.startClock
  let y : Half := match run with
    | some r => if r.tim.running && r.handoffUp then y.loadClock r else y
    | none => y
  let y := y.systemClient.takeCfg (composeCfg (img 0x10) ovls)
  let y : Half := match run with
    | some r => { y with pow := { y.pow with cap := r.pow.cap } }
    | none => y
  let y : Half := { y with ump := { y.ump with clock := x.ump.clock, captainBeat := x.ump.clock } }
  (y.cause 0 true).trimDomains

/-- The boot chain from step 1 on a half just reset (Table — Boot chain, R475, R476): `lifeOk` says that the lifecycle state passes
its integrity check, `umpOk` that the Umpire's start-up self-test passes; `run` is the other half when it is running. A failed
self-test asserts KILL (spec/18_safety.md R455). -/
def Half.bootChain (x : Half) (serial : BitVec 64) (lifeOk umpOk : Bool) (run : Option Half) : Half :=
  let y : Half := { x with sec := { x.sec with bootCount := x.sec.bootCount + 1 }, ump := { x.ump with kill := x.ump.killed } }
  if !lifeOk then y.bootFailed
  else match y.bootImage serial 0x01 with
    | none => y.bootFailed
    | some u =>
      if !umpOk then { y.bootFailed with ump := { y.ump with kill := true, killed := true } }
      else
        let found := bootKinds.map (fun k => (k, y.bootImage serial k))
        let imgs := (0x01, u.1, u.2) :: found.filterMap (fun p => p.2.map (fun i => (p.1, i.1, i.2)))
        if imgs.length < 8 then y.bootFailed
        else
          let fell := imgs.filter (fun i => i.2.2 ≠ decide (i.1 ∈ y.svc.selB))
          let mask : BitVec 16 := fell.foldl (fun (m : BitVec 16) i => setBit m (kindBit i.1)) 0
          let y : Half := { y with sec := { y.sec with fallback := mask } }
          y.bootUp imgs (y.svc.overlays.filter (fun o => y.imageOk serial 0x11 o.image)) run

/-- The other half is running, as R412 and R501 ask. -/
def State.runner (s : State) (h : HalfId) : Option Half :=
  let o := s.half (other h)
  if o.alive && o.powx.ready then some o else none

/-- The Handoff link trains once both ends are powered: at the boot of a half, the other half's end trains with it (R391). -/
def State.trainHandoff (s : State) (h : HalfId) : State :=
  let up := (s.half h).alive && (s.half (other h)).alive
  if up then
    (s.mod h (fun x => x.modLink handoffLink (fun l => { l with st := .training, fails := 0 }))).mod (other h)
      (fun x => x.modLink handoffLink (fun l => if l.st = .up || l.st = .degraded then l else { l with st := .training, fails := 0 }))
  else s

/-- The boot bound: 1,500 ms or START_WAIT, whichever is later (Table — Boot chain). -/
def Half.bootBound (x : Half) : Nat := max 1500000000 (x.cfgb.startWaitMs * 1000000)

/-- The return from SOLO fails: the device stays in SOLO and the request completes with ST_BUSY (spec/01_two_halves.md R30); a half that
booted for it is held for update (R24; log 43). -/
def State.rejoinFails (s : State) : State :=
  match s.dev.rejoin with
  | none => s
  | some r =>
    let t := s.dropChange.mod r.half (fun x =>
      let y := x.cause 3 false
      if r.kept || !y.alive then y else { y with powx := { y.powx with held := true } })
    t.mod (other r.half) (fun x => { x with umpx := { x.umpx with duplicating := false } })

/-- A half resets and boots from step 1 (R512, R475). A boot that fails is step 1 of a return from SOLO that fails
(spec/01_two_halves.md R30). -/
def State.bootHalf (s : State) (h : HalfId) (lifeOk umpOk : Bool) : State :=
  let t := (s.mod h (fun x => x.halfReset.bootChain s.dev.serial lifeOk umpOk (s.runner h))).trainHandoff h
  if t.dev.rejoin.any (fun r => r.half = h) && !(t.half h).powx.booted then t.rejoinFails else t

/-- A half resets without booting: the other half loses it (R512). -/
def State.resetHalf (s : State) (h : HalfId) : State := (s.mod h Half.halfReset).peerGone h

/-- A half resets, is lost to the other half, and boots again (R488, R512). -/
def State.rebootHalf (s : State) (h : HalfId) : State := (s.resetHalf h).bootHalf h true true

end Sys2Proof.Machine
end

