-- ==== Sys2Proof/Machine/Chain.lean ====
section
/-! DEFINITION. Who carries the safety-relevant chain: roles and gates, taking the chain from a checkpoint, local replay,
substitution and takeover (spec/18_safety.md R442, R447 to R454, spec/01_two_halves.md R24 to R31). -/

namespace Sys2Proof.Machine

/-! ### Roles (R464) -/

/-- UMP_ROLE of a half in a mode (R464): 6, taking over, from the restore to the opening of the gates. -/
def State.roleOf (s : State) (h : HalfId) : Nat :=
  let x := s.half h
  if !(x.alive && x.powx.ready) || s.dev.evacuated then 0
  else if x.umpx.sub = .restored then 6
  else match s.dev.mode with
    | .dual => if s.dev.chain = h then 1 else 2
    | .mirror => if s.dev.chain = h then 3 else 4
    | .solo => if s.dev.chain = h then 5 else 0

/-- Brings UMP_ROLE of both halves up to date. -/
def State.setRoles (s : State) : State :=
  let set := fun (t : State) (h : HalfId) => t.mod h (fun x => { x with ump := { x.ump with role := BitVec.ofNat 8 (s.roleOf h) } })
  set (set s .a) .b

/-- The Umpire of a half runs: its always-on domain is powered and not in reset. -/
def Half.umpireRuns (x : Half) : Bool := x.pow.st ≠ .off && !x.powx.inReset && !x.ump.killed

/-! ### Taking the chain from a checkpoint (R448) -/

/-- The fusion session restored from a checkpoint, in the half's own CHAIN session where it has one (spec/09_fusion_engine.md R254;
log 39). -/
def Half.restoreFusion (x : Half) (c : Checkpoint) : Half :=
  match c.fusion with
  | none => { x with sched := { x.sched with fusion := none } }
  | some f =>
    let g := match x.sched.fusion with
      | some own => { f with ctx := own.ctx, gridVa := own.gridVa }
      | none => f
    let y : Half := { x with sched := { x.sched with fusion := some g } }
    if y.writable g.ctx g.gridVa c.grid.length then y.commitBytes g.ctx (placeBytes g.gridVa c.grid) else y

/-- The planning session restored from a checkpoint, with an empty tree (spec/10_motion_planning.md R282). -/
def Half.restorePlan (x : Half) (c : Checkpoint) : Half :=
  { x with sched := { x.sched with plan := c.plan.map (fun (p : Plan) => match x.sched.plan with
    | some own => { p with ctx := own.ctx, gridVa := own.gridVa, tree := [], queue := [] }
    | none => { p with tree := [], queue := [] }) } }

/-- Steps of the chain units that are not yet committed do not outlive a restore (R460). -/
def Half.stopChainSteps (x : Half) : Half :=
  let ns := (x.sched.cmds.filter (fun c => (dUnit c.desc = 6 || dUnit c.desc = 7) && x.chainCtx c.ctx && c.st ≠ .waiting)).map (·.id)
  (x.endCmds ns stKilled).settle

/-- CAPTURE_SEQ and CAPTURE_TIME of the captures that a ring retains. -/
def Half.retained (x : Half) (b : Binding) : List (Nat × Nat) :=
  (List.range (min b.produced.toNat (2 ^ b.log2))).map (fun j =>
    let q := b.produced.toNat - 1 - j
    (q, x.vnat b.ctx (b.ring + 64 + 64 * (q % 2 ^ b.log2) + 8) 8))

/-- The replay set (R448 step 2): every retained capture of every CHAIN binding newer than the checkpoint's mark of its source;
`crossed` says that the checkpoint came from the other half, whose source 0x40 + n is this half's n. -/
def Half.replaySet (x : Half) (marks : List (Nat × Nat)) (crossed : Bool) : List (Nat × Nat) :=
  (x.sched.pipe.bindings.filter (fun b => x.chainCtx b.ctx && b.source < 0x80)).flatMap (fun b =>
    let key := if crossed then b.source ^^^ 0x40 else b.source
    let t := ((marks.find? (fun m => m.1 = key)).map (·.2)).getD 0
    ((x.retained b).filter (fun e => t < e.2)).map (fun e => (b.num, e.1)))

/-- The half takes the chain from its newest checkpoint (R448): sessions, replay set, and the signal to the chain client. With no
checkpoint the sessions are empty and the chain restarts cold. -/
def Half.takeChain (x : Half) (crossed : Bool) : Half :=
  let x := x.stopChainSteps
  let y := match x.ump.checkpoints.head? with
    | some c =>
      let y := (x.restoreFusion c).restorePlan c
      { y with umpx := { y.umpx with replay := y.replaySet c.marks crossed } }
    | none => { x with sched := { x.sched with fusion := none, plan := none }
                       umpx := { x.umpx with replay := x.replaySet [] crossed } }
  y.announce 69

/-- The chain sessions of a half that gives up the chain are emptied (Table — Substitution in DUAL, step 6). -/
def Half.emptyChain (x : Half) : Half :=
  let x := x.stopChainSteps
  { x with sched := { x.sched with
      fusion := x.sched.fusion.filter (fun f => !x.chainCtx f.ctx), plan := x.sched.plan.filter (fun p => !x.chainCtx p.ctx) } }

/-- The half becomes the standby of the chain. -/
def Half.becomeStandby (x : Half) : Half :=
  { x.emptyChain with umpx := { x.umpx with standbyReady := false, streamsOk := false, gotCheck := false, sub := .none } }

/-! ### Untrusted frames (R445, R449, R450) -/

/-- The checkpoint of the untrusted frame is discarded: the older one is the newest left. -/
def Half.dropUntrusted (x : Half) (frame : Nat) : Half :=
  { x with ump := { x.ump with checkpoints := x.ump.checkpoints.filter (fun c => c.frame < frame) } }

/-- Local replay (R449): the half takes the chain from its own checkpoint before the untrusted frame; in the first frame after a
takeover, from the checkpoint from which the takeover started (R460). -/
def Half.localReplay (x : Half) (frame : Nat) : Half :=
  let first := x.umpx.takeoverFrame = some frame || x.umpx.takeoverFrame = some x.frame
  let y := (x.dropUntrusted (if first then x.umpx.takeoverFrom + 1 else frame)).takeChain first
  let y : Half := { y with
    ump := { y.ump with substs := satInc y.ump.substs }
    umpx := { y.umpx with untrusted := true, sub := .none } }
  y.umpEvent 9

/-- The lead's frame matched within the comparison bands (R449). -/
def Half.frameMatched (x : Half) (frame : Nat) : Bool :=
  x.umpx.matched.contains (false, frame) && x.umpx.matched.contains (true, frame)

/-- The chain-carrying half of the device changes, with the time lead (spec/16_time_and_ethernet.md R419). -/
def State.moveChain (s : State) (h : HalfId) : State :=
  (({ s with dev := { s.dev with chain := h } } : State).setLead h).setRoles

/-- The chain gates of a half open, unless the chain is evacuated: then neither half runs it (spec/17_partners.md R436). -/
def State.openChain (s : State) (h : HalfId) : State := if s.dev.evacuated then s else s.mod h Half.openGates

/-- A half opens its chain gates (R442): at once when the other half is lost or has no open gate it could have said to be open,
which is when it does not run; otherwise only once GATE_CLOSED has come. -/
def State.openIfAlone (s : State) (h : HalfId) : State :=
  if (s.half (other h)).alive then s else s.openChain h

/-- The half closes its chain gates and says so to the other half (R442, R450). -/
def Half.giveGates (x : Half) : Half :=
  let y := x.closeGates
  if y.handoffStands then y.send .gateClosed else y

/-- The other half becomes lead at once in MIRROR (R449): the former lead's gates close first (R442). -/
def State.swapLead (s : State) (h : HalfId) : State := (s.mod h Half.giveGates).moveChain (other h)

/-- A frame of the chain-carrying half is untrusted (Table — Untrusted frame handling; R460 where both halves disagree). -/
def State.untrustedFrame (s : State) (h : HalfId) (frame : Nat) : State :=
  let o := s.half (other h)
  let s := s.mod h (fun x => ({ x with umpx := { x.umpx with untrusted := true } } : Half).umpEvent 2)
  let both := o.umpx.badFrame = some o.frame
  match s.dev.mode with
  | .dual =>
    if both || !o.alive || !(s.half h).handoffStands then s.mod h (fun x => x.localReplay frame)
    else
      s.mod h (fun x =>
        let y := (x.dropUntrusted frame).send (.substitute frame)
        ({ y with
          ump := { y.ump with substs := satInc y.ump.substs }
          umpx := { y.umpx with sub := .sent, subFrame := frame } } : Half).umpEvent 3)
  | .mirror =>
    if both then s.mod h (fun x => x.localReplay frame)
    else if (s.half h).frameMatched frame then s.mod h (fun x => { x with
      umpx := { x.umpx with untrusted := false }
      ump := { x.ump with
        trustedFrame := max x.ump.trustedFrame frame
        checkpoints := x.ump.checkpoints.map (fun (c : Checkpoint) => if c.frame = frame then { c with trusted := true } else c) } })
    else s.swapLead h
  | .solo => s.mod h (fun x => x.localReplay frame)

/-! ### The loss of a half (R454, spec/01_two_halves.md R31) -/

/-- A half takes the chain over (Table — Fault reaction, steps 6 to 8): event 4, event 14 while it was not ready, and the frame from
which a later disagreement reckons (R460). -/
def State.takeover (s : State) (h : HalfId) : State :=
  let s := s.mod h (fun x =>
    let ready := x.umpx.standbyReady
    let y := x.takeChain true
    let y : Half := { y with umpx := { y.umpx with
      sub := .none, takeoverFrame := some y.frame
      takeoverFrom := ((x.ump.checkpoints.head?).map (·.frame)).getD 0 } }
    let y := y.umpEvent 4
    if ready then y else y.umpEvent 14)
  (s.moveChain h).openChain h

/-- The device is in SOLO after a fault (R29): at once, on the half that survives. -/
def State.soloAfterFault (s : State) : State :=
  ({ s with dev := { s.dev with mode := .solo, soloFault := true, inMode := 0, midFrame := true } } : State).setRoles

/-- The surviving half learns that the other is lost (R441, R454 steps 6 to 10, R31): deadline-mode cause 2, dependent work
discarded, a requested change ended with ST_BUSY, and the chain on the survivor. A half held for update boots and restarts the
chain cold. -/
def State.lostPeer (s : State) (h : HalfId) : State :=
  let drains := s.dev.change.any (fun c => c.left = 0 && c.half = other h)
  let s := (s.peerGone (other h)).dropChange
  let x := s.half h
  if x.powx.held then
    let t := s.bootHalf h true true
    { t with dev := { t.dev with chain := h, mode := .solo, soloFault := true, inMode := 0, midFrame := true } }
  else
    let s := s.mod h (fun y =>
      ({ y with powx := { y.powx with draining := false }, umpx := { y.umpx with duplicating := false, fullFrame := false } } : Half).cause 2 true)
    if s.dev.evacuated then (s.moveChain h).soloAfterFault
    else match s.dev.mode with
    | .dual =>
      if s.dev.chain = h then
        let s := if x.umpx.sub = .sent then s.mod h (fun y => y.localReplay y.umpx.subFrame) else s
        if x.ump.gates = 0 then s.soloAfterFault.openChain h else s.soloAfterFault
      else ((s.takeover h).soloAfterFault)
    | .mirror =>
      let s := if s.dev.chain = h then s else (s.mod h (fun y => y.umpEvent 4)).moveChain h
      s.soloAfterFault.openChain h
    | .solo =>
      if s.dev.chain = h then s.setRoles
      else if drains then ((s.takeover h).soloAfterFault)
      else ((s.moveChain h).soloAfterFault).openChain h

/-- A half fault on a half (Table — Fault reaction, steps 1 to 4): gates closed, FAULT sent on both heartbeat paths, the safe state;
KILL when a switched domain does not fall below 0.2 V (`falls` false). A primary that faults during a substitution leaves the takeover to
start from the checkpoint before the untrusted frame (R460). The peer wake line of a half in HIBERNATE or OFF unless KILL
is asserted (spec/20_power_thermal_reset.md R498). -/
def State.halfFault (s : State) (h : HalfId) (falls : Bool) : State :=
  if !(s.half h).alive then s
  else
    let s := match (s.half h).umpx.sub with
      | .sent => s.mod (other h) (fun y => y.dropUntrusted (s.half h).umpx.subFrame)
      | _ => s
    let s := s.mod h (fun x => ({ x with umpx := { x.umpx with badFrame := some x.frame } } : Half).enterSafe true)
    let s := if falls then s else s.mod h (fun x => { x with ump := { x.ump with kill := true, killed := true } })
    let o := s.half (other h)
    let s := if falls && (o.pow.st = .hibernate || o.pow.st = .off) && !o.powx.inReset then
        s.mod (other h) (fun x => { x with powx := { x.powx with wakeLine := true } })
      else s
    (if o.alive then s else s.dropChange.soloAfterFault).setRoles

end Sys2Proof.Machine
end

