-- ==== Sys2Proof/Machine/Umpire.lean ====
section
/-! DEFINITION. The Umpire: verdicts on warm-ups, checkpoints, substitution messages, the comparison in MIRROR, monitors,
heartbeats, gate permits and the periodic self-test (spec/18_safety.md, spec/21_configuration_and_update.md R533 to R535). -/

namespace Sys2Proof.Machine

/-! ### Tolerance bands (spec/03_arithmetic_formats.md R88) -/

/-- The row of Table — Tolerance bands for an output format. -/
def tolRow (f : Nat) : Nat :=
  if f = 0x18 then 0 else if isMx f then 5 else if isIntFmt f then 1 else if f = 0x14 then 2 else if f = 0x10 || f = 0x11 then 3 else 4

/-- The number that an element of any format stands for; the scale byte counts only in an MX format (R88). -/
def warmNum (f c scale : Nat) : Num := if isMx f then decodeMx f c scale else decodeElem f c

/-- ulp(r): the unit in the last place of the format at the magnitude of r = ±m × 2^e; for an MX format 2^X times that of the element
format at |r| / 2^X, X the scale exponent of the reference block (R88). -/
def ulpOf (f rScale : Nat) (m : Nat) (e : Int) : Num :=
  let x : Int := if isMx f then (rScale : Int) - 127 else 0
  match fltOf f with
  | some k => .fin false 1 (x + (if m = 0 then k.emin else ulpExp m (e - x) k.p k.emin))
  | none => .fin false 1 (if f = 0x0E then x - 6 else 0)

/-- A result matches its reference: |y − r| ≤ N × ulp(r) + C × M, NaN matches only NaN, and an infinity only one of its sign (R88). N is
held in units of 2^-16 and C in units of 2^-32. -/
def bandMatch (tol : List (Nat × Nat)) (w : WarmElem) : Bool :=
  let (n, c) := tol[tolRow w.fmt]?.getD (0, 0)
  match warmNum w.fmt w.y w.yScale, warmNum w.fmt w.r w.rScale with
  | .nan, .nan => true
  | .inf a, .inf b => a = b
  | .fin a b e, .fin rn rm re =>
    let bound := (((Num.fin false n (-16)).mul (ulpOf w.fmt w.rScale rm re))).add ((Num.fin false c (-32)).mul (f32 w.mag))
    !(bound.lt ((Num.fin a b e).add (Num.fin (!rn) rm re)).abs)
  | _, _ => false

/-- A warm-up's output agrees with the known output: every element matches within the bands in use (R88, R443). -/
def Half.warmAgrees (x : Half) (out : List WarmElem) : Bool := out.all (bandMatch x.cfgb.tol)

/-! ### Verdicts (R443 to R447, R533) -/

/-- A checkpoint becomes trusted once every engine of its chain mask has passed the warm-up of the boundary after it (R447); the mask of
one that came from the other half names that half's engines. -/
def Half.trust (x : Half) : Half :=
  match x.ump.checkpoints.find? (fun c => c.frame = x.ump.prevFrame && !c.crossed) with
  | some c =>
    if c.mask.all (fun n => (x.engine n).passedFrame) then
      { x with ump := { x.ump with
          trustedFrame := max x.ump.trustedFrame c.frame
          checkpoints := x.ump.checkpoints.map (fun (k : Checkpoint) => if k.frame = c.frame then { k with trusted := true } else k) } }
    else x
  | none => x

/-- The copies that the other half holds of the checkpoints of half h are trusted with them (R447; log 95). -/
def State.trustCopies (s : State) (h : HalfId) : State :=
  let known := fun (c : Checkpoint) => c.crossed && (s.half h).ump.checkpoints.any (fun k => k.trusted && !k.crossed && k.frame = c.frame)
  s.mod (other h) (fun x => { x with ump := { x.ump with
    trustedFrame := (x.ump.checkpoints.filter known).foldl (fun a c => max a c.frame) x.ump.trustedFrame
    checkpoints := x.ump.checkpoints.map (fun (c : Checkpoint) => if known c then { c with trusted := true } else c) } })

/-- The engine has passed (R443): ENG_WARMUP 1, and it may take CHAIN work in this frame. -/
def Half.passEngine (x : Half) (n : Nat) : Half :=
  (x.modEngine n (fun e => { e with warmup := 1, passedFrame := true, rerunNext := false })).trust

/-- Records a disagreement's frame in the non-volatile store and in the engine's status window (R445). -/
def Half.recordDisagree (x : Half) (n k : Nat) (verdict : BitVec 2) : Half :=
  let y := x.modEngine n (fun e => { e with
    warmup := verdict, lastDisagree := BitVec.ofNat 32 k, disagreeValid := true, rerunNext := false, passedFrame := false })
  { y with ump := { y.ump with
      disagreeFrame := (n, k) :: y.ump.disagreeFrame.filter (fun p => p.1 ≠ n)
      rerun := y.ump.rerun.filter (fun r => r.1 ≠ n) } }

/-- Step 5 of Table — Warm-up disagreement: the engine takes no command and its retirement is recorded. -/
def Half.condemn (x : Half) (n k : Nat) : Half := (x.recordDisagree n k 3).nextRetire

/-- Step 4 or step 5, once all three reruns have passed: an earlier disagreement within the 1,000 frames before frame k condemns the
engine. -/
def Half.rerunsPassed (x : Half) (n k : Nat) : Half :=
  let prior := (x.engine n).disagreeValid &&
    x.ump.disagreeFrame.any (fun p => p.1 = n && p.2 < k && k ≤ p.2 + 1000)
  if prior then x.condemn n k
  else
    let y := x.recordDisagree n k 2
    ({ y with ump := { y.ump with transients := satInc y.ump.transients } } : Half).umpEvent 0

/-- The other slot of a kind becomes the active one, and its image the one in use (R530). -/
def Half.switchSlot (x : Half) (kind : Nat) : Half :=
  let flip := fun (l : List Nat) (b : Bool) => if b then kind :: l.filter (fun k => k ≠ kind) else l.filter (fun k => k ≠ kind)
  let b := !decide (kind ∈ x.svc.selB)
  let img := (x.flashSlot kind b).getD []
  { x with svc := { x.svc with
      selB := flip x.svc.selB b, ranB := flip x.svc.ranB b
      running := (kind, img) :: x.svc.running.filter (fun p => p.1 ≠ kind) } }

/-- The engine whose microcode is being swapped has passed: it is ACTIVE again on the new slot (R532 step 4). -/
def Half.swapPassed (x : Half) (n : Nat) : Half :=
  let b := decide (0x05 ∈ x.svc.ranB)
  let y := x.modEngine n (fun e => { e with
    st := .active, slotB := b
    microcode := BitVec.ofNat 32 (((x.flashSlot 0x05 b).map imgVersion).getD 0) })
  let y : Half := { y with svc := { y.svc with upd := y.svc.upd.map (fun (u : Upd) => { u with
    cur := none, done := if u.revert then u.done.filter (fun k => k ≠ n) else n :: u.done }) } }
  (y.updWaits true).passEngine n

/-- The warm-up of a new microcode disagrees: the rollout stops, the active slot and the engines already swapped revert, and the
engine reruns its warm-up on the earlier microcode (R533). -/
def Half.swapFailed (x : Half) (n : Nat) : Half :=
  let y := x.modEngine n (fun e => { e with st := .active, rerunNext := true })
  let y := (y.switchSlot 0x05).updWaits true
  { y with
    svc := { y.svc with upd := y.svc.upd.map (fun (u : Upd) => { u with cur := none, revert := true }) }
    umpx := { y.umpx with retrial := n :: y.umpx.retrial } }

/-- The first disagreement of an engine (R445 steps 1 to 3): it is recorded and the engine reruns its warm-up three times. -/
def Half.beginRerun (x : Half) (n : Nat) : Half :=
  let y := x.modEngine n (fun e => { e with passedFrame := false, rerunNext := false })
  { y with ump := { y.ump with rerun := (n, 0, y.frame) :: y.ump.rerun }, umpx := { y.umpx with badFrame := some y.frame } }

/-- What a verdict means to the half alone; a SPARE that fails is retired at the next boundary (spec/04_tensor_engines.md R116). -/
def Half.verdict (x : Half) (n : Nat) (agrees : Bool) : Half :=
  let e := x.engine n
  let x := x.modEngine n (fun e => { e with warmDone := false })
  if e.st = .spare then
    let y := x.modEngine n (fun e => { e with warmup := if agrees then 1 else 3 })
    { y with sched := { y.sched with retireReady := y.sched.retireReady || (agrees && y.sched.retireSpare = some n) } }
  else if x.svc.upd.any (fun u => u.cur = some n) then
    if agrees then x.swapPassed n
    else if x.svc.upd.any (fun u => u.revert) then (x.modEngine n (fun e => { e with st := .active })).condemn n x.frame
    else x.swapFailed n
  else if n ∈ x.umpx.retrial then
    let y : Half := { x with umpx := { x.umpx with retrial := x.umpx.retrial.filter (fun k => k ≠ n) } }
    if agrees then y.passEngine n else y.condemn n y.frame
  else match x.ump.rerun.find? (fun r => r.1 = n) with
    | some (_, p, k) =>
      if !agrees then x.condemn n k
      else if p + 1 < 3 then
        { x with ump := { x.ump with rerun := x.ump.rerun.map (fun r => if r.1 = n then (n, p + 1, k) else r) } }
      else x.rerunsPassed n k
    | none => if agrees then x.passEngine n else x.beginRerun n

/-- The verdict is the first disagreement of the frame's warm-up, as R445 step 2 asks; that of a spare, of a microcode swap or of a
rerun makes no frame untrusted. -/
def Half.firstDisagree (x : Half) (n : Nat) : Bool :=
  let e := x.engine n
  e.st ≠ .spare && !(x.svc.upd.any (fun u => u.cur = some n)) && !(x.umpx.retrial.contains n) && !(x.ump.rerun.any (fun r => r.1 = n))

/-- UMPIRE_VERDICT: the Umpire judges the warm-up that an engine has run, element by element against the known output (R443 to
R446, spec/03_arithmetic_formats.md R88). The command carries what the engine wrote and the known output, which the spec does not list
(log 88). -/
def execUmpireVerdict (h : HalfId) (n : Nat) (out : List WarmElem) (s : State) : Host.Outcome State Fault Refusal :=
  let x := s.half h
  let agrees := x.warmAgrees out
  if !(x.alive && x.umpireRuns && (x.engine n).warmDone) then .next s
  else
    let chain := n ∈ x.ump.prevMask || (x.engine n).st = .quick
    let t := (s.mod h (fun x => x.verdict n agrees)).trustCopies h
    if !agrees && x.firstDisagree n && chain && s.dev.chain = h && !s.dev.evacuated && x.powx.ready then
      .next (t.untrustedFrame h x.ump.prevFrame).setRoles
    else .next t

/-! ### Checkpoints and substitution (R25, R442, R447, R450) -/

/-- Removes the first message that a test picks from the other half's queue for the Handoff link. -/
def State.takeMsg {α : Type} (s : State) (h : HalfId) (f : LinkMsg → Option α) : Option (α × State) :=
  let o := s.half (other h)
  if !o.handoffUp then none
  else (o.takeOut f).map (fun p => (p.1, s.mod (other h) (fun y => { y with links := { y.links with outbox := p.2 } })))

/-- The checkpoint that a message carries. -/
def LinkMsg.asCheckpoint : LinkMsg → Option Checkpoint
  | .checkpoint fr fu pl mask marks lp grid =>
    some { frame := fr, fusion := fu, plan := pl, mask := mask, marks := marks, loop := lp, grid := grid, crossed := true }
  | _ => none

/-- CHECKPOINT_RECEIVE: a checkpoint whose closing record arrives intact becomes the last committed one (R25, R447); where the receiver
gave the chain up, the replay of the untrusted frame has committed with it (R450 step 5, R462). -/
def execCheckpointReceive (h : HalfId) (s : State) : Host.Outcome State Fault Refusal :=
  if !(s.half h).alive then .next s
  else match s.takeMsg h LinkMsg.asCheckpoint with
    | some (c, t) => .next (t.mod h (fun x => { x with
        ump := { x.ump with checkpoints := (c :: x.ump.checkpoints.filter (fun k => k.frame ≠ c.frame)).take 2 }
        umpx := { x.umpx with gotCheck := true, untrusted := false } }))
    | none => .next s

/-- SUBSTITUTE_RECEIVE: the standby takes the chain from checkpoint k−2, and the primary closes its gates and says so (Table —
Substitution in DUAL, steps 2 and 3). -/
def execSubstituteReceive (h : HalfId) (s : State) : Host.Outcome State Fault Refusal :=
  if !((s.half h).alive && (s.half h).umpireRuns) then .next s
  else match s.takeMsg h (fun m => match m with | .substitute f => some f | _ => none) with
    | some (f, t) =>
      let t := t.mod h (fun x =>
        let y := (x.dropUntrusted f).takeChain true
        ({ y with umpx := { y.umpx with sub := .restored, untrusted := true } } : Half).umpEvent 3)
      .next (t.mod (other h) Half.giveGates).setRoles
    | none => .next s

/-- GATE_CLOSED_RECEIVE: the half that is to carry the chain opens its chain gates (R442); a substitution is then complete on this
half, and the former primary empties its sessions and becomes standby (Table — Substitution in DUAL, steps 4 and 6). -/
def execGateClosedReceive (h : HalfId) (s : State) : Host.Outcome State Fault Refusal :=
  if !((s.half h).alive && (s.half h).umpireRuns) then .next s
  else match s.takeMsg h (fun m => match m with | .gateClosed => some () | _ => none) with
    | some (_, t) =>
      if (t.half h).umpx.sub = .restored then
        let t := t.mod h (fun x => { x with umpx := { x.umpx with sub := .none } })
        .next (((t.mod (other h) Half.becomeStandby).moveChain h).openChain h)
      else if t.dev.chain = h then .next (t.openChain h)
      else .next t
    | none => .next s

/-! ### Comparison in MIRROR (R451, R452) -/

/-- |a − b| is at most k / 1,000; NaN is never within a band. -/
def within (a b : Num) (k : Nat) : Bool :=
  match a.add b.neg with
  | .fin _ m e => if 0 ≤ e then decide (1000 * m * 2 ^ e.toNat ≤ k) else decide (1000 * m ≤ k * 2 ^ (-e).toNat)
  | _ => false

/-- The FP32 number at an offset of a record. -/
def recFp (l : List Byte) (off : Nat) : Num := f32 (bytesAt l off 4)

/-- One state block matches another (position, extent, velocity, heading). -/
def Half.blockMatches (x : Half) (a b : List Byte) (off : Nat) : Bool :=
  let near := fun (i : Nat) (k : Nat) => within (recFp a (off + k)) (recFp b (off + k)) (x.band i)
  [0x00, 0x04, 0x1C, 0x20, 0x24].all (near 0) && [0x0C, 0x10].all (near 1) && near 2 0x14

/-- The records of the CONFIRMED objects of a fused output. -/
def confirmed (l : List Byte) : List (List Byte) :=
  ((List.range (bytesAt l 0x14 2)).map (fun i => (l.drop (128 + 192 * i)).take 192)).filter (fun r => bytesAt r 0x06 1 % 4 = 1)

/-- One CONFIRMED object matches another of the same TRACK_ID. -/
def Half.objectMatches (x : Half) (a b : List Byte) : Bool :=
  bytesAt a 0x04 2 = bytesAt b 0x04 2 && within (recFp a 0x14) (recFp b 0x14) (x.band 3) && x.blockMatches a b 0x18 &&
    (bytesAt a 0x04 2 ≠ stConflict || x.blockMatches a b 0x60)

/-- Two fused outputs match (Table — Comparison bands). -/
def Half.fusedMatches (x : Half) (a b : List Byte) : Bool :=
  let ca := confirmed a
  let cb := confirmed b
  ca.length = cb.length && ca.all (fun r => cb.any (fun q => bytesAt r 0 4 = bytesAt q 0 4 && x.objectMatches r q)) &&
    [0x48, 0x4C].all (fun k => within (recFp a k) (recFp b k) (x.band 4)) && within (recFp a 0x50) (recFp b 0x50) (x.band 5)

/-- The distance between two points is at most k / 1,000. -/
def nearPoint (a b : List Byte) (k : Nat) : Bool :=
  let dx := (recFp a 4).add (recFp b 4).neg
  let dy := (recFp a 8).add (recFp b 8).neg
  match (dx.mul dx).add (dy.mul dy) with
  | .fin _ m e => if 0 ≤ e then decide (1000000 * m * 2 ^ e.toNat ≤ k * k) else decide (1000000 * m ≤ k * k * 2 ^ (-e).toNat)
  | _ => false

/-- The points of a plan with T_US at most 3,000,000. -/
def earlyPoints (l : List Byte) : List (List Byte) :=
  ((List.range (bytesAt l 0x20 2)).map (fun i => (l.drop (128 + 32 * i)).take 32)).filter (fun p => bytesAt p 0 4 ≤ 3000000)

/-- Two plan records match (Table — Comparison bands). -/
def Half.planMatches (x : Half) (a b : List Byte) : Bool :=
  let pa := earlyPoints a
  let pb := earlyPoints b
  bytesAt a 0x04 2 = bytesAt b 0x04 2 && bytesAt a 0x06 1 % 2 = bytesAt b 0x06 1 % 2 && pa.length = pb.length &&
    (pa.zip pb).all (fun p => nearPoint p.1 p.2 (x.band 6) && within (recFp p.1 0x10) (recFp p.2 0x10) (x.band 7))

/-- A mismatch (R452): event 5, MISMATCHES, and COMPARE_FAIL with event 6 at the third within 100 frames. -/
def Half.mismatch (x : Half) (frame : Nat) : Half :=
  let ms := frame :: x.umpx.misFrames.filter (fun k => frame < k + 100)
  let y : Half := { x with
    umpx := { x.umpx with misFrames := ms.take 3 }
    ump := { x.ump with mismatches := satInc x.ump.mismatches } }
  let y := y.umpEvent 5
  if 3 ≤ ms.length then ({ y with umpx := { y.umpx with compareFail := true } } : Half).umpEvent 6 else y

/-- The half's own record is done with. -/
def Half.dropOwn (x : Half) (plan : Bool) (frame : Nat) : Half :=
  { x with umpx := { x.umpx with ownRec := x.umpx.ownRec.filter (fun r => !(r.1 = plan && r.2.1 = frame)) } }

/-- COMPARE_FAIL is a mode change in progress until DUAL is entered at the next boundary (R452); a requested one ends with ST_BUSY
(spec/01_two_halves.md R31). -/
def State.noteCompare (s : State) : State :=
  if s.dev.mode = .mirror && (s.a.umpx.compareFail || s.b.umpx.compareFail) && !(s.dev.change.any (fun c => c.kind ≠ .request)) then
    let t := s.dropChange
    { t with dev := { t.dev with change := some { kind := .compare, target := .dual, half := s.dev.chain, left := 1 } } }
  else s

/-- COMPARE_RECORD_RECEIVE: a half judges the other half's record of a frame against its own (R451). -/
def execCompareRecordReceive (h : HalfId) (s : State) : Host.Outcome State Fault Refusal :=
  let x := s.half h
  let own := fun (plan : Bool) (frame : Nat) => x.umpx.ownRec.find? (fun r => r.1 = plan && r.2.1 = frame)
  if !(x.alive && x.umpireRuns) then .next s
  else match s.takeMsg h (fun m => match m with
      | .compare plan frame data => (own plan frame).map (fun r => (plan, frame, data, r.2.2.2))
      | _ => none) with
    | some ((plan, frame, theirs, ours), t) => .next (t.mod h (fun y =>
        let y := y.dropOwn plan frame
        if (if plan then y.planMatches ours theirs else y.fusedMatches ours theirs) then
          { y with umpx := { y.umpx with matched := ((plan, frame) :: y.umpx.matched).take 8 } }
        else y.mismatch frame)).noteCompare
    | none => .next s

/-- COMPARE_RECORD_TIMEOUT: the other half's record has not arrived 2 ms after the later of the two commits, which counts as a
mismatch (R451); it is not judged later. -/
def execCompareRecordTimeout (h : HalfId) (s : State) : Host.Outcome State Fault Refusal :=
  let x := s.half h
  let o := s.half (other h)
  let late := fun (r : Bool × Nat × Nat × List Byte) => x.since r.2.2.1 2000000 &&
    o.umpx.ownRec.all (fun q => !(q.1 = r.1 && q.2.1 = r.2.1) || o.since q.2.2.1 2000000)
  if !(x.alive && x.umpireRuns) then .next s
  else match x.umpx.ownRec.find? late with
    | some (plan, frame, _, _) =>
      let t := s.mod h (fun y => (y.dropOwn plan frame).mismatch frame)
      .next (t.mod (other h) (fun y => { y with links := { y.links with outbox := y.links.outbox.filter (fun m => match m with
        | .compare p f _ => !(p = plan && f = frame)
        | _ => true) } })).noteCompare
    | none => .next s

/-! ### Heartbeats and the loss of the peer (R441, R454) -/

/-- UMPIRE_HEARTBEAT_SEND: a heartbeat on both paths (R441). -/
def execUmpireHeartbeatSend (h : HalfId) (s : State) : Host.Outcome State Fault Refusal :=
  .next (s.mod h (fun x =>
    if !x.umpireRuns then x
    else
      let y := if x.handoffStands then x.send .heartbeat else x
      { y with links := { y.links with busOut := y.links.busOut ++ [.heartbeat] } }))

/-- A heartbeat. -/
def LinkMsg.isBeat : LinkMsg → Option Unit
  | .heartbeat => some ()
  | _ => none

/-- Removes the first message that a test picks from the other half's queue for the management bus. -/
def State.takeBus {α : Type} (s : State) (h : HalfId) (f : LinkMsg → Option α) : Option (α × State) :=
  (takeFirst f (s.half (other h)).links.busOut).map (fun p =>
    (p.1, s.mod (other h) (fun y => { y with links := { y.links with busOut := p.2 } })))

/-- UMPIRE_HEARTBEAT_RECEIVE on the Handoff SAFETY channel or on the management bus (R441). -/
def execUmpireHeartbeatReceive (h : HalfId) (bus : Bool) (s : State) : Host.Outcome State Fault Refusal :=
  if !(s.half h).umpireRuns then .next s
  else match if bus then s.takeBus h LinkMsg.isBeat else s.takeMsg h LinkMsg.isBeat with
    | some (_, t) => .next (t.mod h (fun x => { x with ump :=
        if bus then { x.ump with lastBus := x.ump.clock, peerBus := true }
        else { x.ump with lastHandoff := x.ump.clock, peerHandoff := true } }))
    | none => .next s

/-- PEER_LOSS: a path without a heartbeat for 3 ms shows so; when neither path has had one, and the other half was to run, the other
half is treated as faulted (R441). -/
def execPeerLoss (h : HalfId) (s : State) : Host.Outcome State Fault Refusal :=
  let x := s.half h
  let lateH := x.ump.lastHandoff + 3000000 ≤ x.ump.clock
  let lateB := x.ump.lastBus + 3000000 ≤ x.ump.clock
  if !x.umpireRuns then .next s
  else
    let t := s.mod h (fun y => { y with ump := { y.ump with
      peerHandoff := y.ump.peerHandoff && !lateH, peerBus := y.ump.peerBus && !lateB } })
    if lateH && lateB && x.alive && (x.ump.peerHandoff || x.ump.peerBus || s.dev.mode ≠ .solo) then .next (t.lostPeer h)
    else .next t

/-- FAULT_RECEIVE: FAULT, which came on both paths, starts the takeover (R454 step 6). -/
def execFaultReceive (h : HalfId) (s : State) : Host.Outcome State Fault Refusal :=
  let o := s.half (other h)
  let there := fun (l : List LinkMsg) => l.any (fun m => match m with | .fault => true | _ => false)
  let rest := fun (l : List LinkMsg) => l.filter (fun m => match m with | .fault => false | _ => true)
  if (s.half h).alive && (s.half h).umpireRuns && (there o.links.outbox || there o.links.busOut) then
    let t := s.mod (other h) (fun y => { y with links := { y.links with outbox := rest y.links.outbox, busOut := rest y.links.busOut } })
    .next ((t.mod h (fun x => { x with ump := { x.ump with peerHandoff := false, peerBus := false } })).lostPeer h)
  else .next s

/-! ### Gate permits (R442) -/

/-- GATE_PERMIT_REFRESH: the Umpire refreshes the permit of each open gate, where the lifecycle state lets it
(spec/19_security_debug_power.md R473). -/
def execGatePermitRefresh (h : HalfId) (s : State) : Host.Outcome State Fault Refusal :=
  .next (s.mod h (fun x =>
    if x.umpireRuns && x.permits then
      { x with ump := { x.ump with permit := x.ump.permit.zipIdx.map (fun p => if x.ump.gates.getLsbD p.2 then x.ump.clock else p.1) } }
    else x))

/-- GATE_PERMIT_EXPIRY: a gate whose permit is 2 ms old closes in hardware (R442). -/
def execGatePermitExpiry (h : HalfId) (s : State) : Host.Outcome State Fault Refusal :=
  .next (s.mod h (fun x =>
    let late := fun (j : Nat) => x.ump.gates.getLsbD j && decide (x.ump.permit[j]?.getD 0 + 2000000 ≤ x.ump.clock)
    let g : BitVec 2 := (List.range 2).foldl (fun (g : BitVec 2) j => if late j then g &&& ~~~(1#2 <<< j) else g) x.ump.gates
    if g = x.ump.gates then x
    else
      let y : Half := { x with ump := { x.ump with gates := g } }
      (List.range 2).foldl (fun (z : Half) j => if late j then z.pairLine j else z) y))

/-! ### Monitors (Table — Umpire monitors) -/

/-- INVASIVE is open on a half that can carry the chain: the Captain and pair monitors are only logged (R487). -/
def Half.onlyLogs (x : Half) : Bool := x.sec.debug = 2 && x.permits

/-- A monitor of the Umpire finds a half fault. -/
def State.monitor (s : State) (h : HalfId) (seen falls : Bool) : Host.Outcome State Fault Refusal :=
  let x := s.half h
  if x.alive && x.umpireRuns && seen then .next (s.halfFault h falls) else .next s

/-- CAPTAIN_HEARTBEAT_LOSS: MBX_HEARTBEAT has not incremented for 3 ms; `falls` says whether every switched domain falls below
0.2 V within its bound (R440, R454). -/
def execCaptainHeartbeatLoss (h : HalfId) (falls : Bool) (s : State) : Host.Outcome State Fault Refusal :=
  let x := s.half h
  s.monitor h (decide (x.ump.captainBeat + 3000000 ≤ x.ump.clock) && !x.onlyLogs) falls

/-- REFCLK_FAILURE (R440, spec/01_two_halves.md R21). -/
def execRefclkFailure (h : HalfId) (falls : Bool) (s : State) : Host.Outcome State Fault Refusal := s.monitor h true falls

/-- SUPPLY_OUT_OF_WINDOW (R440). -/
def execSupplyOutOfWindow (h : HalfId) (falls : Bool) (s : State) : Host.Outcome State Fault Refusal := s.monitor h true falls

/-- JUNCTION_OVERTEMP: both sensors of a pair above 118 °C for 10 ms (R440). -/
def execJunctionOvertemp (h : HalfId) (falls : Bool) (s : State) : Host.Outcome State Fault Refusal :=
  let x := s.half h
  s.monitor h (x.powx.pairs.any (fun p => p.over118.any (fun t => x.since t 10000000))) falls

/-- HBM_OVERTEMP: a stack above 100 °C for 10 ms (R440). -/
def execHbmOvertemp (h : HalfId) (falls : Bool) (s : State) : Host.Outcome State Fault Refusal :=
  let x := s.half h
  s.monitor h (x.powx.stks.any (fun k => k.over100.any (fun t => x.since t 10000000))) falls

/-- CAPTAIN_MEMORY_UE (R440). -/
def execCaptainMemoryUe (h : HalfId) (falls : Bool) (s : State) : Host.Outcome State Fault Refusal := s.monitor h true falls

/-- UMPIRE_SELF_FAILURE: KILL in hardware (R455). -/
def execUmpireSelfFailure (h : HalfId) (s : State) : Host.Outcome State Fault Refusal :=
  .next (s.mod h (fun x => if x.umpireRuns then { x with ump := { x.ump with kill := true, killed := true } } else x))

/-- Closes the gate of one pair (spec/14_cores.md R373). -/
def Half.closeGate (x : Half) (j : Nat) : Half := x.setGates (x.ump.gates &&& ~~~(1#2 <<< j))

/-- A pair switch (R442): the backup pair's loop is the loop, and its gate opens where the loop pair's was open. -/
def Half.pairSwitch (x : Half) (opened : Bool) : Half :=
  let y : Half := { x with cores := { x.cores with loopPair := 1 - x.cores.loopPair } }
  let y := y.umpEvent 8
  if opened then y.openGates else y

/-- The pair leaves service and waits for a reset of its subsystem (R373, R442). -/
def Half.stopPair (x : Half) (p : Nat) : Half :=
  let y := x.modPair p (fun r => { r with running := false })
  { y with powx := { y.powx with subReset := if y.powx.subReset.contains (4 + p) then y.powx.subReset else y.powx.subReset ++ [4 + p] } }

/-- The new firmware of the backup pair fails before the switch: the pair reverts and the message ends (R534). -/
def Half.revertPair (x : Half) (p : Nat) : Half :=
  match x.svc.updPair with
  | some u =>
    if u.next = 1 && p ≠ x.cores.loopPair then
      let y := x.modPair p (fun r => { r with fw := 1 - r.fw })
      let y := y.switchSlot 0x04
      let y : Half := { y with svc := { y.svc with updPair := none } }
      match u.slot with
      | some k => y.failWaiting k { bad := true, st := stMalformed, off := 0x10 }
      | none => y
    else x
  | none => x

/-- A real-time pair fails (R373, R440): it stops and its gate closes; the loop pair's failure is a pair switch, and the failure of
both a half fault. -/
def State.pairFails (s : State) (h : HalfId) (p : Nat) (falls : Bool) : State :=
  let x := s.half h
  let opened := x.ump.gates.getLsbD p
  let s := s.mod h (fun y => ((y.closeGate p).stopPair p).revertPair p)
  if x.onlyLogs then s
  else if !(x.pair (1 - p)).running then s.halfFault h falls
  else if p = x.cores.loopPair then s.mod h (fun y => y.pairSwitch opened)
  else s

/-- PAIR_LOCKSTEP_DISAGREE: a lockstep disagreement or an uncorrectable TCM error of a pair (R373, R440). -/
def execPairLockstepDisagree (h : HalfId) (pair : Nat) (falls : Bool) (s : State) : Host.Outcome State Fault Refusal :=
  let x := s.half h
  if x.alive && pair < 2 && (x.pair pair).running then .next (s.pairFails h pair falls) else .next s

/-- MBX_HEARTBEAT_TICK: the Captain's firmware increments MBX_HEARTBEAT every 1 ms (spec/02_captain_and_mailboxes.md R34), and the
Umpire sees it. -/
def execMbxHeartbeatTick (h : HalfId) (s : State) : Host.Outcome State Fault Refusal :=
  .next (s.mod h (fun x =>
    if x.captainRuns then { x with mbx := { x.mbx with heartbeat := x.mbx.heartbeat + 1 }, ump := { x.ump with captainBeat := x.ump.clock } }
    else x))

/-! ### Periodic self-test (R457, R458) -/

/-- Slices of a pass and their length in ns (Table — Self-test elements). -/
def testSlices : List (Nat × Nat) :=
  [(4, 20000), (40, 50000), (40, 50000), (16, 50000), (4, 50000), (2, 50000), (8, 50000), (12, 30000), (1, 40000), (2, 50000)]

/-- Default intervals in ms (Table — Self-test elements). -/
def testDefaults : List Nat := [100, 1000, 1000, 1000, 100, 100, 100, 100, 1000, 100]

/-- The interval of an element in ns. -/
def Half.testInterval (x : Half) (e : Nat) : Nat :=
  (((x.cfgb.intervals.find? (fun p => p.1 = e)).map (·.2)).getD (testDefaults[e]?.getD 1000)) * 1000000

/-- The self-test state of an element. -/
def Half.test (x : Half) (e : Nat) : SelfTest := x.tests[e]?.getD {}

/-- Changes the self-test state of an element. -/
def Half.modTest (x : Half) (e : Nat) (f : SelfTest → SelfTest) : Half := { x with tests := x.tests.modify e f }

/-- A slice that starts now ends before the element's next safety-task release: a control tick of the real-time pairs, the frame
boundary, or a release of the configuration's table (R457). -/
def Half.sliceFits (x : Half) (e len : Nat) : Bool :=
  let t := x.st
  let from0 := t - x.boundaryNs x.frame
  (e ≠ 0 || t % 125000 + len ≤ 125000) && t + len ≤ x.boundaryNs (x.frame + 1) &&
    x.cfgb.releases.all (fun r => r.1 ≠ e || !(from0 < r.2 * 1000 && r.2 * 1000 < from0 + len))

/-- The unit of an element: fusion 6, planning 7, gather 4, copy 8; 0 for an element no command names. -/
def testUnit (e : Nat) : Nat := ([0, 6, 7, 4, 8][e]?).getD 0

/-- No command of tier CHAIN or REALTIME runs on the element (R458). -/
def Half.testIdle (x : Half) (e : Nat) : Bool :=
  testUnit e = 0 || !(x.sched.cmds.any (fun c => dUnit c.desc = testUnit e && c.st ≠ .waiting && c.tier ≤ 1))

/-- A slice of an element may start (R457, R458): none falls within a fault reaction or a substitution, and a forced one takes an
idle window. -/
def Half.sliceStarts (x : Half) (e : Nat) : Bool :=
  let len := ((testSlices[e]?).map (·.2)).getD 0
  x.alive && e < 10 && x.umpx.sub = .none && x.sliceFits e len && (!(x.test e).forced || x.testIdle e)

/-- SELFTEST_SLICE: a slice of element e runs; the last of a pass completes it; a failure is a half fault, or for real-time pair
`pair` a pair switch (R440, R457, R458). -/
def execSelftestSlice (h : HalfId) (e : Nat) (ok : Bool) (pair : Nat) (falls : Bool) (s : State) : Host.Outcome State Fault Refusal :=
  let x := s.half h
  let n := ((testSlices[e]?).map (·.1)).getD 1
  if !x.sliceStarts e then .next s
  else if ok then
    .next (s.mod h (fun x => x.modTest e (fun t =>
      if t.slices + 1 < n then { t with slices := t.slices + 1 }
      else { t with slices := 0, passed := true, forced := false, missed := 0, passTime := some x.now, passSt := x.st })))
  else
    let t := s.mod h (fun x => x.modTest e (fun t => { t with slices := 0, passed := false }))
    if e = 0 && pair < 2 && (x.pair pair).running then .next (t.pairFails h pair falls) else .next (t.halfFault h falls)

/-- SELFTEST_INTERVAL_MISSED: an interval has ended without a complete pass of the element; the tenth in a row sets event 7 and
forces the next pass (R458). -/
def execSelftestIntervalMissed (h : HalfId) (e : Nat) (s : State) : Host.Outcome State Fault Refusal :=
  .next (s.mod h (fun x =>
    let len := x.testInterval e
    let t := x.test e
    if !(x.alive && e < 10) || len = 0 || x.now < len then x
    else
      let win := x.now / len - 1
      if t.missWin = some win || t.passTime.any (fun p => win * len ≤ p) then x
      else
        let y := x.modTest e (fun t => { t with missed := satInc t.missed, missWin := some win, slices := 0 })
        if 10 ≤ (y.test e).missed.toNat then
          let z := y.modTest e (fun t => { t with forced := true })
          if (y.test e).missed = 10 then z.umpEvent 7 else z
        else y))

/-- CALIBRATION_SLICE: a run of live calibration ends with its result in the non-volatile store (R535): item 0 engine clock trim, 1
cluster clock trim, 2 thermal sensor offset in 1/16 °C, which changes by at most 1 °C, 3 pseudo-channel training, 4 compute-die module,
one at a time. An engine reruns its warm-up before it takes work again, and a module is retrained with reason 5. -/
def execCalibrationSlice (h : HalfId) (item target : Nat) (result : BitVec 64) (s : State) : Host.Outcome State Fault Refusal :=
  let x := s.half h
  let bound := ([18, 4, 32, 64, 16][item]?).getD 0
  let busy := (item = 0 && ((x.engine target).st ≠ .active || x.running target || x.sched.engines.any (fun e => e.st = .draining))) ||
    (item = 4 && (List.range 16).any (fun k => (x.link k).st = .retraining))
  let old := (((x.svc.trims.zip x.svc.trimData).find? (fun p => p.1 = (item, target))).map (·.2)).getD 0
  let result : BitVec 64 := if item = 2 then BitVec.ofInt 64 (max (old.toInt - 16) (min (old.toInt + 16) result.toInt)) else result
  if !x.alive || x.umpx.sub ≠ .none || bound ≤ target || busy || (item = 4 && !(x.link target).works) then .next s
  else
    let t := s.mod h (fun x =>
      let keep := (x.svc.trims.zip x.svc.trimData).filter (fun p => p.1 ≠ (item, target))
      { x with svc := { x.svc with trims := keep.map (·.1) ++ [(item, target)], trimData := keep.map (·.2) ++ [result] } })
    if item = 0 then .next (t.mod h (fun x => x.modEngine target (fun e => { e with rerunNext := true })))
    else if item = 4 then .next (t.retrain h target 5)
    else .next t

end Sys2Proof.Machine
end

