-- ==== Sys2Proof/Machine/Modes.lean ====
section
/-! DEFINITION. Device modes: the mode request, what a half shows of its safety state, diagnostics, readiness after a boot and the
return from SOLO (spec/01_two_halves.md R24 to R31, spec/18_safety.md R459 to R463, spec/16_time_and_ethernet.md R414). -/

namespace Sys2Proof.Machine

/-! ### Return from SOLO, step 1 (R30, R483, R526, R531) -/

/-- VERSION major of the image of a kind that a half runs. -/
def Half.major (x : Half) (kind : Nat) : Nat := imgVersion (x.runningImage kind) / 2 ^ 24

/-- The majors of kinds 0x01, 0x02 and 0x10 differ by at most one between the halves (R531). -/
def majorsFit (x o : Half) : Bool :=
  [0x01, 0x02, 0x10].all (fun k => x.major k ≤ o.major k + 1 && o.major k ≤ x.major k + 1)

/-- The overlay's base range includes the base image that the half runs (R517, R521). -/
def Half.baseFits (x : Half) (img : List Byte) : Bool :=
  let p := imgPayload img
  let v := imgVersion (x.runningImage 0x10)
  bytesAt p 0x08 4 ≤ v && v ≤ bytesAt p 0x0C 4

/-- The overlays of a half that are active. -/
def Half.activeOverlays (x : Half) : List Ovl := activeOvls (x.runningImage 0x10) x.svc.overlays

/-- The returning half passes step 1: the running half's lifecycle state, majors that fit, and every active overlay verified and within
its base range (R483, R526, R531). -/
def Half.joins (x run : Half) (serial : BitVec 64) : Bool :=
  x.sec.life = run.sec.life && majorsFit x run &&
    run.activeOverlays.all (fun o => x.imageOk serial 0x11 o.image && x.baseFits o.image)

/-- A frame number moved by a change of the numbering. -/
def moveFrame (d : Int) (f : Nat) : Nat := ((f : Int) + d).toNat

/-- The frame numbers that a half counts with, moved so that the frames before and after a change of the numbering are consecutive
(spec/21_configuration_and_update.md R525). -/
def Half.shiftFrames (x : Half) (d : Int) : Half :=
  let f := moveFrame d
  { x with
    frame := f x.frame
    ump := { x.ump with
      prevFrame := f x.ump.prevFrame, trustedFrame := f x.ump.trustedFrame
      checkpoints := x.ump.checkpoints.map (fun (c : Checkpoint) => { c with frame := f c.frame })
      disagreeFrame := x.ump.disagreeFrame.map (fun p => (p.1, f p.2))
      rerun := x.ump.rerun.map (fun r => (r.1, r.2.1, f r.2.2)) }
    umpx := { x.umpx with
      misFrames := x.umpx.misFrames.map f, badFrame := x.umpx.badFrame.map f, subFrame := f x.umpx.subFrame
      ownRec := x.umpx.ownRec.map (fun r => (r.1, f r.2.1, r.2.2))
      matched := x.umpx.matched.map (fun m => (m.1, f m.2))
      takeoverFrame := x.umpx.takeoverFrame.map f, takeoverFrom := f x.umpx.takeoverFrom } }

/-- The returning half takes the running half's overlays (R526); where they change the frame rate, its frame number is that of the new
numbering (R32). -/
def Half.takeOverlays (x run : Half) : Half :=
  let y : Half := { x with svc := { x.svc with overlays := run.svc.overlays } }
  let y := y.takeCfg (composeCfg (y.runningImage 0x10) y.svc.overlays)
  if y.cfg.frameRate = x.cfg.frameRate then y else y.shiftFrames ((y.frameNow : Int) - y.frame)

/-- Step 1 of the return from SOLO on the returning half. -/
def State.rejoinStep1 (s : State) (r : Rejoin) : State :=
  let run := s.half (other r.half)
  let x := s.half r.half
  if run.alive && x.handoffUp && x.joins run s.dev.serial then
    let t := s.mod r.half (fun y => y.takeOverlays run)
    { t with dev := { t.dev with rejoin := some { r with step := 2 } } }
  else s.rejoinFails

/-! ### SAF_MODE_REQUEST (R461, R29, R31) -/

/-- A takeover, a substitution or a local replay is in progress on either half. -/
def State.chainMoving (s : State) : Bool :=
  s.a.umpx.sub ≠ .none || s.b.umpx.sub ≠ .none || (s.half s.dev.chain).umpx.untrusted

/-- A substitution or a takeover is in progress. -/
def State.substituting (s : State) : Bool := s.a.umpx.sub ≠ .none || s.b.umpx.sub ≠ .none

/-- The half stands by: held for update, kept running beside the running half, or in its safe state. -/
def State.startRejoin (s : State) (r : Rejoin) : State :=
  let h := r.half
  let x := s.half h
  let s : State := { s with dev := { s.dev with rejoin := some { r with begun := (s.half (other h)).now } } }
  let s := s.mod h (fun y => y.cause 3 true)
  if r.kept then s.rejoinStep1 r
  else if (x.pow.st = .hibernate || x.pow.st = .off) && !x.umpx.safe then
    s.mod h (fun y => { y with powx := { y.powx with wakeLine := true } })
  else s.rebootHalf h

/-- A half that can neither be woken nor booted: its Umpire holds KILL, or it is held in reset. -/
def Half.unreachable (x : Half) : Bool := x.ump.killed || x.powx.inReset

/-- SAF_MODE_REQUEST (R461, Table — Mode changes). A mode already held completes with ST_OK at once (log 39). -/
def execSafModeRequest (h : HalfId) (slot : Nat) (s : State) : Host.Outcome State Fault Refusal :=
  let half := fun (m : Msg) => if pay m 1 8 = 0 then HalfId.a else HalfId.b
  .next (s.runMsg h slot 0x0501 { lens := [3] }
    (fun _ m =>
      let mode := pay m 0 8
      let o := s.half (half m)
      let ret := s.half (other s.dev.chain)
      [{ bad := msgCtx m ≠ 0, st := stMalformed, off := 0x0A },
       { bad := 2 < mode, st := stMalformed, off := 0x10 },
       { bad := 1 < pay m 1 8, st := stMalformed, off := 0x11 },
       { bad := mode < 2 && half m ≠ s.dev.chain, st := stMalformed, off := 0x11 },
       { bad := mode = 2 && !o.alive, st := stMalformed, off := 0x11 },
       { bad := if mode = 2 then 2 < pay m 2 8 else pay m 2 8 ≠ 0, st := stMalformed, off := 0x12 },
       { bad := s.changing || s.dev.inMode = 0 || s.substituting, st := stBusy },
       { bad := s.dev.mode = .solo && mode < 2 && (ret.sec.debug = 2 || ret.unreachable), st := stBusy }])
    (fun t m =>
      let mode := pay m 0 8
      let target : DevMode := if mode = 0 then .dual else if mode = 1 then .mirror else .solo
      if t.dev.mode = target && (mode ≠ 2 || half m = t.dev.chain) then .done t stOk []
      else if t.dev.mode = .solo && mode ≠ 2 then
        let r := other t.dev.chain
        let kept := (t.half r).alive && !(t.half r).powx.held
        let u := t.startRejoin { half := r, target := target, slot := some (h, slot), kept := kept }
        if u.dev.rejoin.isSome then .wait u else .fail u { bad := true, st := stBusy }
      else
        let c : Change := { kind := .request, target := target, half := half m, leave := pay m 2 8, slot := some (h, slot)
                            left := if target = .mirror then 2 else 1 }
        .wait { t with dev := { t.dev with change := some c } }))

/-! ### SAF_STATUS and SAF_SELFTEST_STATUS (R459, R462) -/

/-- The mask of the engines that a test picks. -/
def Half.engMask (x : Half) (p : Engine → Bool) : Nat :=
  (x.sched.engines.filter p).foldl (fun a e => a + 2 ^ e.num) 0

/-- UMP_COUNTS (R464). -/
def Half.umpCounts (x : Half) : BitVec 64 :=
  pack 64 [(0, 16, x.ump.safeEntries.toNat), (16, 16, x.ump.mismatches.toNat), (32, 16, x.ump.substs.toNat),
    (48, 16, x.ump.transients.toNat)]

/-- Table — SAF_STATUS payload. -/
def safFields (s : State) (h : HalfId) : List (Nat × Nat × Nat) :=
  let x := s.half h
  let masks := x.engMask (fun e => e.st = .retired) + 2 ^ 18 * x.engMask (fun e => e.st = .spare) +
    2 ^ 36 * x.engMask (fun e => 10 ≤ e.slowFrames.toNat && x.lowestSpare.isNone)
  [(0x00, 8, modeCode s.dev.mode), (0x01, 8, s.chainCode), (0x02, 8, x.ump.role.toNat),
   (0x03, 8, b2n x.umpx.standbyReady + 2 * b2n x.umpx.untrusted + 4 * b2n x.umpx.compareFail + 8 * b2n s.dev.evacuated),
   (0x04, 32, x.ump.events.toNat), (0x08, 64, masks), (0x10, 64, ((x.ump.checkpoints.head?).map (·.frame)).getD 0),
   (0x18, 64, x.ump.trustedFrame), (0x20, 64, x.umpCounts.toNat), (0x28, 32, x.links.advisories.toNat)]

/-- SAF_STATUS (R462). -/
def execSafStatus (h : HalfId) (slot : Nat) (s : State) : Host.Outcome State Fault Refusal :=
  .next (s.runMsg h slot 0x0502 { lens := [0] } (fun _ _ => []) (fun t _ => .done t stOk (safFields t h)))

/-- Table — SAF_SELFTEST_STATUS payload. -/
def selftestFields (x : Half) : List (Nat × Nat × Nat) :=
  let mask := fun (p : SelfTest → Bool) => (x.tests.zipIdx.filter (fun t => p t.1)).foldl (fun a t => a + 2 ^ t.2) 0
  [(0x00, 16, mask (·.passed)), (0x02, 16, mask (·.forced))] ++
    (x.tests.zipIdx.map (fun t => (8 + 2 * t.2, 16, t.1.missed.toNat))) ++
    [(0x28, 64, (x.tests.map (·.passSt)).foldl max 0)]

/-- SAF_SELFTEST_STATUS (R459). -/
def execSafSelftestStatus (h : HalfId) (slot : Nat) (s : State) : Host.Outcome State Fault Refusal :=
  .next (s.runMsg h slot 0x0503 { lens := [0] } (fun _ _ => []) (fun t _ => .done t stOk (selftestFields (t.half h))))

/-! ### DIAG_RUN (R463) -/

/-- A gate test closes the gate of its pair when it begins and reopens it when it ends; a full self-test pass counts as the last pass of
its element (R459, R463). -/
def Half.diagWork (x : Half) (test n : Nat) (starts pass : Bool) : Half :=
  if test = 3 && starts && x.ump.gates.getLsbD n then
    { x.closeGate n with umpx := { (x.closeGate n).umpx with diagGate := some n } }
  else if test = 3 && !starts && x.umpx.diagGate = some n then
    let y := if x.permits && x.sec.debug ≠ 2 then x.setGates (x.ump.gates ||| (1#2 <<< n)) else x
    { y with umpx := { y.umpx with diagGate := none } }
  else if test = 2 && !starts then
    x.modTest n (fun t => if pass then { t with passed := true, forced := false, missed := 0, passTime := some x.now, passSt := x.st }
      else { t with passed := false })
  else x

/-- DIAG_RUN, a test that is running: deadline-mode cause 1 lasts from its start to its completion (spec/13_bandwidth_regulation.md
R350). -/
def Half.diagEnd (x : Half) (slot : Nat) (pass : Bool) : Half :=
  let m := x.msg slot
  let y := (x.diagWork (pay m 0 8) (pay m 1 8) false pass).finishWaiting slot stOk [(0, 8, b2n !pass)]
  let more := (List.range 64).any (fun k => (y.slot k).st = .acked && (y.slot k).started && msgOp (y.msg k) = 0x0A02)
  if more then y else y.cause 1 false

/-- DIAG_RUN: the message's first execution starts the test, the next one ends it with the result `pass` (R463). -/
def execDiagRun (h : HalfId) (slot : Nat) (pass : Bool) (s : State) : Host.Outcome State Fault Refusal :=
  let x := s.half h
  if x.captainRuns && (x.slot slot).st = .acked && (x.slot slot).started && msgOp (x.msg slot) = 0x0A02 then
    .next (s.mod h (fun x => x.diagEnd slot pass))
  else .next (s.runMsg h slot 0x0A02 { lens := [2] }
    (fun x m =>
      let test := pay m 0 8
      let n := pay m 1 8
      let top := if test = 1 then 17 else if test = 2 then 9 else if test = 3 then 1 else 11
      [{ bad := msgCtx m ≠ 0, st := stMalformed, off := 0x0A },
       { bad := (test = 2 || test = 3) && !(x.cfg.mode = 3 || x.cfg.mode = 5), st := stDenied },
       { bad := test = 0 || 4 < test, st := stMalformed, off := 0x10 },
       { bad := top < n || (test = 1 && (x.engine n).st = .retired), st := stMalformed, off := 0x11 },
       { bad := test = 4 && n ∉ x.mem.slicesOut, st := stBusy }])
    (fun t m => .wait (t.mod h (fun x => (x.cause 1 true).diagWork (pay m 0 8) (pay m 1 8) true false))))

/-! ### Readiness (R414, R28, R474) -/

/-- The half has finished boot steps 1 to 7 and R414 lets it report ready: its clock has stepped or START_WAIT has passed, its links
have trained, its domains and engines are powered, and its engines have passed their warm-up (Table — Boot chain). -/
def Half.canBeReady (x : Half) : Bool :=
  x.alive && !x.powx.ready && x.umpireRuns && (x.tim.stepped || x.timx.startWait) &&
    (List.range 17).all (fun i => (x.link i).st ≠ .training) && x.pow.domains &&& x.wantDomains = x.wantDomains &&
    x.sched.engines.all (fun e => !(e.st = .active || e.st = .quick) || (!e.wantWarmup && !e.warmDone && !e.rerunNext)) && x.ump.rerun = []

/-- The minimum SECURITY_VERSION of every kind that runs is raised to the running image's (R474). -/
def Half.raiseMinima (x : Half) : Half :=
  let raised := x.svc.running.map (fun p => (p.1, max (x.minVersion p.1) (imgSecVersion p.2)))
  { x with sec := { x.sec with minSec := raised ++ x.sec.minSec.filter (fun m => !(x.svc.running.any (fun p => p.1 = m.1))) } }

/-- The half reports ready: its frame number, its minima, and the remaining holds of its quarantines counted from now (R32, R474, R514
note A). -/
def Half.becomeReady (x : Half) : Half :=
  let y := x.raiseMinima
  { y with
    frame := y.frameNow, frames := 0
    powx := { y.powx with ready := true, held := false }
    ptn := { y.ptn with entries := y.ptn.entries.map (fun (p : Partner) =>
      if p.release = 0 then p else { p with release := BitVec.ofNat 64 (y.st + p.release.toNat) }) } }

/-- The device enters a mode (R28, R24): the chain-carrying half opens its gates, its clock leads, and the other half's work is that
of the mode. -/
def State.enterMode (s : State) (mode : DevMode) (chain : HalfId) : State :=
  let t : State := { s with dev := { s.dev with mode := mode, inMode := 0, midFrame := false, started := true, change := none, rejoin := none } }
  let t := t.moveChain chain
  if (t.half chain).ump.gates = 0 then t.openChain chain else t

/-- The half's boot bound has passed on its local counter, which runs from its power-on. -/
def Half.pastBootBound (x : Half) : Bool := decide (x.bootBound < x.now)

/-- HALF_READY: the half reports ready; at power-on the device enters its mode once both halves have within the boot bound, and SOLO on
the first where the second passes it (R28); a half that wakes or boots alone in SOLO runs the chain (R498); a returning half goes through
step 1 of Table — Return from SOLO; one that nobody asked to return is held for update (R24; log 43). -/
def execHalfReady (h : HalfId) (s : State) : Host.Outcome State Fault Refusal :=
  if !(s.half h).canBeReady then .next s
  else
    let t := s.mod h Half.becomeReady
    let o := t.half (other h)
    let held := fun (t : State) => t.mod h (fun x => { x with powx := { x.powx with held := true } })
    if !t.dev.started then
      if o.alive && o.powx.ready then
        let c := (t.half .a).cfg
        if (t.half h).pastBootBound then .next (held (t.enterMode .solo (other h)))
        else .next (t.enterMode c.bootMode c.primary)
      else .next t
    else match t.dev.rejoin with
      | some r => if r.half = h && r.step = 1 then .next (t.rejoinStep1 r).setRoles else .next t.setRoles
      | none =>
        if t.dev.chain = h || !o.alive then .next ((t.moveChain h).openChain h)
        else if t.dev.mode = .solo then .next (held t).setRoles
        else .next t.setRoles

end Sys2Proof.Machine
end

