-- ==== Sys2Proof/Machine/Security.lean ====
section
/-! DEFINITION. The security block's messages: attestation, signed requests, the lifecycle and debug levels
(spec/19_security_debug_power.md). -/

namespace Sys2Proof.Machine

/-! ### Transfer in chunks (R481, spec/21_configuration_and_update.md R520) -/

/-- What a chunk does to a stage. -/
inductive ChunkResult where
  /-- Another slot's transfer is open. -/
  | busy
  /-- Not the chunk expected; the stage after it. -/
  | bad (st : Option Stage)
  /-- Taken; more are to come. -/
  | more (st : Stage)
  /-- The last one: the data of all. -/
  | whole (data : List Byte)
  deriving DecidableEq, Repr

/-- The data bytes of a chunked message, which begin at +0x08. -/
def chunkData (m : Msg) : List Byte := leBytes 40 (pay m 8 320)

/-- One chunk against the stage (R481, R520). A chunk from a slot that does not own the stage leaves the stage as it is. -/
def takeChunk (st : Option Stage) (slot op chunk total objLen now : Nat) (data : List Byte) : ChunkResult :=
  let fresh : Stage := { slot := slot, opcode := op, next := 1, total := total, objLen := objLen, data := data, used := now }
  let first := if total ≤ 1 then .whole data else .more fresh
  match st with
  | none => if chunk = 0 then first else .bad none
  | some k =>
    if chunk = 0 && k.slot ≠ slot then (if now < k.used + 10000000000 then .busy else first)
    else if k.slot ≠ slot then .bad st
    else if chunk ≠ k.next || op ≠ k.opcode || total ≠ k.total || objLen ≠ k.objLen then .bad none
    else if chunk + 1 = total then .whole (k.data ++ data)
    else .more { k with next := k.next + 1, data := k.data ++ data, used := now }

/-! ### Signed requests (R470, R471) -/

/-- A field of a signed request. -/
def rq (b : List Byte) (off w : Nat) : Nat := bytesAt b off w

/-- SIGNER. -/
def rqSigner (b : List Byte) : Nat := rq b 0x02 1
/-- HALF_MASK. -/
def rqMask (b : List Byte) : Nat := rq b 0x03 1
/-- ARG0. -/
def rqArg0 (b : List Byte) : Nat := rq b 0x10 1
/-- ARG1. -/
def rqArg1 (b : List Byte) : Nat := rq b 0x11 1
/-- DURATION_S. -/
def rqDur (b : List Byte) : Nat := rq b 0x14 4
/-- KEY. -/
def rqKey (b : List Byte) : BitVec 480 := BitVec.ofNat 480 (rq b 0x40 60)

/-- HALF_MASK names a half. -/
def names (mask : Nat) (h : HalfId) : Bool := mask.testBit (halfCode h)

/-- The last accepted SEQ of a signer. -/
def Half.seqOf (x : Half) (signer : Nat) : Nat := x.sec.seqs[signer]?.getD 0

/-- Root 0 or root 1 signs; a revoked root 0 does not. -/
def Half.isRoot (x : Half) (signer : Nat) : Bool := signer = 1 || (signer = 0 && !x.sec.root0Revoked)

/-- An enrolled owner signs. -/
def Half.isOwner (x : Half) (signer : Nat) : Bool := signer = 2 && x.sec.owner.isSome

/-- The checks that every signed request shares (R468, R471); `ok` says that state, operation and signer allow it, `key` that KEY is
used, `dur` the range of DURATION_S, zero where it is reserved. The spec gives no offset for a field of a request, so 0x10 is
reported. -/
def Half.requestChecks (x : Half) (serial : BitVec 64) (kinds : List Nat) (b : List Byte) (ok key : Bool) (dur : Nat × Nat) :
    List Chk :=
  let signer := rqSigner b
  let signed := signer ≠ 0xFF
  let sig := b.drop 128
  let mal := fun (c : Bool) => { bad := c, st := stMalformed, off := 0x10 : Chk }
  let den := fun (c : Bool) => { bad := c, st := stDenied : Chk }
  [mal (b.length ≠ if signed then 3412 else 128), mal (rq b 0 2 ∉ kinds), mal (3 < rqMask b),
   mal (rq b 0x12 2 ≠ 0 || rq b 0x18 40 ≠ 0 || rq b 0x7C 4 ≠ 0), mal (!key && rq b 0x40 60 ≠ 0),
   mal (key && !(Config.hssTypes (leBytes 60 (rqKey b).toNat))), mal (signed && !(Config.hssTypes sig)),
   mal (rqDur b < dur.1 || dur.2 < rqDur b),
   den (!ok), den (signer = 0 && x.sec.root0Revoked), den (rq b 8 8 = 0 || rq b 8 8 ≠ serial.toNat), den (!(names (rqMask b) x.me)),
   den (signed && decide (rq b 4 4 ≤ x.seqOf signer)),
   den (signed && Config.hssTypes sig && match x.signerKey signer with
     | some k => !(Config.hssVerify k (b.take 128) sig)
     | none => true)]

/-- An accepted signed request raises the signer's stored SEQ on every half that it names (R471). -/
def State.raiseSeq (s : State) (b : List Byte) : State :=
  let up := fun (x : Half) =>
    if names (rqMask b) x.me && rqSigner b < 3 then
      { x with sec := { x.sec with seqs := x.sec.seqs.set (rqSigner b) (rq b 4 4) } }
    else x
  (s.mod .a up).mod .b up

/-- The other half is named and cannot be reached: it is not in RUN, DIM or DOZE, or the Handoff link does not carry traffic. -/
def State.otherMissing (s : State) (h : HalfId) (mask : Nat) : Bool :=
  names mask (other h) && !((s.half (other h)).alive && (s.half h).handoffUp)

/-- A mode change, a takeover or a substitution is in progress (R491). -/
def State.securityBusy (s : State) : Bool := s.changing || s.substituting

/-- ST_BUSY with RETRY_AFTER 100,000 µs. -/
def busy100 (c : Bool) : Chk := { bad := c, st := stBusy, retry := some 100000 }

/-- A transfer whose last chunk is answered with ST_BUSY has done nothing: the stage stays as it was, so that the chunk can be sent again
(spec/02_captain_and_mailboxes.md R64). -/
def Reply.keepStage (r : Reply) (before : State) : Reply :=
  match r with
  | .fail t c => .fail (if c.st = stBusy then before else t) c
  | r => r

/-- The request of a message: its long form at once, or the chunk (R481). -/
def State.runRequest (s : State) (h : HalfId) (slot op : Nat) (run : State → List Byte → Reply) : State :=
  let chunk := fun (m : Msg) => (pay m 0 16, pay m 2 16, pay m 4 32)
  s.runMsg h slot op { lens := [0x30], long := true }
    (fun _ m =>
      if msgLong m then
        [{ bad := inLen m ≠ 128 && inLen m ≠ 3412, st := stMalformed, off := 0x18 }, { bad := outLen m ≠ 0, st := stMalformed, off := 0x1C }]
      else
        let (_, total, len) := chunk m
        [{ bad := len ≠ 128 && len ≠ 3412, st := stMalformed, off := 0x14 },
         { bad := total ≠ if len = 128 then 4 else 86, st := stMalformed, off := 0x12 }])
    (fun t m =>
      let x := t.half h
      let stage := fun (k : Option Stage) => t.mod h (fun y => { y with sec := { y.sec with upload := k } })
      if msgLong m then run t (x.vread (msgCtx m) (inAddr m) (inLen m))
      else
        let (i, total, len) := chunk m
        match takeChunk x.sec.upload slot op i total len x.now (chunkData m) with
        | .busy => .fail t { bad := true, st := stBusy, retry := some 1000000 }
        | .bad k => .fail (stage k) { bad := true, st := stMalformed, off := 0x10 }
        | .more k => .done (stage (some k)) stOk []
        | .whole d => (run (stage none) (d.take len)).keepStage t)

/-- UPLOAD_STAGE_IDLE_TIMEOUT: a stage idle for 10 s is emptied (R481). -/
def execUploadStageIdleTimeout (h : HalfId) (s : State) : Host.Outcome State Fault Refusal :=
  .next (s.mod h (fun x =>
    if x.sec.upload.any (fun k => x.since k.used 10000000000) then { x with sec := { x.sec with upload := none } } else x))

/-! ### The lifecycle (R482 to R484) -/

/-- State, operation and signer allow a lifecycle request (Table — Lifecycle requests; its signers are those of the row, log 40). -/
def Half.lifeAllows (x : Half) (b : List Byte) : Bool :=
  let k := rq b 0 2
  let a0 := rqArg0 b
  let sg := rqSigner b
  let l := x.sec.life
  let op := rqArg1 b
  if k = 3 then l = 0 && op = 0 && a0 = 1 && x.isRoot sg
  else if op = 1 then l = 0 && sg = 0xFF
  else if op = 2 then (l = 1 && (x.isRoot sg || x.isOwner sg)) || (l = 2 && x.isOwner sg)
  else if op = 3 then sg = 1
  else op = 0 &&
    ((l = 1 && a0 = 2 && x.isOwner sg) || (l = 2 && a0 = 3 && x.isOwner sg) ||
     (l = 3 && a0 = 2 && (x.isOwner sg || sg = 0xFF)) || ((l = 1 || l = 2 || l = 3) && a0 = 4 && (x.isOwner sg || x.isRoot sg)))

/-- A debug level of the half ends (R488). -/
def Half.endDebug (x : Half) : Half := { x with sec := { x.sec with debug := 0, debugEnd := 0 } }

/-- A lifecycle request takes its effect on one half that it names (Table — Lifecycle requests, R484). -/
def Half.applyLife (x : Half) (b : List Byte) : Half :=
  let op := rqArg1 b
  if rq b 0 2 = 3 then
    ({ x with sec := { x.sec with life := 1, cert := if x.sec.devKey = some (rqKey b) then b else x.sec.cert } } : Half).endDebug
  else if op = 1 then { x with sec := { x.sec with keygen := true } }
  else if op = 2 then { x with sec := { x.sec with owner := some (rqKey b), seqs := x.sec.seqs.set 2 0 } }
  else if op = 3 then { x with sec := { x.sec with root0Revoked := true } }
  else if rqArg0 b = 4 then ({ x with sec := { x.sec with life := 4, owner := none, seqs := x.sec.seqs.set 2 0 } } : Half).endDebug
  else if rqArg0 b = 3 then
    ({ x with sec := { x.sec with life := 3, fdTime := rqDur b, fdSaved := rqDur b, fdMark := x.now } } : Half).endDebug
  else ({ x with sec := { x.sec with life := 2, fdTime := 0, fdSaved := 0 } } : Half).endDebug

/-- A half whose INVASIVE level ended in a step resets and boots (R488). -/
def State.afterDebug (before s : State) : State :=
  let one := fun (t : State) (h : HalfId) =>
    if (before.half h).sec.debug = 2 && (t.half h).sec.debug ≠ 2 && (t.half h).alive then t.rebootHalf h else t
  one (one s .a) .b

/-- The accepted lifecycle request that a half holds takes effect on it at the frame boundary, and on the half that received it its
message completes (R482). The other half holds the request since its acceptance, when the Handoff link carried it over. -/
def State.lifeBoundary (s : State) (h : HalfId) : State :=
  match (s.half h).sec.pendLife with
  | none => s
  | some (slot, mask, b) =>
    let t := s.mod h (fun x =>
      let y : Half := { x with sec := { x.sec with pendLife := none } }
      if names mask x.me then y.applyLife b else y)
    State.afterDebug s (if slot < 64 then t.mod h (fun x => x.finishWaiting slot stOk []) else t)

/-- FIELD-DEBUG ends on both halves at the first frame boundary at which either half's time has run out (R483); a half hears of the
other's over the Handoff link (spec/01_two_halves.md R17). -/
def State.fieldBoundary (s : State) : State :=
  let out := fun (x : Half) => x.sec.life = 3 && x.sec.fdTime = 0
  let heard := s.a.handoffUp && s.b.handoffUp
  let back := fun (mine theirs : Bool) (x : Half) =>
    if (mine || (theirs && heard)) && x.sec.life = 3 then
      ({ x with sec := { x.sec with life := 2, fdTime := 0, fdSaved := 0 } } : Half).endDebug
    else x
  State.afterDebug s ((s.mod .a (back (out s.a) (out s.b))).mod .b (back (out s.b) (out s.a)))

/-- SEC_LIFECYCLE (R482): an accepted request waits for the frame boundary. -/
def execSecLifecycle (h : HalfId) (slot : Nat) (s : State) : Host.Outcome State Fault Refusal :=
  .next (s.runRequest h slot 0x0602 (fun t b =>
    let x := t.half h
    let one := rqArg1 b = 1 || (rqArg1 b = 0 && rqArg0 b = 4)
    let key := rq b 0 2 = 3 || rqArg1 b = 2
    let dur := if rq b 0 2 = 1 && rqArg1 b = 0 && rqArg0 b = 3 then (3600, 2592000) else (0, 0)
    let checks := x.requestChecks t.dev.serial [1, 3] b (x.lifeAllows b) key dur ++
      [{ bad := rqArg1 b ≠ 0 && rqArg0 b ≠ 0, st := stMalformed, off := 0x10 },
       { bad := rq b 0 2 = 3 && x.sec.devKey ≠ some (rqKey b), st := stDenied },
       busy100 (t.securityBusy || t.otherMissing h (rqMask b) || (!one && rqMask b ≠ 3) || x.sec.pendLife.isSome)]
    match worst checks with
    | some c => .fail t c
    | none =>
      let hold := fun (k : Nat) (y : Half) => { y with sec := { y.sec with pendLife := some (k, rqMask b, b) } }
      let t := (t.raiseSeq b).mod h (hold slot)
      .wait (if names (rqMask b) (other h) then t.mod (other h) (hold 64) else t)))

/-- KEYGEN_COMPLETE: the half has generated its device key (R482). -/
def execKeygenComplete (h : HalfId) (s : State) : Host.Outcome State Fault Refusal :=
  .next (s.mod h (fun x =>
    if x.sec.keygen && x.umpireRuns then
      { x.took with sec := { x.sec with keygen := false, devKey := some (Config.deviceKey x.seed), leaves := 0 } }
    else x))

/-- FIELD_DEBUG_TIME_SAVE: every 60 s of operation the remaining time is written to MRAM (R467, R483). -/
def execFieldDebugTimeSave (h : HalfId) (s : State) : Host.Outcome State Fault Refusal :=
  .next (s.mod h (fun x =>
    if x.alive && x.sec.life = 3 && x.since x.sec.fdMark 60000000000 then
      let left := x.sec.fdTime - 60
      { x with sec := { x.sec with fdTime := left, fdSaved := left, fdMark := x.sec.fdMark + 60000000000 } }
    else x))

/-- FIELD_DEBUG_EXPIRY: the half's FIELD-DEBUG time has run out; the state returns to FIELD at the next frame boundary (R483). -/
def execFieldDebugExpiry (h : HalfId) (s : State) : Host.Outcome State Fault Refusal :=
  .next (s.mod h (fun x =>
    if x.alive && x.sec.life = 3 && x.since x.sec.fdMark (x.sec.fdTime * 1000000000) then
      { x with sec := { x.sec with fdTime := 0, fdSaved := 0 } }
    else x))

/-! ### Debug levels (R485 to R488) -/

/-- Signer and lifecycle state allow a debug request (Table — Lifecycle properties). -/
def Half.debugSigner (x : Half) (b : List Byte) : Bool :=
  let sg := rqSigner b
  match x.sec.life with
  | 0 => sg = 0xFF
  | 1 => x.isRoot sg || x.isOwner sg
  | 4 => x.isRoot sg
  | _ => x.isOwner sg

/-- INVASIVE may be opened on a half that can carry the chain only while the device is in SOLO on the other half and this one is held
for update (R487). -/
def State.invasiveOk (s : State) (h : HalfId) : Bool :=
  !(s.half h).permits || (s.dev.mode = .solo && s.dev.chain = other h && (s.half h).powx.held)

/-- Opens a level on a half for a time counted on its local counter (R486); with INVASIVE its chain gates are closed (R487). -/
def Half.openDebug (x : Half) (level secs : Nat) : Half :=
  let y : Half := { x with sec := { x.sec with debug := level, debugEnd := x.now + secs * 1000000000 } }
  if level = 2 then y.closeGates else y

/-- SEC_DEBUG_AUTH (R486, R487, R490, R491). -/
def execSecDebugAuth (h : HalfId) (slot : Nat) (s : State) : Host.Outcome State Fault Refusal :=
  .next (s.runRequest h slot 0x0603 (fun t b =>
    let x := t.half h
    let lvl := rqArg0 b
    let halves := [HalfId.a, .b].filter (names (rqMask b))
    let denied := lvl = 2 && halves.any (fun g => (t.half g).sec.life = 2)
    let checks := x.requestChecks t.dev.serial [2] b (x.debugSigner b && !denied) false (1, 86400) ++
      [{ bad := lvl = 0 || 2 < lvl || rqArg1 b ≠ 0, st := stMalformed, off := 0x10 },
       busy100 (t.securityBusy || t.otherMissing h (rqMask b)),
       { bad := lvl = 2 && halves.any (fun g => !t.invasiveOk g), st := stBusy, retry := some 1000000 }]
    match worst checks with
    | some c => .fail t c
    | none =>
      let u := halves.foldl (fun (u : State) g => u.mod g (fun y => y.openDebug lvl (rqDur b))) (t.raiseSeq b)
      .done u stOk []))

/-- SEC_DEBUG_END (R488). When INVASIVE ends the half resets within 1 ms. -/
def execSecDebugEnd (h : HalfId) (slot : Nat) (s : State) : Host.Outcome State Fault Refusal :=
  .next (State.afterDebug s (s.runMsg h slot 0x0604 { lens := [1] }
    (fun _ m => [{ bad := msgCtx m ≠ 0, st := stMalformed, off := 0x0A }, { bad := 3 < pay m 0 8, st := stMalformed, off := 0x10 },
      busy100 (s.otherMissing h (pay m 0 8))])
    (fun t m =>
      let u := ([HalfId.a, .b].filter (names (pay m 0 8))).foldl (fun (u : State) g => u.mod g Half.endDebug) t
      .done u stOk [])))

/-- DEBUG_LEVEL_EXPIRY: the end of DURATION_S on the local counter (R486, R488). -/
def execDebugLevelExpiry (h : HalfId) (s : State) : Host.Outcome State Fault Refusal :=
  .next (State.afterDebug s (s.mod h (fun x =>
    if x.alive && x.sec.debug ≠ 0 && x.since x.sec.debugEnd 0 then x.endDebug else x)))

/-! ### Attestation (R478 to R480) -/

/-- Bytes at their offsets, zero elsewhere: (offset, bytes), in ascending order without overlap. -/
def layout (n : Nat) (l : List (Nat × List Byte)) : List Byte :=
  ((l.foldl (fun (acc : List Byte) (p : Nat × List Byte) => acc ++ List.replicate (p.1 - acc.length) 0 ++ p.2) []) ++ List.replicate n 0).take n

/-- MEASURE of a running image: PAYLOAD_HASH, VERSION, SECURITY_VERSION. -/
def measure (img : List Byte) : List Byte := (img.drop 0x20).take 32 ++ leBytes 4 (imgVersion img) ++ leBytes 4 (imgSecVersion img)

/-- Table — Attestation report body. -/
def Half.reportBody (x : Half) (dev : Dev) (nonce : BitVec 256) : List Byte :=
  let ovls := x.activeOverlays
  let slots := x.svc.ranB.foldl (fun a k => a + 2 ^ kindBit k) 0
  let mode := match dev.mode with
    | .dual => 0
    | .mirror => 1
    | .solo => 2
  layout 512 ([(0x00, leBytes 4 0x56504154), (0x04, leBytes 2 1), (0x06, leBytes 1 (halfCode x.me)), (0x07, leBytes 1 x.sec.life),
    (0x08, leBytes 8 dev.serial.toNat), (0x10, leBytes 32 nonce.toNat), (0x30, leBytes 8 x.st), (0x38, leBytes 1 (timCode x.tim.st)),
    (0x39, leBytes 1 x.sec.debug), (0x3A, leBytes 1 mode), (0x3B, leBytes 1 (pwrCode x.pow.st)), (0x3C, leBytes 4 x.sec.leaves),
    (0x40, leBytes 4 x.sec.bootCount.toNat), (0x44, leBytes 2 slots), (0x46, leBytes 2 x.sec.fallback.toNat),
    (0x48, slotKinds.flatMap (fun k => measure (x.runningImage k))),
    (0x188, leBytes 32 (Config.sha256 (ovls.flatMap (fun o => (o.image.drop 0x20).take 32))).toNat),
    (0x1A8, leBytes 1 ovls.length), (0x1AC, leBytes 60 ((x.sec.devKey.getD 0).toNat)),
    (0x1E8, leBytes 8 ((x.sec.owner.map (fun k => (Config.sha256 (leBytes 60 k.toNat)).toNat)).getD 0))])

/-- A new report with its signature, 3,796 bytes, which the security block keeps (R478, R479); it draws from the bucket (R480). -/
def Half.newReport (x : Half) (dev : Dev) (nonce : BitVec 256) : Half :=
  let y := x.useLeaf
  let body := y.reportBody dev nonce
  { y with sec := { y.sec with
      report := some (nonce, body ++ Config.hssSign (y.sec.devKey.getD 0) x.sec.leaves body)
      refill := if y.sec.bucket = 16 then y.now else y.sec.refill
      bucket := y.sec.bucket - 1 } }

/-- The unsigned certificate body of a half in MANUFACTURE (R479). -/
def Half.certBody (x : Half) (serial : BitVec 64) : List Byte :=
  layout 128 [(0x00, leBytes 2 3), (0x02, leBytes 1 0xFF), (0x03, leBytes 1 (1 + halfCode x.me)), (0x08, leBytes 8 serial.toNat),
    (0x10, leBytes 1 1), (0x40, leBytes 60 ((x.sec.devKey.getD 0).toNat))]

/-- The 40-byte request of SEC_ATTEST: WHAT, reserved byte, CHUNK, reserved word, NONCE. -/
def attestReq (x : Half) (m : Msg) : List Byte :=
  if msgLong m then x.vread (msgCtx m) (inAddr m) 40 else leBytes 40 (pay m 0 320)

/-- The request names the report that the security block keeps. -/
def Half.cached (x : Half) (nonce : Nat) : Bool := x.sec.report.any (fun r => r.1 = BitVec.ofNat 256 nonce)

/-- The checks of SEC_ATTEST (R473, R479, R480). -/
def attestChecks (x : Half) (m : Msg) : List Chk :=
  let r := attestReq x m
  let what := rq r 0 1
  let chunk := rq r 2 2
  let nonce := rq r 8 32
  let total := if what = 0 then 95 else if x.sec.life = 0 then 4 else 86
  let len := if what = 0 then 3796 else if x.sec.life = 0 then 128 else 3412
  let at' := fun o => if msgLong m then 0x10 else 0x10 + o
  let fresh := what = 0 && chunk = 0 && !x.cached nonce
  [{ bad := what = 0 && x.sec.life = 0, st := stDenied },
   { bad := 1 < what, st := stMalformed, off := at' 0 },
   { bad := rq r 1 1 ≠ 0, st := stMalformed, off := at' 1 },
   { bad := rq r 4 4 ≠ 0, st := stMalformed, off := at' 4 },
   { bad := what = 1 && nonce ≠ 0, st := stMalformed, off := at' 8 },
   { bad := total ≤ chunk || (what = 0 && chunk ≠ 0 && !x.cached nonce) || (msgLong m && chunk ≠ 0), st := stMalformed, off := at' 2 },
   { bad := msgLong m && inLen m ≠ 40, st := stMalformed, off := 0x18 },
   { bad := msgLong m && outLen m < len, st := stLimit, off := 0x1C },
   { bad := fresh && 2 ^ 30 ≤ x.sec.leaves, st := stLimit, off := 0x10 },
   { bad := what = 1 && x.sec.life = 0 && x.sec.devKey.isNone, st := stBusy, retry := some 1000000 },
   { bad := fresh && x.sec.bucket = 0, st := stBusy, retry := some (cdiv (x.sec.refill + 1000000000 - x.now) 1000) }]

/-- SEC_ATTEST (R479). -/
def execSecAttest (h : HalfId) (slot : Nat) (s : State) : Host.Outcome State Fault Refusal :=
  .next (s.runMsg h slot 0x0601 { lens := [0x28], long := true } attestChecks
    (fun t m =>
      let x := t.half h
      let r := attestReq x m
      let what := rq r 0 1
      let chunk := rq r 2 2
      let nonce := rq r 8 32
      let y := if what = 0 && chunk = 0 && !x.cached nonce then x.newReport t.dev (BitVec.ofNat 256 nonce) else x
      let obj := if what = 0 then (y.sec.report.map (·.2)).getD [] else if y.sec.life = 0 then y.certBody t.dev.serial else y.sec.cert
      let len := if what = 0 then 3796 else if x.sec.life = 0 then 128 else 3412
      if msgLong m then
        .done (t.setHalf h (y.commitBytes (msgCtx m) (placeBytes (outAddr m) (layout len [(0, obj)]))).settle) stOk [(0x00, 32, len)]
      else
        .done (t.setHalf h y) stOk [(0x00, 16, cdiv len 40), (0x02, 16, chunk), (0x04, 32, len),
          (0x08, 320, bytesAt obj (40 * chunk) 40)]))

/-- ATTEST_BUCKET_REFILL: the bucket of 16 refills at one per second (R480). -/
def execAttestBucketRefill (h : HalfId) (s : State) : Host.Outcome State Fault Refusal :=
  .next (s.mod h (fun x =>
    if x.alive && x.sec.bucket < 16 && x.since x.sec.refill 1000000000 then
      { x with sec := { x.sec with bucket := x.sec.bucket + 1, refill := x.sec.refill + 1000000000 } }
    else x))

/-- TREE_GENERATION_COMPLETE: from leaf 512 of the current level-1 tree on, the next tree is generated in the background (R469). -/
def execTreeGenerationComplete (h : HalfId) (s : State) : Host.Outcome State Fault Refusal :=
  .next (s.mod h (fun x =>
    if x.umpireRuns && 512 ≤ x.sec.leaves % 1024 then { x with sec := { x.sec with nextTree := true } } else x))

end Sys2Proof.Machine
end

