-- ==== Sys2Proof/Machine/Power.lean ====
section
/-! DEFINITION. Power states, the cap and the thermal limits, sensors, wakes, resets and device power-on
(spec/20_power_thermal_reset.md, spec/22_package_and_electrical.md R544 to R549). -/

namespace Sys2Proof.Machine

/-! ### Clocks (R494, R505, R506, R508) -/

/-- A hot spot holds its island at the lowest clock (R508). -/
def Half.islandSlow (x : Half) (p : Nat) : Bool := (x.powx.pairs[p]?.getD {}).slow

/-- Clock of an engine in MHz (R123, R494, R505, R508); the steps of R505 act at their floors (log 41). -/
def Half.engineMhz (x : Half) (e : Engine) : Nat :=
  if !(x.pow.domains.getLsbD (1 + e.num)) then 0
  else if x.islandSlow e.num then 200
  else if e.isQuickLane then 800
  else if x.pow.st = .dim then (if 5 ≤ x.powx.level then 200 else 400)
  else if 3 ≤ x.powx.level then 400
  else if x.powx.level = 2 && !(x.sched.cmds.any (fun c => c.engine = some e.num && c.st ≠ .waiting && c.tier = 0)) then 400
  else 800

/-- Running frequency of a cluster: the least of its request, the DIM ceiling and the limit of R505, or the lowest clock of a hot
island (R506, R508). -/
def Half.clusterMhz (x : Half) (c req : Nat) : Nat :=
  if x.islandSlow (18 + c) || (x.pow.st = .dim && 5 ≤ x.powx.level) then min req 600
  else if x.pow.st = .dim || 1 ≤ x.powx.level then min req 1200
  else req

/-- Brings every engine's and cluster's clock up to date. -/
def Half.applyClocks (x : Half) : Half :=
  { x with
    sched := { x.sched with engines := x.sched.engines.map (fun (e : Engine) => { e with clockMhz := BitVec.ofNat 16 (x.engineMhz e) }) }
    pow := { x.pow with clusters := x.pow.clusters.zipIdx.map (fun p => (BitVec.ofNat 16 (x.clusterMhz p.2 p.1.2.toNat), p.1.2)) } }

/-- ENGINE_RESET_COMPLETE (spec/04_tensor_engines.md R113): the engine is back in its state, at the clock that its state has (R123). -/
def execEngineResetComplete (h : HalfId) (n : Nat) (s : State) : Host.Outcome State Fault Refusal :=
  .next (s.mod h (fun x =>
    if x.alive && (x.engine n).st = .resetting then (x.modEngine n (fun e => { e with st := e.back })).applyClocks else x))

/-! ### Entry to HIBERNATE and OFF (R497) -/

/-- R497 steps 1 to 5: fetching stops, every command in flight ends with ST_KILLED, what contexts own is released, every mailbox slot
but the request's is FREE, and the tables are saved. -/
def Half.sleepSteps (x : Half) (keep : Option Nat) : Half :=
  let x : Half := { x with powx := { x.powx with draining := true } }
  let y := (x.endCmds (x.sched.cmds.map (·.id)) stKilled).settle
  let y := y.endCmds (y.sched.cmds.map (·.id)) stKilled
  let y := y.sched.ctxs.foldl (fun (z : Half) c => z.releaseCtx c.id) y
  let kept := fun (l : List Nat) => l.filter (fun s => some s = keep)
  let y : Half := { y with
    mbx := { y.mbx with
      slots := y.mbx.slots.zipIdx.map (fun p => if some p.2 = keep then p.1 else freedSlot p.1)
      posted := kept y.mbx.posted, acked := kept y.mbx.acked }
    powx := { y.powx with saved := some { clients := y.sched.clients, ctxs := y.sched.ctxs, queues := y.sched.queues, tpt := y.mem.tpt } } }
  y.thmEvent 9

/-- What an open debug level does on entry to HIBERNATE or OFF (R490): in OFF it ends; INVASIVE ends without a reset where the half can
carry the chain and otherwise persists; OBSERVE is suspended while its time runs on, kept on the Umpire's clock. -/
def Half.sleepDebug (x : Half) (off : Bool) : Half :=
  if off || (x.sec.debug = 2 && x.permits) then x.endDebug
  else { x with sec := { x.sec with debugEnd := if x.sec.debug = 0 then 0 else x.ump.clock + (x.sec.debugEnd - x.now) } }

/-- R497 step 7: the half is in HIBERNATE or OFF. Client DRAM and the images in reserved frames stay over HIBERNATE. -/
def Half.asleep (x : Half) (st : PwrState) : Half :=
  let x := x.sleepDebug (st = .off)
  let y := x.closeGates.switchedOff
  let y : Half := { y with
    mem := { y.mem with cells := if st = .off then [] else x.mem.cells, bad := if st = .off then [] else x.mem.bad }
    svc := { y.svc with running := x.svc.running, ranB := x.svc.ranB }
    pow := { y.pow with st := st }
    powx := { y.powx with saved := if st = .off then none else x.powx.saved }
    umpx := { y.umpx with sub := .none, standbyReady := false, untrusted := false }
    ump := { y.ump with gates := 0, role := 0 } }
  let y := y.trimDomains
  if st = .off then { y with pow := { y.pow with domains := 0 } } else y

/-- The other half no longer expects heartbeats of this one. -/
def State.quiet (s : State) (h : HalfId) : State :=
  s.mod (other h) (fun x => { x with ump := { x.ump with peerHandoff := false, peerBus := false } })

/-- The half has reached HIBERNATE or OFF: the other half's end of the Handoff link is DISABLED (spec/15_die_to_die_links.md R391). -/
def State.reachSleep (s : State) (h : HalfId) (st : PwrState) : State :=
  (((s.mod h (fun x => x.asleep st)).peerGone h).quiet h).setRoles

/-! ### Exit (R496, R498, R477) -/

/-- Exit from HIBERNATE: boot steps 4 to 8 from the retained copies, each verified again, and the saved tables restored; a copy that
fails leads to a half reset (R477). -/
def State.wakeHibernate (s : State) (h : HalfId) : State :=
  let x := s.half h
  let ok := x.svc.running.all (fun p => x.imageOk s.dev.serial p.1 p.2)
  if !ok then s.bootHalf h true true
  else
    let imgs := x.svc.running.map (fun p => (p.1, p.2, decide (p.1 ∈ x.svc.ranB)))
    let sv := x.powx.saved.getD {}
    let left := x.sec.debugEnd - x.ump.clock
    let y := x.bootUp imgs (x.svc.overlays.filter (fun o => x.imageOk s.dev.serial 0x11 o.image)) (s.runner h)
    let y : Half := { y with
      sched := { y.sched with clients := sv.clients, ctxs := sv.ctxs, queues := sv.queues }
      mem := { y.mem with tpt := sv.tpt }
      powx := { y.powx with saved := none, wakeAt := none, wakeLine := false, wakeLatched := false }
      sec := { y.sec with refill := 0, debug := if left = 0 then 0 else y.sec.debug, debugEnd := left } }
    (s.setHalf h y).trainHandoff h

/-- A half in OFF powers on: what OFF keeps is the identity, the non-volatile records and the partner table (Table — Retention). -/
def Half.offReset (x : Half) : Half :=
  let y := x.halfReset
  { y with
    mem := { y.mem with log := [], logSeq := 0 }
    links := { y.links with log := [], logSeq := 0 }
    ptn := { y.ptn with log := [], written := 0 } }

/-- A wake of a half in HIBERNATE or OFF (R498). -/
def State.wake (s : State) (h : HalfId) : State :=
  let x := s.half h
  if x.umpx.safe || x.powx.inReset || !s.dev.pwrOk then s
  else if x.pow.st = .hibernate then s.wakeHibernate h
  else if x.pow.st = .off then
    (s.mod h (fun x => x.offReset.bootChain s.dev.serial true true (s.runner h))).trainHandoff h
  else s

/-- A wake that arrives during entry is latched, and exit begins at once after it (R499). -/
def State.wakeOrLatch (s : State) (h : HalfId) : State :=
  if (s.half h).powx.holdSlot.isSome then s.mod h (fun x => { x with powx := { x.powx with wakeLatched := true } }) else s.wake h

/-- WAKE_PIN: WAKE held high for 1 ms (R498, spec/22_package_and_electrical.md R549). -/
def execWakePin (h : HalfId) (s : State) : Host.Outcome State Fault Refusal := .next (s.wakeOrLatch h)

/-- WAKE_TIMER_EXPIRY: not before WAKE_AFTER_MS less 2 % (R498). -/
def execWakeTimerExpiry (h : HalfId) (s : State) : Host.Outcome State Fault Refusal :=
  let x := s.half h
  if x.powx.wakeAt.any (fun t => t ≤ x.ump.clock) then .next (s.wakeOrLatch h) else .next s

/-- PEER_WAKE: the other half's Umpire pulses the peer wake line (R498). -/
def execPeerWake (h : HalfId) (s : State) : Host.Outcome State Fault Refusal :=
  if (s.half h).powx.wakeLine then
    .next ((s.mod h (fun x => { x with powx := { x.powx with wakeLine := false } })).wakeOrLatch h)
  else .next s

/-- HIBERNATE_HOLD_EXPIRY: 5 ms after R497 step 6 the half reaches its state. -/
def execHibernateHoldExpiry (h : HalfId) (s : State) : Host.Outcome State Fault Refusal :=
  let x := s.half h
  match x.powx.holdSlot with
  | some (_, t, st) =>
    if x.alive && x.since t 0 then
      let u := (s.mod h (fun y => { y with powx := { y.powx with holdSlot := none } })).reachSleep h st
      .next (if x.powx.wakeLatched then u.wake h else u)
    else .next s
  | none => .next s

/-! ### PWR_STATE_REQUEST (R495, R496, R499) -/

/-- STATE of the request. -/
def pwrOf (n : Nat) : PwrState := if n = 0 then .run else if n = 1 then .dim else if n = 2 then .doze else if n = 3 then .hibernate else .off

/-- Leaves DOZE: the engines' domains are switched on as they report power-good, and a rollout of engine microcode ends, since every
engine loads the active slot (spec/21_configuration_and_update.md R537). -/
def Half.leaveDoze (x : Half) : Half :=
  match x.svc.upd with
  | some u =>
    let y : Half := { x with svc := { x.svc with upd := none } }
    match u.slot with
    | some k => if u.revert then y.failWaiting k { bad := true, st := stMalformed, off := 0x10 } else y.finishWaiting k stOk []
    | none => y
  | none => x

/-- RUN or DIM is requested: FORCED_DIM holds a half in DIM (R499). -/
def Half.goRunDim (x : Half) (st : PwrState) : Half :=
  let x := if x.pow.st = .doze then x.leaveDoze else x
  let y : Half := { x with pow := { x.pow with reqDim := decide (st = .dim), st := if x.pow.forcedDim then .dim else st } }
  y.applyClocks

/-- The half enters DOZE at a frame boundary: running engine commands end with ST_KILLED, the Quick lane ends, and the engines and
compute dies are switched off (R496); an engine in reset is switched off as well (R515). -/
def Half.enterDoze (x : Half) : Half :=
  let y := (x.endCmds (x.onEngines (fun _ _ => true)) stKilled).settle
  let live := fun (st : EngState) => st = .active || st = .quick || st = .resetting || st = .draining
  let y : Half := { y with
    sched := { y.sched with
      residents := [], quickOn := false
      engines := y.sched.engines.map (fun (e : Engine) =>
        if live e.st then { e with st := .off, back := .active, wantWarmup := false, warmRunning := false, warmForced := false
                                   warmDone := false, passedFrame := false, rerunNext := false } else e) }
    pow := { y.pow with st := .doze } }
  y.trimDomains.applyClocks

/-- PWR_STATE_REQUEST. One that comes while SEC_LIFECYCLE runs waits until that message completes (R491). -/
def execPwrStateRequest (h : HalfId) (slot : Nat) (s : State) : Host.Outcome State Fault Refusal :=
  if (s.half h).sec.pendLife.isSome then .next s
  else .next (s.runMsg h slot 0x0701 { lens := [8] }
    (fun x m =>
      let st := pay m 0 8
      let same := decide (pwrOf st = x.pow.st)
      [{ bad := msgCtx m ≠ 0, st := stMalformed, off := 0x0A }, { bad := 4 < st, st := stMalformed, off := 0x10 }, rsv m 1 0 24,
       { bad := st < 3 && pay m 4 32 ≠ 0, st := stMalformed, off := 0x14 },
       { bad := 2 ≤ st && st ≤ 4 && !same && (s.dev.mode ≠ .solo || (s.dev.chain = h && !x.cfg.suspended)), st := stUnsupported },
       busy100 (s.changing || s.substituting || x.mem.mapOut.isSome || x.powx.pend.isSome || x.powx.holdSlot.isSome)])
    (fun t m =>
      let x := t.half h
      let st := pwrOf (pay m 0 8)
      if st = x.pow.st && !(st = .dim && x.pow.forcedDim && !x.pow.reqDim) then .done t stOk []
      else match st with
        | .run | .dim => .done (t.mod h (fun y => y.goRunDim st)) stOk []
        | .doze => .wait (t.mod h (fun y => { y with powx := { y.powx with pend := some (.doze, slot) } }))
        | .hibernate | .off => .done (t.mod h (fun y =>
            let z := y.sleepSteps (some slot)
            { z with powx := { z.powx with
                holdSlot := some (slot, z.now + 5000000, st)
                wakeAt := if pay m 4 32 = 0 then none else some (z.ump.clock + pay m 4 32 * 980000) } })) stOk []))

/-- FORCED_DIM_RELEASE: the budget has exceeded the power by at least 20 % for 1 s (R505). -/
def execForcedDimRelease (h : HalfId) (s : State) : Host.Outcome State Fault Refusal :=
  .next (s.mod h (fun x =>
    if x.alive && x.pow.forcedDim && x.powx.goodSince.any (fun t => x.since t 1000000000) then
      let y : Half := { x with
        pow := { x.pow with forcedDim := false, st := if x.pow.reqDim || x.pow.st = .doze then x.pow.st else .run }
        powx := { x.powx with level := min x.powx.level 3, goodSince := none } }
      y.applyClocks
    else x))

/-! ### The cap (R501) -/

/-- PWR_CAP_SET: applied to both halves at the next frame boundary; refused while neither the Handoff link nor the management bus reaches a
running other half. -/
def execPwrCapSet (h : HalfId) (slot : Nat) (s : State) : Host.Outcome State Fault Refusal :=
  .next (s.runMsg h slot 0x0702 { lens := [2] }
    (fun x m => [{ bad := msgCtx m ≠ 0, st := stMalformed, off := 0x0A },
      { bad := pay m 0 16 < 60 || 480 < pay m 0 16, st := stLimit, off := 0x10 },
      busy100 (otherState x (s.half (other h)) = 7)])
    (fun t m => .wait { t with dev := { t.dev with pendCap := t.dev.pendCap ++ [(h, slot, pay m 0 16)] } }))

/-- The caps that wait take effect at the boundary, and their messages complete; one whose message was lost with its half does not. -/
def State.capBoundary (s : State) : State :=
  let set := fun (w : Nat) (x : Half) => if x.alive then { x with pow := { x.pow with cap := BitVec.ofNat 16 (10 * w) } } else x
  let waits := fun (p : HalfId × Nat × Nat) => ((s.half p.1).slot p.2.1).st = .acked && ((s.half p.1).slot p.2.1).started
  let t := (s.dev.pendCap.filter waits).foldl (fun (t : State) p =>
    ((t.mod .a (set p.2.2)).mod .b (set p.2.2)).mod p.1 (fun x => x.finishWaiting p.2.1 stOk [])) s
  { t with dev := { t.dev with pendCap := [] } }

/-! ### Thermal limits and the budget (R500, R502 to R505) -/

/-- P_J and P_M in 0.1 W from the latest readings (R503). -/
def Half.limits (x : Half) : Int × Int :=
  let t := x.powx.hist.headD (0, 0)
  let p : Int := x.pow.power.toNat
  (p + (1680 - t.1) * 625 / max 1 x.pow.thetaJ.toNat, p + (1440 - t.2) * 625 / max 1 x.pow.thetaM.toNat)

/-- A power held in the 16 bits of its field. -/
def power16 (p : Int) : BitVec 16 := BitVec.ofNat 16 (min 0xFFFF p.toNat)

/-- The half's share of the cap in 0.1 W (R500). -/
def State.share (s : State) (h : HalfId) : Nat :=
  let x := s.half h
  let cap := x.pow.cap.toNat
  if s.dev.mode = .solo then cap - (s.half (other h)).pow.power.toNat
  else if x.cfg.shareHalf = h then cap * x.cfg.share / 100 else cap - cap * x.cfg.share / 100

/-- How much the hottest hot spot and the hotter stack have risen over the last 200 ms. -/
def Half.rises (x : Half) : Int × Int :=
  match x.powx.hist with
  | [] => (0, 0)
  | t :: l => let o := l.getLastD t; (t.1 - o.1, t.2 - o.2)

/-- The next budget and the limiter that sets it (R500, R503, R504). -/
def Half.nextBudget (x : Half) (share : Nat) : Nat × Nat :=
  let (pj, pm) := x.limits
  let share := if x.powx.probe.any (fun t => x.now < t) then min x.pow.cap.toNat (share + 150) else share
  let (b, l) := if pj < share && pj ≤ pm then (pj.toNat, 2) else if pm < share then (pm.toNat, 3) else (share, 1)
  let (b, l) := if x.pow.budget.toNat + 100 < b && x.pow.limiter ≠ 0 then (x.pow.budget.toNat + 100, 4) else (b, l)
  let p := x.pow.power.toNat
  let (rj, rm) := x.rises
  let (b, l) := if 24 < rj || 96 < 10 * rm then (min b (p * 95 / 100), 4)
    else if 16 < rj || 64 < 10 * rm then (min b p, 4) else (b, l)
  if x.powx.pairs.any (·.hot) && p < b then (p, 5) else (b, l)

/-- One step of the clock-lowering order down when the power exceeds the budget by more than 2 %, and one back up when the budget exceeds
the power by 20 %; the fourth step is the forced DIM, which FORCED_DIM_RELEASE ends (R505; log 41). -/
def Half.regulate (x : Half) : Half :=
  let p := x.pow.power.toNat
  let b := x.pow.budget.toNat
  let good := 12 * p ≤ 10 * b
  let y : Half := { x with powx := { x.powx with goodSince := if good then some (x.powx.goodSince.getD x.now) else none } }
  if 102 * b < 100 * p then
    let n := min 6 (y.powx.level + 1)
    let z : Half := { y with powx := { y.powx with level := n } }
    if n = 4 && !z.pow.forcedDim then
      ({ z with pow := { z.pow with forcedDim := true, st := if z.pow.st = .run then .dim else z.pow.st } } : Half).thmEvent 7
    else z
  else if good && 0 < y.powx.level && !(y.powx.level = 4 && y.pow.forcedDim) then
    { y with powx := { y.powx with level := y.powx.level - 1 } }
  else y

/-- THERMAL_LIMIT_UPDATE: every 10 ms the limits and the budget are recomputed and the clocks follow (R503 to R505). -/
def execThermalLimitUpdate (h : HalfId) (s : State) : Host.Outcome State Fault Refusal :=
  let share := s.share h
  .next (s.mod h (fun x =>
    if !x.alive then x
    else
      let (pj, pm) := x.limits
      let (b, l) := x.nextBudget share
      let y : Half := { x with pow := { x.pow with
        thermal := power16 (min pj pm), budget := BitVec.ofNat 16 (min 0xFFFF b), limiter := BitVec.ofNat 4 l } }
      let y := if l = 2 then y.thmEvent 1 else if l = 3 then y.thmEvent 3 else y
      y.regulate.applyClocks))

/-- POWER_SAMPLE: the half's measured power (R500). -/
def execPowerSample (h : HalfId) (power : BitVec 16) (s : State) : Host.Outcome State Fault Refusal :=
  .next (s.mod h (fun x => if x.alive then { x with pow := { x.pow with power := power } } else x))

/-- A θ estimate: three quarters of the old one and a quarter of the new, limited to 0.05 to 1.00 °C/W (R502). -/
def thetaNext (old : Nat) (dT dP : Int) : Nat := (max 50 (min 1000 ((3 * (old : Int) + dT * 625 / dP) / 4))).toNat

/-- An estimate has moved by more than 20 % from its value 24 h earlier. -/
def moved (now old : Nat) : Bool := old < 5 * (max now old - min now old)

/-- THETA_ESTIMATE: the 1 s averages at the end of a 10 s interval: power in 0.1 W, hottest hot spot, hotter stack and coolant inlet in
1/16 °C (R502). -/
def execThetaEstimate (h : HalfId) (p tj tm tin : Int) (s : State) : Host.Outcome State Fault Refusal :=
  .next (s.mod h (fun x =>
    if !(x.alive && x.since x.powx.estAt 10000000000) then x
    else
      let y : Half := { x with powx := { x.powx with est := some (p, tj, tm, tin), estAt := x.now } }
      match x.powx.est with
      | none => y
      | some (p0, tj0, tm0, tin0) =>
        let dP := p - p0
        if dP.natAbs < 150 then y
        else
          let j := thetaNext x.pow.thetaJ.toNat ((tj - tj0) - (tin - tin0)) dP
          let m := thetaNext x.pow.thetaM.toNat ((tm - tm0) - (tin - tin0)) dP
          let day := 86400000000000
          let past := x.powx.thetaOld.filter (fun o => o.1 + day ≤ x.st)
          let keep := (past.getLast?.toList) ++ x.powx.thetaOld.filter (fun o => x.st < o.1 + day)
          let z : Half := { y with
            pow := { y.pow with thetaJ := BitVec.ofNat 16 j, thetaM := BitVec.ofNat 16 m, thetaTime := BitVec.ofNat 64 x.st }
            powx := { y.powx with lastEst := x.now, thetaOld := keep ++ [(x.st, j, m)] } }
          match past.getLast? with
          | some (_, oj, om) => if moved j oj || moved m om then z.thmEvent 8 else z
          | none => z))

/-- THETA_PROBE: no interval with a large enough change for 600 s: the budget is raised by 15 W for 10 s (R502). -/
def execThetaProbe (h : HalfId) (s : State) : Host.Outcome State Fault Refusal :=
  .next (s.mod h (fun x =>
    if x.alive && x.since x.powx.lastEst 600000000000 && x.powx.probe.all (fun t => x.since t 590000000000) then
      { x with powx := { x.powx with probe := some (x.now + 10000000000) } }
    else x))

/-! ### Sensors (R507 to R509) -/

/-- A reading outside −50 °C to +150 °C is invalid and shows as 0x8000. -/
def sensor (v : BitVec 16) : BitVec 16 := if -800 ≤ v.toInt && v.toInt ≤ 2400 then v else 0x8000

/-- The reading of a sensor, if it is valid. -/
def reading (v : BitVec 16) : Option Int := if v = 0x8000 then none else some v.toInt

/-- A time runs on while a condition holds. -/
def holding (now : Nat) (on : Bool) (old : Option Nat) : Option Nat := if on then some (old.getD now) else none

/-- One sample of a hot spot's two sensors (R507, R508). -/
def HotSpot.sample (k : HotSpot) (now : Nat) (a b : BitVec 16) : HotSpot :=
  let a := sensor a
  let b := sensor b
  let diff := match reading a, reading b with
    | some i, some j => decide (96 < (i - j).natAbs)
    | _, _ => false
  let bad := a = 0x8000 || b = 0x8000
  let since := holding now diff k.since
  let sinceBad := holding now bad k.sinceBad
  let faulty := k.faulty || since.any (fun t => t + 1000000000 < now) || sinceBad.any (fun t => t + 1000000000 < now)
  let used : Int := match reading a, reading b with
    | some i, some j => max i j
    | some i, none => if faulty then i + 96 else i
    | none, some j => if faulty then j + 96 else j
    | none, none => 1760
  let overdue := match reading a, reading b with
    | some i, some j => 1888 < i && 1888 < j
    | _, _ => false
  { a := a, b := b, used := BitVec.ofInt 16 used, faulty := faulty, hot := decide (1760 ≤ used), since := since, sinceBad := sinceBad
    over118 := holding now overdue k.over118, slow := decide (1760 ≤ used) || (k.slow && decide (1680 ≤ used)) }

/-- One sample of a stack's sensor (R508, R509). -/
def StackT.sample (k : StackT) (now : Nat) (t : BitVec 16) : StackT :=
  { temp := t, refresh := if 1360 ≤ t.toInt then 1 else 0, over100 := holding now (decide (1600 < t.toInt)) k.over100
    halved := decide (1520 ≤ t.toInt) }

/-- The greatest of a list of temperatures. -/
def hottest (l : List Int) : Int := l.foldl max (l.headD 0)

/-- TEMPERATURE_SAMPLE: the sensors' readings of the 1 ms, in 1/16 °C (R507 to R509); a hot spot or stack without an operand keeps its
last reading. -/
def execTemperatureSample (h : HalfId) (pairs : List (BitVec 16 × BitVec 16)) (stks : List (BitVec 16)) (s : State) :
    Host.Outcome State Fault Refusal :=
  .next (s.mod h (fun x =>
    if !x.alive then x
    else
      let ps := x.powx.pairs.zipIdx.map (fun (p : HotSpot × Nat) => match pairs[p.2]? with
        | some r => p.1.sample x.now r.1 r.2
        | none => p.1.sample x.now p.1.a p.1.b)
      let ks := x.powx.stks.zipIdx.map (fun (p : StackT × Nat) => p.1.sample x.now (stks[p.2]?.getD p.1.temp))
      let top := (hottest (ps.map (fun p => p.used.toInt)), hottest (ks.map (fun k => k.temp.toInt)))
      let faults : BitVec 32 := ps.zipIdx.foldl (fun (m : BitVec 32) p => if p.1.faulty then setBit m p.2 else m) 0
      let newFault := faults ≠ x.pow.pairFaulty
      let y : Half := { x with
        powx := { x.powx with pairs := ps, stks := ks, hist := (top :: x.powx.hist).take 201 }
        pow := { x.pow with pairFaulty := faults } }
      let on := fun (c : Bool) (i : Nat) (z : Half) => if c then z.thmEvent i else z
      let z := on newFault 0 (on (decide (1680 ≤ top.1)) 1 (on (ps.any (·.hot)) 2 (on (decide (1440 ≤ top.2)) 3
        (on (ks.any (·.halved)) 4 y))))
      z.applyClocks))

/-! ### Coolant (R503, R510) -/

/-- A coolant inlet temperature is reported: a rise lowers both limits at once. -/
def Half.coolantReport (x : Half) (v : BitVec 16) : Half :=
  let (pj, pm) := x.limits
  let d := v.toInt - x.pow.coolant.toInt
  let y : Half := { x with
    pow := { x.pow with coolant := v, age := 0 }, powx := { x.powx with lastCoolant := x.now } }
  let y := if 0 < d then
      let qj := pj - d * 625 / max 1 x.pow.thetaJ.toNat
      let qm := pm - d * 625 / max 1 x.pow.thetaM.toNat
      let lim := power16 (min qj qm)
      let z : Half := { y with pow := { y.pow with thermal := lim } }
      if y.pow.budget ≤ lim then z
      else
        let w : Half := { z with pow := { z.pow with budget := lim, limiter := if qj ≤ qm then 2 else 3 } }
        w.thmEvent (if qj ≤ qm then 1 else 3)
    else y
  if v.toInt < -640 || 1040 < v.toInt then y.thmEvent 6 else y

/-- THM_COOLANT_REPORT: applied to both halves (R510); the value reaches the other one over the Handoff link, since no rule names the
management bus for it (spec/01_two_halves.md R17; log 85). -/
def execThmCoolantReport (h : HalfId) (slot : Nat) (s : State) : Host.Outcome State Fault Refusal :=
  let up := fun (m : Msg) (x : Half) => if x.alive then x.coolantReport (BitVec.ofNat 16 (pay m 0 16)) else x
  .next (s.runMsg h slot 0x0703 { lens := [2] } (fun _ m => [{ bad := msgCtx m ≠ 0, st := stMalformed, off := 0x0A }])
    (fun t m =>
      let u := t.mod h (up m)
      .done (if (t.half h).handoffStands then u.mod (other h) (up m) else u) stOk []))

/-- COOLANT_REPORT_TIMEOUT: no report for 3 s: event 5, and T_IN is +65 °C until the next report (R510). -/
def execCoolantReportTimeout (h : HalfId) (s : State) : Host.Outcome State Fault Refusal :=
  .next (s.mod h (fun x =>
    if x.alive && x.since x.powx.lastCoolant 3000000000 then
      ({ x with pow := { x.pow with coolant := 0x410 } } : Half).thmEvent 5
    else x))

/-! ### Domains (R493, R494) -/

/-- An engine comes up on the active microcode at full clock; one that was off is ACTIVE and runs the warm-up (R496, Table — Boot
chain). -/
def Half.powerEngine (x : Half) (n : Nat) : Half :=
  let b := decide (0x05 ∈ x.svc.ranB)
  let fresh := fun (e : Engine) => { e with slotB := b, microcode := BitVec.ofNat 32 (imgVersion (x.runningImage 0x05)), clockMhz := 800 }
  x.modEngine n (fun e =>
    if e.st = .off then { (fresh e) with st := .active, back := .active, wantWarmup := true }
    else if e.clockMhz = 0 then fresh e else e)

/-- DOMAIN_POWER_GOOD: a domain that the half's power state wants has reported power-good (R494). -/
def execDomainPowerGood (h : HalfId) (d : Nat) (s : State) : Host.Outcome State Fault Refusal :=
  .next (s.mod h (fun x =>
    if !(x.powx.booted && !x.umpx.safe && !x.powx.inReset && d < 56 && x.wantDomain d && !(x.pow.domains.getLsbD d)) then x
    else
      let y : Half := { x with pow := { x.pow with domains := setBit x.pow.domains d } }
      if 1 ≤ d && d ≤ 18 then (y.powerEngine (d - 1)).applyClocks else y))

/-! ### Subsystem resets (R512, R513) -/

/-- The commands in flight that run on a subsystem. -/
def Half.onSubsystem (x : Half) (code : Nat) : List Nat :=
  let units := if code = 6 then [6] else if code = 7 then [7] else if code = 8 || code = 9 then [3, 4]
    else if code = 10 then [8] else if code = 11 then [5] else []
  (x.sched.cmds.filter (fun c => units.contains (dUnit c.desc) && c.st ≠ .waiting)).map (·.id)

/-- A subsystem is reset: its commands end with ST_KILLED, and the resources that live in it are released (Table — Retention). -/
def Half.subsystemReset (x : Half) (code : Nat) : Half :=
  let y := (x.endCmds (x.onSubsystem code) stKilled).settle
  let y : Half := { y with powx := { y.powx with subReset := if y.powx.subReset.contains code then y.powx.subReset else y.powx.subReset ++ [code] } }
  if code < 4 then { y with cores := { y.cores with app := y.cores.app.zipIdx.map (fun (p : AppCore × Nat) => if p.2 / 4 = code then {} else p.1) } }
  else if code < 6 then y.modPair (code - 4) (fun r => { fw := r.fw })
  else if code = 6 then { y with sched := { y.sched with fusion := none } }
  else if code = 7 then { y with sched := { y.sched with plan := none } }
  else if code < 10 then { y with sched := { y.sched with pools := [], hot := {} } }
  else if code = 10 then { y with mem := { y.mem with windows := [] } }
  else if code = 11 then
    let z := y.killBatches
    let z := if z.sched.pipe.swdec.isSome then z.detachSw else z
    z.modPipe (fun p => { p with bindings := [] })
  else if code = 13 then
    (List.range 256).foldl (fun (z : Half) n => if (z.partner n).kind = 5 then z.ptnAbsent n else z) y
  else y

/-- The restart of a half's subsystem reset in the device: a fusion or planning session of a CHAIN context on the chain-carrying half
makes the current frame untrusted (R513). A port's link restarts and retrains (R515). -/
def State.subsystemReset (s : State) (h : HalfId) (code : Nat) : State :=
  let x := s.half h
  let chain := (code = 6 && x.sched.fusion.any (fun f => x.chainCtx f.ctx)) || (code = 7 && x.sched.plan.any (fun p => x.chainCtx p.ctx))
  let t := s.mod h (fun y => y.subsystemReset code)
  let t := if code = 14 then t.mod h Half.tetherGone else t
  if chain && s.dev.chain = h && !s.dev.evacuated then (t.untrustedFrame h x.frame).setRoles else t

/-- The subsystem of a command's unit, if a subsystem reset is its remedy (R512); which controller's gather and page logic hangs is not
given and is free (log 10). -/
def Half.subsystemOf (x : Half) (c : Cmd) : Option Nat :=
  let u := dUnit c.desc
  if u = 6 then some 6 else if u = 7 then some 7 else if u = 8 then some 10 else if u = 5 then some 11
  else if u = 3 || u = 4 then some (8 + Config.freeNat x.seed 1 % 2) else none

/-- UNIT_WATCHDOG_EXPIRY: a unit that writes no record within twice its command's budget plus 10 ms is reset (R512). -/
def execUnitWatchdogExpiry (h : HalfId) (cmd : Nat) (s : State) : Host.Outcome State Fault Refusal :=
  let x := s.half h
  match x.cmd cmd with
  | some c =>
    if x.captainRuns && c.st ≠ .waiting && x.since c.started (2 * budgetUs c * 1000 + 10000000) then
      match x.subsystemOf c with
      | some code => .next ((s.mod h Half.took).subsystemReset h code)
      | none => .next s
    else .next s
  | none => .next s

/-- A real-time pair restarts on its firmware (R373, spec/21_configuration_and_update.md R534); the former loop pair's restart
completes the activation. -/
def Half.pairRestart (x : Half) (p : Nat) : Half :=
  let y := x.modPair p (fun r => { r with running := true })
  match y.svc.updPair with
  | some u =>
    if u.next = 2 && p ≠ y.cores.loopPair then
      let z : Half := { y with svc := { y.svc with updPair := none } }
      match u.slot with
      | some k => z.finishWaiting k stOk []
      | none => z
    else y
  | none => y

/-- SUBSYSTEM_RESET_COMPLETE (R512, R513). -/
def execSubsystemResetComplete (h : HalfId) (code : Nat) (s : State) : Host.Outcome State Fault Refusal :=
  let x := s.half h
  if !(x.alive && x.powx.subReset.contains code) then .next s
  else
    let t := s.mod h (fun y => { y with powx := { y.powx with subReset := y.powx.subReset.filter (fun k => k ≠ code) } })
    if code = 4 || code = 5 then .next (t.mod h (fun y => y.pairRestart (code - 4)))
    else .next (t.mod h Half.settle)

/-! ### Resets of halves and of the device (R512, spec/22_package_and_electrical.md R544 to R549) -/

/-- HALF_RESET_ASSERT: RST low for 1 µs or longer (R549). -/
def execHalfResetAssert (h : HalfId) (s : State) : Host.Outcome State Fault Refusal :=
  if s.dev.pwrOk && !(s.half h).powx.inReset then
    let t := s.resetHalf h
    .next (t.mod h (fun x => { x with powx := { x.powx with inReset := true } })).setRoles
  else .next s

/-- HALF_RESET_RELEASE: the half boots from step 1 at the rising edge (R549). -/
def execHalfResetRelease (h : HalfId) (lifeOk umpOk : Bool) (s : State) : Host.Outcome State Fault Refusal :=
  if s.dev.pwrOk && (s.half h).powx.inReset then
    let t := s.mod h (fun x => { x with powx := { x.powx with inReset := false } })
    .next (t.bootHalf h lifeOk umpOk).setRoles
  else .next s

/-- Device power-on of one half: Table — Boot chain, unless its reset pin is low. -/
def State.powerOnHalf (s : State) (h : HalfId) (lifeOk umpOk : Bool) : State :=
  if (s.half h).powx.inReset then s.mod h (fun x => { x.powerReset with powx := { x.powerReset.powx with inReset := true } })
  else (s.mod h (fun x => x.powerReset.bootChain s.dev.serial lifeOk umpOk none)).trainHandoff h

/-- DEVICE_POWER_ON: PWR_OK rises and each half boots (R544, R546). -/
def execDevicePowerOn (lifeA umpA lifeB umpB : Bool) (s : State) : Host.Outcome State Fault Refusal :=
  if s.dev.pwrOk then .next s
  else
    let t : State := { s with dev := { serial := partSerial, pwrOk := true } }
    .next (((t.powerOnHalf .a lifeA umpA).powerOnHalf .b lifeB umpB).setRoles)

/-- PWR_OK_FALL: PWR_OK low for more than 10 µs stops both halves at once (R546). -/
def execPwrOkFall (s : State) : Host.Outcome State Fault Refusal :=
  if s.dev.pwrOk then
    let stop := fun (x : Half) => { x.powerReset with powx := { x.powerReset.powx with inReset := x.powx.inReset } }
    .next (((({ s with dev := { serial := s.dev.serial, pwrOk := false } } : State).mod .a stop).mod .b stop).setRoles)
  else .next s

end Sys2Proof.Machine
end

