-- ==== Sys2Proof/Machine/Service.lean ====
section
/-! DEFINITION. Configuration overlays, staged images, activation of image slots and evacuation over the Tether
(spec/21_configuration_and_update.md R516 to R534, spec/17_partners.md R435, R436). -/

namespace Sys2Proof.Config

open Sys2Proof.Machine

/-- The frame checkpoint that an evacuation brings over the Tether, whose contents come from the other board
(spec/17_partners.md R435). -/
opaque evacCheckpoint : (seed : Nat) → Checkpoint

end Sys2Proof.Config

namespace Sys2Proof.Machine

/-! ### Transfer of an image (R519, R520, R529) -/

/-- TOTAL of a chunked image of a LENGTH (R520). -/
def imgChunks (len : Nat) : Nat := cdiv (0x1000 + len) 40

/-- The checks of the long form of a transfer: IN_LEN against the header's LENGTH, and OUT_LEN zero (R519, R529). -/
def longImage (x : Half) (m : Msg) : List Chk :=
  if msgLong m then
    [{ bad := inLen m ≠ 0x1000 + imgLen (x.vread (msgCtx m) (inAddr m) 0x20), st := stMalformed, off := 0x18 },
     { bad := outLen m ≠ 0, st := stMalformed, off := 0x1C }]
  else []

/-- A message of a transfer runs: the long form at once, a chunk against the transfer stage (R520). -/
def State.runImage (t : State) (h : HalfId) (slot op : Nat) (m : Msg) (run : State → List Byte → Reply) : Reply :=
  let x := t.half h
  let stage := fun (k : Option Stage) => t.mod h (fun y => { y with svc := { y.svc with stage := k } })
  let bad := fun (k : Option Stage) => Reply.fail (stage k) { bad := true, st := stMalformed, off := 0x10 }
  if msgLong m then run t (x.vread (msgCtx m) (inAddr m) (inLen m))
  else
    let i := pay m 0 32
    let total := pay m 4 32
    match takeChunk x.svc.stage slot op i total 0 x.now (chunkData m) with
    | .busy => .fail t { bad := true, st := stBusy, retry := some 1000000 }
    | .bad k => bad k
    | .more k => if 0 < i && total ≠ imgChunks (imgLen k.data) then bad none else .done (stage (some k)) stOk []
    | .whole d =>
      let n := 0x1000 + imgLen d
      if total ≠ imgChunks (imgLen d) || !((d.drop n).all (· = 0)) then bad none else (run (stage none) (d.take n)).keepStage t

/-- TRANSFER_STAGE_IDLE_TIMEOUT: a transfer idle for 10 s is emptied (R520). -/
def execTransferStageIdleTimeout (h : HalfId) (s : State) : Host.Outcome State Fault Refusal :=
  .next (s.mod h (fun x =>
    if x.svc.stage.any (fun k => x.since k.used 10000000000) then { x with svc := { x.svc with stage := none } } else x))

/-! ### The checks of an overlay (R521) -/

/-- The fields of an overlay payload header are well formed (R517). -/
def ovlHeaderOk (p : List Byte) : Bool :=
  let slot := ovlSlot p
  0x40 ≤ p.length && bytesAt p 0 2 = 1 && slot ≤ 7 && bytesAt p 5 1 = 0 && ((p.drop 0x10).take 0x30).all (· = 0) &&
    (if slot = 0 then bytesAt p 3 1 ≤ 5 && bytesAt p 4 1 = 0 else bytesAt p 3 1 = 0 && bytesAt p 4 1 < 64)

/-- The stored overlays with one slot replaced. -/
def withOvl (l : List Ovl) (slot : Nat) (image : Option (List Byte)) (frame : Nat) : List Ovl :=
  l.filter (fun o => o.slot ≠ slot) ++ (match image with
    | some i => [{ slot := slot, image := i, frame := frame }]
    | none => [])

/-- The stored overlays with every held overlay and removal in place. -/
def Half.withHeld (x : Half) : List Ovl :=
  x.svc.held.foldl (fun (l : List Ovl) (e : Held) => withOvl l e.slot e.image 0) x.svc.overlays

/-- The violation parameters only lower a THRESHOLD or raise a HOLD_MS; a THRESHOLD of 0 disables quarantine, so it is no lowering
(R518, spec/17_partners.md R426). -/
def violNarrows (old new : List (Nat × Nat × Nat × Nat)) : Bool :=
  new.all (fun n => old.any (fun o => o.1 = n.1 && n.2.2.1 = o.2.2.1 && o.2.2.2 ≤ n.2.2.2 &&
    (n.2.1 = o.2.1 || (n.2.1 ≠ 0 && (o.2.1 = 0 || n.2.1 ≤ o.2.1)))))

/-- A record holds a value that its key does not allow (R518, R521): unknown, out of range, a band that would widen, or a violation
parameter that would loosen. -/
def Half.badRecord (x : Half) (base : List Byte) (others : List Ovl) (r : Nat × List Byte) : Bool :=
  let c := (composeCfg base others).2
  !(Config.itemKnown r.1) || !(Config.itemInRange r.1 r.2) || (r.1 / 256 = 6 && c.widens (Config.cfgbItem r.1 r.2 c)) ||
    (r.1 / 256 = 8 && !(violNarrows x.cfgb.viol (Config.cfgbItem r.1 r.2 x.cfgb).viol))

/-- The composition breaks a bound on a count or a sum: a third gPTP port or the guarantee bound (R521, spec/13 R357, spec/16 R408). -/
def Half.overLimit (x : Half) (c : Cfg × CfgB) : Bool :=
  let q := c.1.qos
  let at' := fun (o dflt : Nat) => ((q.find? (fun r => r.1 = o)).map (fun r => fld r.2 0 32)).getD dflt
  let sum := ((List.range 8).map (fun k => at' (0x100 + k * 0x20) 0)).sum
  2 < c.2.ptpPorts.length || x.guarBound (at' 8 0xA % 65536) < sum

/-- The checks that a half's Captain makes of an overlay image, but for those of R521 that concern what is held and the other half. -/
def Half.ovlImageChecks (x : Half) (serial : BitVec 64) (i : List Byte) : List Chk :=
  let p := imgPayload i
  let base := x.runningImage 0x10
  let others := x.withHeld.filter (fun o => o.slot ≠ ovlSlot p)
  let recs := (ovlRecords p).getD []
  let mal := fun (c : Bool) => { bad := c, st := stMalformed, off := 0x10 : Chk }
  x.imageChecks serial 0x11 0x10000 i ++
    [mal (!ovlHeaderOk p), mal (ovlRecords p).isNone, mal (recs.any (x.badRecord base others)),
     { bad := recs.any (fun r => r.1 = 0x0500 || r.1 / 256 = 9), st := stUnsupported },
     { bad := !x.baseFits i, st := stUnsupported },
     { bad := x.overLimit (composeCfg base (withOvl others (ovlSlot p) (some i) 0)), st := stLimit, off := 0x10 }]

/-- The device runs both halves together. -/
def State.paired (s : State) : Bool := s.dev.mode ≠ .solo

/-- The checks of what a submission adds to what is held (R521): an entry held for the slot, and another half that cannot be
reached. -/
def State.heldChecks (s : State) (h : HalfId) (slot : Nat) : List Chk :=
  let o := s.half (other h)
  [{ bad := (s.half h).svc.held.any (fun e => e.slot = slot), st := stBusy, retry := some 1000000 },
   busy100 (s.paired && !(o.alive && (s.half h).handoffStands))]

/-- The base ranges of an overlay exclude the other running half's base image (R521). -/
def State.otherBase (s : State) (h : HalfId) (i : List Byte) : Chk :=
  let o := s.half (other h)
  { bad := s.paired && o.alive && !o.baseFits i, st := stUnsupported }

/-- An overlay or a removal is held for a boundary, from the doorbell of its message on (R522). -/
def Half.hold (x : Half) (slot : Nat) (image : Option (List Byte)) (msg : Option Nat) : Half :=
  { x with svc := { x.svc with held := x.svc.held ++
      [{ slot := slot, image := image, msg := msg, since := (msg.map (fun k => (x.slot k).rung)).getD x.now }] } }

/-- OVL_SUBMIT (R519 to R522). -/
def execOvlSubmit (h : HalfId) (slot : Nat) (s : State) : Host.Outcome State Fault Refusal :=
  .next (s.runMsg h slot 0x0301 { lens := [0x30, 2], long := true }
    (fun x m =>
      if msgLong m then longImage x m
      else if msgLen m = 2 then
        [{ bad := pay m 0 8 ≠ 1, st := stMalformed, off := 0x10 }, { bad := 7 < pay m 1 8, st := stMalformed, off := 0x11 }] ++
          s.heldChecks h (pay m 1 8)
      else [])
    (fun t m =>
      if !msgLong m && msgLen m = 2 then .wait (t.mod h (fun x => x.hold (pay m 1 8) none (some slot)))
      else t.runImage h slot 0x0301 m (fun u i =>
        let n := ovlSlot (imgPayload i)
        match worst ((u.half h).ovlImageChecks u.dev.serial i ++ [u.otherBase h i] ++ u.heldChecks h n) with
        | some c => .fail u c
        | none => .wait (u.mod h (fun x => x.hold n (some i) (some slot))))))

/-! ### Confirmation by the other half (R522) -/

/-- The other Captain rejects an entry that the half holds: its message completes with that Captain's status. -/
def Half.dropHeld (x : Half) (e : Held) (c : Chk) : Half :=
  let y : Half := { x with svc := { x.svc with held := x.svc.held.filter (fun k => k.slot ≠ e.slot) } }
  match e.msg with
  | some k => y.failWaiting k c
  | none => y

/-- OVERLAY_CONFIRM_RECEIVE: the other half's Captain has checked the first entry that awaits it and confirms or rejects it; a removal
is confirmed. -/
def execOverlayConfirmReceive (h : HalfId) (s : State) : Host.Outcome State Fault Refusal :=
  let x := s.half h
  let o := s.half (other h)
  if !(s.paired && x.alive && o.alive && x.handoffUp) then .next s
  else match x.svc.held.find? (fun e => e.confirmed.isNone) with
    | none => .next s
    | some e =>
      let own : Chk := { bad := o.svc.held.any (fun k => k.slot = e.slot), st := stBusy, retry := some 1000000 }
      let checks := match e.image with
        | some i => o.ovlImageChecks s.dev.serial i ++ [own]
        | none => [own]
      match worst checks with
      | some c => .next (s.mod h (fun y => y.dropHeld e c))
      | none => .next (s.mod h (fun y => { y with svc := { y.svc with held := y.svc.held.map (fun (k : Held) =>
          if k.slot = e.slot then { k with confirmed := some y.now } else k) } }))

/-! ### Holds and OVL_STATUS (R524, R527) -/

/-- The hold of R524 that applies, as HOLD_REASON codes it: 0 none, 1 a fault-driven change, 2 waiting one full frame, 3 SOLO after a
fault or link loss, 4 a takeover, substitution or replay. -/
def State.holdReason (s : State) : Nat :=
  if s.dev.change.any (fun c => c.kind ≠ .request) then 1
  else if s.dev.soloFault then (if s.dev.mode = .solo then 3 else 2)
  else if s.chainMoving then 4 else 0

/-- The other half has still to confirm an entry. -/
def State.awaits (s : State) (e : Held) : Bool := s.paired && e.confirmed.isNone

/-- The frame rate that a half would have with an entry in place. -/
def Half.rateWith (x : Half) (e : Held) : Nat :=
  (composeCfg (x.runningImage 0x10) (withOvl x.svc.overlays e.slot e.image 0)).1.frameRate

/-- HOLD_REASON (R527). -/
def State.holdCode (s : State) (x : Half) : Nat :=
  if x.svc.held = [] then 0
  else if s.holdReason ≠ 0 then s.holdReason
  else if x.svc.held.any s.awaits then 5
  else if x.svc.held.any (fun e => x.rateWith e ≠ x.cfg.frameRate) then 6
  else 0

/-- The mask of the slots of a list. -/
def slotMask (l : List Nat) : Nat := ((List.range 8).filter (fun i => l.contains i)).foldl (fun a i => a + 2 ^ i) 0

/-- Table — OVL_STATUS payload. -/
def ovlFields (s : State) (x : Half) (slot : Nat) : List (Nat × Nat × Nat) :=
  let act := x.activeOverlays.map (·.slot)
  let stored := (x.svc.overlays.map (·.slot)).filter (fun i => !act.contains i)
  let o := x.svc.overlays.find? (fun o => o.slot = slot)
  let held := x.svc.held.find? (fun e => e.slot = slot)
  let heldVer := match held with
    | some e => (e.image.map imgVersion).getD 0xFFFFFFFF
    | none => 0
  [(0x00, 8, slotMask act), (0x01, 8, slotMask (x.svc.held.map (·.slot))), (0x02, 8, slotMask stored), (0x03, 8, x.cfg.mode),
   (0x04, 8, s.holdCode x), (0x08, 64, x.svc.lastApplied), (0x10, 32, (o.map (fun o => imgVersion o.image)).getD 0),
   (0x14, 32, (o.map (fun o => imgSecVersion o.image)).getD 0), (0x18, 32, heldVer), (0x20, 64, (o.map (·.frame)).getD 0)]

/-- OVL_STATUS (R527). -/
def execOvlStatus (h : HalfId) (slot : Nat) (s : State) : Host.Outcome State Fault Refusal :=
  .next (s.runMsg h slot 0x0302 { lens := [1] }
    (fun _ m => [{ bad := 7 < pay m 0 8, st := stMalformed, off := 0x10 }])
    (fun t m => .done t stOk (ovlFields t (t.half h) (pay m 0 8))))

/-! ### Firmware slots (R528 to R530) -/

/-- An activation of the kind is running (R529). -/
def Half.activating (x : Half) (kind : Nat) : Bool := (kind = 5 && x.svc.upd.isSome) || (kind = 4 && x.svc.updPair.isSome)

/-- Writes an image into the inactive slot of its kind; the slot is marked invalid when the image fails verification (R529). -/
def Half.writeSlot (x : Half) (kind : Nat) (i : List Byte) (valid : Bool) : Half :=
  let b := !decide (kind ∈ x.svc.selB)
  let put := fun (l : List (Nat × List Byte)) => (kind, i) :: l.filter (fun p => p.1 ≠ kind)
  let rest := x.svc.invalid.filter (fun p => p ≠ (kind, b))
  { x with svc := { x.svc with
      flashA := if b then x.svc.flashA else put x.svc.flashA
      flashB := if b then put x.svc.flashB else x.svc.flashB
      invalid := if valid then rest else (kind, b) :: rest } }

/-- UPD_STAGE (R529, R537): an image that no slot takes now is not written; one that is written and fails verification leaves its slot
invalid. Of all that is wrong the status of R9 is reported. -/
def execUpdStage (h : HalfId) (slot : Nat) (s : State) : Host.Outcome State Fault Refusal :=
  .next (s.runMsg h slot 0x0401 { lens := [0x30], long := true, maxIn := 0x1000 + 0x10000000 } longImage
    (fun t m => t.runImage h slot 0x0401 m (fun u i =>
      let x := u.half h
      let kind := imgKind i
      let first : List Chk := [{ bad := kind = 0x11, st := stUnsupported },
        { bad := kind ≠ 0x11 && !(slotKinds.contains kind), st := stMalformed, off := 0x10 },
        busy100 (u.changing || u.substituting),
        { bad := x.activating kind, st := stBusy, retry := some 1000000 }]
      let write := fun (ok : Bool) => u.mod h (fun y => y.writeSlot kind i ok)
      match worst (first ++ x.imageChecks u.dev.serial kind 0x10000000 i) with
      | some c => .fail (if (worst first).isSome then u else write false) c
      | none => .done (write true) stOk [])))

/-- The kinds that take effect only when a half held for update boots (Table — Activation by kind). -/
def heldKinds : List Nat := [0x01, 0x02, 0x03, 0x06, 0x07, 0x10]

/-- The other slot of a kind is recorded as the active one (R530). -/
def Half.toggleSlot (x : Half) (kind : Nat) : Half :=
  { x with svc := { x.svc with
      selB := if kind ∈ x.svc.selB then x.svc.selB.filter (fun k => k ≠ kind) else kind :: x.svc.selB } }

/-- UPD_ACTIVATE (R530, R532, R534, R537). -/
def execUpdActivate (h : HalfId) (slot : Nat) (s : State) : Host.Outcome State Fault Refusal :=
  .next (s.runMsg h slot 0x0402 { lens := [2] }
    (fun x m =>
      let kind := pay m 0 16
      [{ bad := !(slotKinds.contains kind), st := stMalformed, off := 0x10 },
       { bad := (x.goodSlot s.dev.serial kind (!decide (kind ∈ x.svc.selB))).isNone, st := stMalformed, off := 0x10 },
       busy100 (s.changing || s.substituting),
       { bad := x.activating kind || (heldKinds.contains kind && !x.powx.held), st := stBusy, retry := some 1000000 }])
    (fun t m =>
      let kind := pay m 0 16
      let x := t.half h
      if kind = 4 then
        .wait (t.mod h (fun y =>
          let z := (y.switchSlot 4).waitBoundary slot true
          { z with svc := { z.svc with updPair := some { kind := 4, slot := some slot } } }))
      else if kind = 5 then
        if x.pow.st = .doze then .done (t.mod h (fun y => y.switchSlot 5)) stOk []
        else .wait (t.mod h (fun y =>
          let z := (y.switchSlot 5).waitBoundary slot true
          { z with svc := { z.svc with upd := some { kind := 5, slot := some slot } } }))
      else .done (t.mod h (fun y => y.toggleSlot kind)) stOk []))

/-! ### Evacuation (spec/17_partners.md R435, R436) -/

/-- The region records of an evacuation's input buffer: context, far window, address, length. -/
def evacRegions (b : List Byte) : List (Nat × Nat × Nat × Nat) :=
  (List.range (bytesAt b 2 2)).map (fun i =>
    let o := 64 + 32 * i
    (bytesAt b o 2, bytesAt b (o + 2) 1, bytesAt b (o + 8) 8, bytesAt b (o + 0x10) 8))

/-- The input buffer of an evacuation is well formed: reserved fields zero and every region mapped. -/
def Half.evacOk (x : Half) (b : List Byte) : Bool :=
  bytesAt b 0 2 < 4 && ((b.drop 4).take 60).all (· = 0) &&
    (List.range (bytesAt b 2 2)).all (fun i =>
      let o := 64 + 32 * i
      bytesAt b o 2 < 4096 && ((b.drop (o + 3)).take 5).all (· = 0) && ((b.drop (o + 0x18)).take 8).all (· = 0)) &&
    (evacRegions b).all (fun r => x.mapped r.1 r.2.2.1 r.2.2.2)

/-- The conditions of step 1 of Table — Evacuation: the peer admitted and a receiver, no mode change, and with CHAIN both clocks
SYNCED to one grandmaster. -/
def State.evacReady (s : State) (h : HalfId) (chain receiver : Bool) (gm : Option (BitVec 64)) : Bool :=
  let x := s.half h
  x.ptn.admitted && (x.link tetherLink).works && receiver && !s.changing && s.dev.evac.isNone &&
    (!chain || (x.tim.st = .synced && gm = some x.tim.gm))

/-- The status with which EVACUATE reports a copy of a region that failed: the copy's own, where a mailbox carries it or R436 names
it; for an uncorrectable error, whose status only completion records carry, a free one of the failures that a mailbox carries (R8
of spec/00_scope.md; log 89). -/
def evacStatus (seed st : Nat) : Nat :=
  if st ∈ [stDiscarded, stMalformed, stDenied, stBusy] then st
  else ([stMalformed, stTimeout, stDenied, stBusy, stUnsupported][Config.freeNat seed 8 % 5]?).getD stBusy

/-- EVACUATE: `receiver` says that the peer's configuration marks it as evacuation receiver, `gm` the grandmaster to which its clock is
SYNCED, and `copied` the first status other than ST_OK with which it answers the copies of the regions, 0 when there is none. -/
def execEvacuate (h : HalfId) (slot : Nat) (receiver : Bool) (gm : Option (BitVec 64)) (copied : Nat) (s : State) :
    Host.Outcome State Fault Refusal :=
  .next (s.runMsg h slot 0x0405 { lens := [], long := true }
    (fun x m =>
      let b := x.vread (msgCtx m) (inAddr m) (inLen m)
      let n := bytesAt b 2 2
      let chain := bytesAt b 0 1 % 2 = 1
      [{ bad := 256 < n || inLen m ≠ 64 + 32 * n, st := stMalformed, off := 0x18 },
       { bad := outLen m ≠ 0, st := stMalformed, off := 0x1C },
       { bad := inLen m = 64 + 32 * n && !x.evacOk b, st := stMalformed, off := 0x10 },
       { bad := chain && (s.dev.chain ≠ h || s.dev.evacuated), st := stMalformed, off := 0x10 },
       { bad := !(s.evacReady h chain receiver gm), st := stBusy, retry := some 1000000 }])
    (fun t m =>
      let x := t.half h
      let b := x.vread (msgCtx m) (inAddr m) (inLen m)
      let lost := (evacRegions b).any (fun r => (x.firstBad r.1 [(r.2.2.1, r.2.2.2)]).isSome)
      let u := t.mod h (fun y => y.announce 78)
      let bad := fun (st : Nat) => .fail (u.mod h Half.took) { bad := true, st := evacStatus x.seed st }
      if lost then bad stDataLost
      else if copied ≠ stOk then bad copied
      else if bytesAt b 0 1 % 2 = 1 then
        .wait { u with dev := { u.dev with evac := some { half := h, slot := slot, chain := true, seen := (x.ump.checkpoints.head?).map (·.frame) } } }
      else .done u stOk []))

/-- The checkpoint of the frame in progress has been sent since the evacuation began (Table — Evacuation, step 4). -/
def Half.evacSent (x : Half) (e : Evac) : Bool :=
  (x.ump.checkpoints.head?).any (fun c => c.frame = x.frame && e.seen ≠ some c.frame)

/-- EVACUATE_ACCEPT_RECEIVE: an ACCEPT of this frame's checkpoint at least 1 ms before the boundary is answered with COMMIT (Table —
Evacuation, step 5); the message then waits for the boundary (spec/02_captain_and_mailboxes.md R44). -/
def execEvacuateAcceptReceive (h : HalfId) (s : State) : Host.Outcome State Fault Refusal :=
  let x := s.half h
  match s.dev.evac with
  | some e =>
    if e.half = h && x.alive && x.ptn.admitted && e.step = 4 && x.evacSent e && x.st + 1000000 ≤ x.boundaryNs (x.frame + 1) then
      .next (({ s with dev := { s.dev with evac := some { e with step := 6 } } } : State).mod h (fun y => y.waitBoundary e.slot true))
    else .next s
  | none => .next s

/-- An overlay that comes with an evacuation is held under the half's own rules (R435 step 3, R521). -/
def State.evacOverlay (s : State) (h : HalfId) (i : List Byte) : State :=
  let n := ovlSlot (imgPayload i)
  match worst ((s.half h).ovlImageChecks s.dev.serial i ++ [s.otherBase h i] ++ s.heldChecks h n) with
  | some _ => s
  | none => s.mod h (fun x => x.hold n (some i) none)

/-- EVACUATE_COMMIT_RECEIVE: what an evacuation brings to its receiver over the Tether: overlays, and COMMIT, on which it opens its
gates at the next boundary (R435, R436). A quarantined peer's transactions are refused (spec/17 R426). -/
def execEvacuateCommitReceive (h : HalfId) (overlays : List (List Byte)) (commit : Bool) (s : State) :
    Host.Outcome State Fault Refusal :=
  let x := s.half h
  if !(x.alive && x.ptn.admitted && x.cfg.evacReceiver && (x.link tetherLink).works) || x.tetherRefused true then .next s
  else
    let t := overlays.foldl (fun (t : State) i => t.evacOverlay h i) s
    .next (t.mod h (fun y => (({ y with svc := { y.svc with evacCommit := y.svc.evacCommit || commit } } : Half).announce 78)))

end Sys2Proof.Machine
end

