-- ==== Sys2Proof/Machine/Frame.lean ====
section
/-! DEFINITION. The frame boundary: what waits for it takes effect there (spec/01_two_halves.md R29 to R32 and the rules that name a
frame boundary). What concerns the device as a whole is done at the boundary of the half that carries the chain. -/

namespace Sys2Proof.Machine

/-! ### The new frame -/

/-- The frame in progress ends: its chain mask, with the Quick lane (spec/18_safety.md R444), becomes that of the previous frame, and
compare messages and records older than the frame that ends are done with. -/
def Half.beginFrame (x : Half) (k : Nat) : Half :=
  let quick := (x.sched.engines.filter (fun e => e.st = .quick && e.num ∉ x.ump.chainMask)).map (·.num)
  { x with
    frame := k, frames := x.frames + 1
    ump := { x.ump with prevMask := x.ump.chainMask ++ quick, prevFrame := x.frame, chainMask := [] } }

/-- A held clock step is applied in the boundary's cycle, and the frame numbers skip; a source lost meanwhile leaves FREE_RUN
(spec/16_time_and_ethernet.md R414, R420). -/
def Half.heldStep (x : Half) : Half :=
  match x.tim.held with
  | some off =>
    let y := x.stepClock off
    y.shiftFrames ((y.frameNow : Int) - x.frame)
  | none => x

/-! ### Overlays (spec/21_configuration_and_update.md R522 to R526) -/

/-- An entry held on half h meets the conditions of R522, R524, R525 and R537 at boundary k; the half that is to apply it is h in SOLO
and both halves otherwise. -/
def State.ovlDue (s : State) (h : HalfId) (e : Held) : Bool :=
  let x := s.half h
  let rate := x.rateWith e
  let pairs := (composeCfg (x.runningImage 0x10) (withOvl x.svc.overlays e.slot e.image 0)).2.loopPair
  x.since e.since 2000000 && (!s.paired || e.confirmed.any (fun t => x.since t 1000000)) &&
    s.holdReason = 0 && !s.changing && (rate = x.cfg.frameRate || x.frame % max 1 x.cfg.frameRate = 0) &&
    (pairs = x.cfgb.loopPair || (s.a.svc.updPair.isNone && s.b.svc.updPair.isNone))

/-- At boundary k an overlay is put into its slot, or the slot emptied, and the minimum SECURITY_VERSION of overlays rises (R474, R516,
R521). -/
def Half.storeOvl (x : Half) (k : Nat) (e : Held) : Half :=
  let low := match e.image with
    | some i => max (x.minVersion 0x11) (imgSecVersion i)
    | none => x.minVersion 0x11
  { x with
    svc := { x.svc with overlays := withOvl x.svc.overlays e.slot e.image k, lastApplied := k }
    sec := { x.sec with minSec := (0x11, low) :: x.sec.minSec.filter (fun m => m.1 ≠ 0x11) } }

/-- The entry leaves the half's list and its message completes. -/
def Half.ovlDone (x : Half) (e : Held) : Half :=
  let y : Half := { x with svc := { x.svc with held := x.svc.held.filter (fun k => k.slot ≠ e.slot) } }
  match e.msg with
  | some k => y.finishWaiting k stOk []
  | none => y

/-- One due entry is applied; it is verified again, under the lifecycle state that now holds (spec/19_security_debug_power.md R491), and
one that fails is rejected. -/
def State.applyOvl (s : State) (k : Nat) (h : HalfId) (e : Held) : State :=
  let x := s.half h
  let y : Half := { x with svc := { x.svc with held := x.svc.held.filter (fun k => k.slot ≠ e.slot) } }
  let checks := match e.image with
    | some i => y.ovlImageChecks s.dev.serial i
    | none => []
  match worst checks with
  | some c => s.mod h (fun x => x.dropHeld e c)
  | none =>
    let t := s.mod h (fun x => (x.storeOvl k e).ovlDone e)
    if s.paired then t.mod (other h) (fun x => x.storeOvl k e) else t

/-- A half whose overlays have changed takes up the configuration they compose, in this cycle (R523); a change of the frame rate moves
its frame numbers (R525); a half in DOZE whose chain is no longer suspended returns to RUN (spec/20 R499). -/
def Half.takeOvls (x : Half) (now : Nat) : Half :=
  let old := x.cfg
  let y := x.takeCfg (composeCfg (x.runningImage 0x10) x.svc.overlays)
  let y := if y.cfg.frameRate = old.frameRate then y
    else
      let f := now * y.cfg.frameRate / max 1 old.frameRate
      let z := y.shiftFrames ((f : Int) - now)
      { z with svc := { z.svc with
        lastApplied := f
        overlays := z.svc.overlays.map (fun (o : Ovl) => if o.frame = now then { o with frame := f } else o) } }
  if x.pow.st = .doze && old.suspended && !y.cfg.suspended then y.goRunDim .run else y

/-- Every due overlay and removal is applied, in ascending slot order, and then taken up on each half that it changed. -/
def State.overlayBoundary (s : State) (h : HalfId) : State :=
  let k := (s.half h).frame
  let due := fun (g : HalfId) => (s.half g).svc.held.filter (fun e => s.ovlDue g e)
  let all := (List.range 8).flatMap (fun i => ((due h).filter (fun e => e.slot = i)).map (fun e => (h, e)) ++
    (if s.paired then ((due (other h)).filter (fun e => e.slot = i)).map (fun e => (other h, e)) else []))
  let t := all.foldl (fun (t : State) p => t.applyOvl k p.1 p.2) s
  let up := fun (t : State) (g : HalfId) =>
    if (t.half g).alive && (t.half g).svc.overlays ≠ (s.half g).svc.overlays then t.mod g (fun x => x.takeOvls k) else t
  up (up t h) (other h)

/-! ### Mode changes (spec/01_two_halves.md R29, spec/18_safety.md R452, R456, R461) -/

/-- The message that asked for a change completes. -/
def State.answer (s : State) (o : Option (HalfId × Nat)) : State :=
  match o with
  | some (g, slot) => s.mod g (fun x => x.finishWaiting slot stOk [])
  | none => s

/-- The half stops running work: nothing is fetched, and what it was running ends. -/
def Half.stopWork (x : Half) : Half := (x.endCmds (x.sched.cmds.map (·.id)) stKilled).settle

/-- The leaving half has drained and goes to the requested state (LEAVE: 0 OFF, 1 HIBERNATE, 2 held for update). -/
def State.leave (s : State) (c : Change) : State :=
  let l := other c.half
  let s : State := { s with dev := { s.dev with change := none } }
  if c.leave = 2 then s.mod l (fun x => { x.stopWork with powx := { x.stopWork.powx with held := true } })
  else if (s.half l).alive then
    (s.mod l (fun x => x.sleepSteps none)).reachSleep l (if c.leave = 0 then .off else .hibernate)
  else s

/-- The chain moves to the half that stays, from the newest checkpoint: the leaving half closes its gates and says so, and the staying
half opens its own on GATE_CLOSED (R442, R450, R461). -/
def State.handChain (s : State) (dest : HalfId) : State :=
  let crossed := s.dev.mode = .dual
  let t := s.mod (other dest) (fun x => x.giveGates.emptyChain)
  (t.mod dest (fun x => x.takeChain crossed)).moveChain dest

/-- SOLO takes effect on request: the other half drains for one frame. -/
def State.soloRequested (s : State) (c : Change) : State :=
  let l := other c.half
  let s := if s.dev.chain = c.half then s.mod l Half.emptyChain else s.handChain c.half
  let s := s.mod l (fun x => { x with
    powx := { x.powx with draining := true }, umpx := { x.umpx with standbyReady := false } })
  let s := s.answer c.slot
  ({ s with dev := { s.dev with
      mode := .solo, inMode := 0, midFrame := false, change := some { c with left := 0, slot := none } } } : State).setRoles

/-- SOLO after the loss of the Handoff link: the other half closes its gates and carries only work that is not safety-relevant. -/
def State.soloByLink (s : State) : State :=
  let l := other s.dev.chain
  let s := s.mod l (fun x =>
    let y := x.closeGates.emptyChain
    { y with umpx := { y.umpx with standbyReady := false, sub := .none } })
  ({ s with dev := { s.dev with mode := .solo, soloFault := true, inMode := 0, midFrame := false, change := none } } : State).setRoles

/-- The half has had a warm-up disagreement or a half fault in the last 100 frames (R452). -/
def Half.badLately (x : Half) : Bool := x.umpx.badFrame.any (fun f => x.frame < f + 100)

/-- DUAL after COMPARE_FAIL: the lead is primary, unless it alone has been bad in the last 100 frames (R452). -/
def State.dualByCompare (s : State) : State :=
  let lead := s.dev.chain
  let swap := (s.half lead).badLately && !(s.half (other lead)).badLately
  let t : State := { s with dev := { s.dev with
    mode := .dual, soloFault := true, inMode := 0, midFrame := false, change := none } }
  if swap then
    let t := t.mod lead (fun x => x.giveGates.becomeStandby)
    (t.mod (other lead) (fun x => x.takeChain false)).moveChain (other lead)
  else (t.mod (other lead) Half.becomeStandby).setRoles

/-- COMPARE_FAIL and the mismatches that led to it belong to one stay in MIRROR (log 42). -/
def Half.freshMirror (x : Half) : Half :=
  { x with umpx := { x.umpx with compareFail := false, misFrames := [], ownRec := [], matched := [], standbyReady := false } }

/-- A mode change that is due at the boundary. -/
def State.changeBoundary (s : State) : State :=
  match s.dev.change with
  | none => s
  | some c =>
    if c.left = 0 then s.leave c
    else if 1 < c.left then
      let t : State := { s with dev := { s.dev with change := some { c with left := c.left - 1 } } }
      if c.target = .mirror then t.mod (other t.dev.chain) (fun x => x.takeChain true) else t
    else match c.kind with
      | .link => s.soloByLink
      | .compare => s.dualByCompare
      | .fault => s.soloByLink
      | .request => match c.target with
        | .solo => s.soloRequested c
        | .dual => ((s.enterMode .dual s.dev.chain).mod (other s.dev.chain) Half.becomeStandby).answer c.slot
        | .mirror => (((s.enterMode .mirror s.dev.chain).mod .a Half.freshMirror).mod .b Half.freshMirror).answer c.slot

/-! ### Return from SOLO (Table — Return from SOLO) -/

/-- The returning half's clock is within the inter-half offset of the running half's (step 2). -/
def Half.insync (x : Half) : Bool := !x.tim.lead && x.tim.source = 2 && x.tim.interHalf.toInt.natAbs ≤ 5000

/-- Steps 2, 3 and 5 at a boundary of the returning half, before its next warm-up is issued: synchronised; every active engine has
passed, and duplication and checkpoints start; a checkpoint and one full frame of streams are there. Steps 3 and 5 are each bound to one
frame: what has not been done in the frame that followed their beginning fails them. -/
def State.rejoinOwn (s : State) (r : Rejoin) : State :=
  let x := s.half r.half
  let go := fun (n : Nat) (t : State) => { t with dev := { t.dev with rejoin := some { r with step := n, since := x.frame } } }
  let run := other r.half
  if r.step = 2 then (if x.insync && x.handoffUp then go 3 s else s)
  else if r.step = 3 then
    let live := x.sched.engines.filter (fun e => e.st = .active || e.st = .quick)
    if r.since < x.frame && live.all (fun e => e.passedFrame) then
      go 5 ((s.mod run (fun y => { y with umpx := { y.umpx with duplicating := true } })).mod r.half
        (fun y => { y with umpx := { y.umpx with gotCheck := false } }))
    else if r.since < x.frame || x.ump.rerun ≠ [] || live.any (fun e => e.warmup = 3) then s.rejoinFails
    else s
  else if r.step = 5 then
    if r.since < x.frame then
      if x.umpx.gotCheck then
        go 6 (s.mod r.half (fun y => ({ y with umpx := { y.umpx with streamsOk := true } } : Half).cause 3 false))
      else s.rejoinFails
    else s
  else s

/-- The bound of step 1, at a boundary of the running half: the returning half has not reported ready within the boot bound. -/
def State.rejoinLate (s : State) (h : HalfId) : State :=
  match s.dev.rejoin with
  | some r =>
    let x := s.half h
    if r.half ≠ h && r.step = 1 && decide (r.begun + x.bootBound < x.now) then s.rejoinFails else s
  | none => s

/-- Step 6 at the running half's next boundary. -/
def State.rejoinEnter (s : State) : State :=
  match s.dev.rejoin with
  | some r =>
    if r.step = 6 && r.since < (s.half s.dev.chain).frame then
      let run := s.dev.chain
      let t := s.mod run (fun y => { y with umpx := { y.umpx with duplicating := false } })
      let t := t.enterMode r.target run
      let t := if r.target = .mirror then
          ((t.mod .a Half.freshMirror).mod .b Half.freshMirror).mod r.half (fun x => x.takeChain true)
        else t.mod r.half (fun x => { x with umpx := { x.umpx with standbyReady := true } })
      t.answer r.slot
    else s
  | none => s

/-! ### Start-up, evacuation and the device's counts -/

/-- One half alone has reported ready within the boot bound: the device enters SOLO on it (R28, spec/19 R475). -/
def State.bootAlone (s : State) (h : HalfId) : State :=
  let o := s.half (other h)
  if !s.dev.started && !(o.alive && o.powx.ready) && (s.half h).pastBootBound then s.enterMode .solo h else s

/-- An evacuation at the boundary (spec/17_partners.md R435, R436): after COMMIT the sender closes its gates; the hand-over has
succeeded if the Tether still stands, and otherwise the message completes with ST_DISCARDED. Without ACCEPT steps 4 and 5 repeat, three
times in all. An evacuation whose half no longer carries the chain ends with ST_BUSY. -/
def State.evacBoundary (s : State) : State :=
  match s.dev.evac with
  | none => s
  | some e =>
    let x := s.half e.half
    let done : State := { s with dev := { s.dev with evac := none } }
    if !x.alive || s.dev.chain ≠ e.half then
      done.mod e.half (fun y => y.failWaiting e.slot { bad := true, st := stBusy, retry := some 1000000 })
    else if e.step = 6 then
      let t := (done.mod .a Half.closeGates).mod .b Half.closeGates
      if (x.link tetherLink).works && x.ptn.admitted then
        let t : State := { t with dev := { t.dev with evacuated := true } }
        ((t.mod e.half (fun y => (y.announce 78).emptyChain)).mod e.half (fun y => y.finishWaiting e.slot stOk [])).setRoles
      else t.mod e.half (fun y => y.finishWaiting e.slot stDiscarded [])
    else if 2 ≤ e.tries then done.mod e.half (fun y => y.finishWaiting e.slot stTimeout [])
    else { s with dev := { s.dev with evac := some { e with tries := e.tries + 1 } } }

/-- A half that has received COMMIT takes the chain from the evacuation's checkpoint and opens its gates (R435 step 6). -/
def State.evacTake (s : State) (h : HalfId) : State :=
  if (s.half h).svc.evacCommit && (s.half h).alive then
    let s := s.mod (other h) Half.closeGates
    let t := s.mod h (fun x =>
      let c := Config.evacCheckpoint x.seed
      let y : Half := { x.took with
        svc := { x.svc with evacCommit := false }
        ump := { x.ump with checkpoints := (c :: x.ump.checkpoints).take 2 } }
      y.takeChain true)
    (({ t with dev := { t.dev with evacuated := false } } : State).moveChain h).openChain h
  else s

/-- The frames that the device has held its mode; the hold of R524 ends after one full frame in DUAL or MIRROR. -/
def State.countFrames (s : State) : State :=
  let d := s.dev
  let n := if d.midFrame then 0 else d.inMode + 1
  { s with dev := { d with
      inMode := n, midFrame := false, soloFault := d.soloFault && !(d.mode ≠ .solo && 1 ≤ n) } }

/-! ### The half's own part -/

/-- The pair update at the boundary (R534): first the backup pair is reset into the new firmware; once it runs, the pairs switch and the
former loop pair is reset in its turn. -/
def State.pairBoundary (s : State) (h : HalfId) : State :=
  let x := s.half h
  match x.svc.updPair with
  | none => s
  | some u =>
    let renew := fun (t : State) (p : Nat) =>
      t.mod h (fun y => (y.subsystemReset (4 + p)).modPair p (fun r => { r with fw := b2n (0x04 ∈ y.svc.selB) }))
    let next := fun (n : Nat) (t : State) => t.mod h (fun y => { y with svc := { y.svc with updPair := some { u with next := n } } })
    let loop := x.cores.loopPair
    if u.next = 0 then next 1 (renew (s.mod h (fun y => y.updWaits false)) (1 - loop))
    else if u.next = 1 && (x.pair (1 - loop)).running then
      let opened := x.ump.gates.getLsbD loop
      next 2 (renew (s.mod h (fun y => y.pairSwitch opened)) loop)
    else s

/-- The next engine of a microcode swap: ascending, the Quick lane last; in a reversal, an engine already swapped (R532, R533). -/
def Half.nextSwap (x : Half) (u : Upd) : Option Nat :=
  let can := fun (st : EngState) => (x.sched.engines.find? (fun e => e.st = st && decide (e.num ∈ u.done) = u.revert)).map (·.num)
  match can .active with
  | some n => some n
  | none => can .quick

/-- The engine takes no new command from this boundary on and its swap begins (R532 step 1); the Quick lane's commands and resident
weights end (R125). -/
def Half.beginSwap (x : Half) (u : Upd) (n : Nat) : Half :=
  let quick := (x.engine n).st = .quick
  let y := if quick then (x.endCmds (x.onEngines (fun m _ => m = n)) stKilled).settle else x
  let y := y.modEngine n (fun e => { e with st := .draining, passedFrame := false, wantWarmup := false, warmDone := false })
  let y : Half := if quick then { y with sched := { y.sched with residents := [], quickOn := false } } else y
  ({ y with svc := { y.svc with upd := some { u with cur := some n } } } : Half).updWaits false

/-- The rollout of engine microcode at a boundary: the next engine, or the end of the rollout or of its reversal (R532, R533). An engine
that has meanwhile been retired is passed over. -/
def Half.swapBoundary (x : Half) : Half :=
  match x.svc.upd with
  | none => x
  | some u =>
    if u.cur.any (fun n => (x.engine n).st = .draining) then x
    else
      let u := { u with cur := none }
      match x.nextSwap u with
      | some n => x.beginSwap u n
      | none =>
        let y : Half := { x with svc := { x.svc with upd := none } }
        match u.slot with
        | some k => if u.revert then y.failWaiting k { bad := true, st := stMalformed, off := 0x10 } else y.finishWaiting k stOk []
        | none => y

/-- The retirement due at this boundary is made first; when one is made, the microcode swap waits for the next boundary
(spec/21_configuration_and_update.md R537). -/
def Half.engineBoundary (x : Half) : Half :=
  let retired := fun (y : Half) => (y.sched.engines.filter (fun e => e.st = .retired)).length
  let y := (((x.measureBoundary.retireBoundary.deadDie 0).deadDie 1).paySpares false).nextRetire
  let y := if retired y = retired x then y.swapBoundary else y
  y.quickBoundary

/-- A transition to DOZE that waited for the boundary (spec/20_power_thermal_reset.md R496). -/
def Half.dozeBoundary (x : Half) : Half :=
  match x.powx.pend with
  | some (.doze, slot) =>
    let y : Half := { x with powx := { x.powx with pend := none } }
    (y.enterDoze).finishWaiting slot stOk []
  | _ => x

/-- Deadline-mode causes that end at a boundary (spec/13_bandwidth_regulation.md R350): start-up at the first one after the half
reported ready, takeover at the end of the first full frame after it. -/
def Half.causeBoundary (x : Half) : Half :=
  let y := x.cause 0 false
  if y.umpx.fullFrame then ({ y with umpx := { y.umpx with fullFrame := false } } : Half).cause 2 false
  else if y.qos.causes.getLsbD 2 then { y with umpx := { y.umpx with fullFrame := true } }
  else y

/-- STANDBY_READY of a standby in DUAL (spec/18_safety.md R450, R456): a committed checkpoint, one full frame of duplicated streams, and
the inter-half bound. -/
def Half.standbyBoundary (x : Half) : Half :=
  if x.ump.role = 2 && x.handoffStands then
    let ok := x.umpx.gotCheck && x.timx.badExch < 10
    { x with umpx := { x.umpx with streamsOk := true, standbyReady := ok } }
  else x

/-- What a boundary does on a half alone, after the device's part. -/
def Half.ownBoundary (x : Half) : Half :=
  let y := (x.engineBoundary.mapOutBoundary.dozeBoundary.trimDomains).applyClocks
  (y.warmupBoundary.causeBoundary).standbyBoundary

/-- The device's part of a boundary, at that of the chain-carrying half h. The accepted lifecycle requests take effect first
(spec/19_security_debug_power.md R491). -/
def State.deviceBoundary (s : State) (h : HalfId) : State :=
  let t := (((s.lifeBoundary h).lifeBoundary (other h)).fieldBoundary)
  if !(t.half h).alive then t
  else
    let t := (t.countFrames.overlayBoundary h).capBoundary
    (((t.changeBoundary.rejoinEnter).evacBoundary).evacTake .a).evacTake .b

/-- The half is the one at whose boundary the device's part is done: the chain-carrying half, or one that is ready while that half is
not. -/
def State.drives (s : State) (h : HalfId) : Bool :=
  let o := s.half s.dev.chain
  s.dev.chain = h || !(o.alive && o.powx.ready)

/-- FRAME_BOUNDARY: the half's synchronised time has crossed k × frame period for a k beyond its frame (R32). -/
def execFrameBoundary (h : HalfId) (s : State) : Host.Outcome State Fault Refusal :=
  let x := s.half h
  if !(x.alive && x.powx.ready && x.tim.running) || x.frameNow ≤ x.frame then .next s
  else
    let s := s.mod h (fun x => (x.beginFrame x.frameNow).heldStep)
    let s := match s.dev.rejoin with
      | some r => if r.half = h then s.rejoinOwn r else s
      | none => s
    let s := (s.rejoinLate h).bootAlone h
    let s := if s.drives h && s.dev.started then s.deviceBoundary h else s
    if (s.half h).alive && (s.half h).powx.ready then .next ((s.pairBoundary h).mod h Half.ownBoundary).setRoles
    else .next s.setRoles

end Sys2Proof.Machine
end

