-- ==== Sys2Proof/Machine/Control.lean ====
section
/-! DEFINITION. The control space of a half: its blocks and registers as loads and stores see them, access from the other half, and
the TAP (spec/01_two_halves.md R18, R22, R23, and the register tables of the chapters). -/

namespace Sys2Proof.Config

/-- What IDCODE answers, on which the spec is silent (spec/19_security_debug_power.md R485). -/
opaque idcode : (half : Nat) → Nat

end Sys2Proof.Config

namespace Sys2Proof.Machine

/-! ### Blocks (R22) -/

/-- An offset lies in an assigned block. -/
def assigned (off : Nat) : Bool :=
  (0x100000 ≤ off && off < 0x800000) || (0x1000000 ≤ off && off < 0x2200000) || (0x3000000 ≤ off && off < 0x3100000)

/-! ### Registers as loads see them: the aligned 64-bit word at an offset of the block; reserved space reads zero (R23) -/

/-- MBX_STATE code. -/
def slotCode : SlotState → Nat
  | .free => 0
  | .owned => 1
  | .posted => 2
  | .acked => 3
  | .done => 4

/-- Table — Mailbox registers. MBX_OUT reads as the last stored message, which is valid only in DONE. -/
def Half.mbxWord (x : Half) (o : Nat) : BitVec 64 :=
  if o < 0x40000 then
    let k := x.slot (o / 0x1000)
    let p := o % 0x1000
    if p < 0x40 then k.inb.extractLsb' (8 * p) 64
    else if p < 0x80 then k.outb.extractLsb' (8 * (p - 0x40)) 64
    else if p = 0x80 then pack 64 [(0, 8, k.ownerClient.toNat), (8, 1, b2n k.ownerValid)]
    else if p = 0x90 then pack 64 [(0, 3, slotCode k.st), (32, 32, k.lastSeq.toNat)]
    else 0
  else if o = 0x40000 then x.mbx.irqStatus
  else if o = 0x40008 then x.mbx.irqEnable
  else if o = 0x40010 then x.mbx.heartbeat
  else 0

/-- Table — UMP registers; `mode` is the device mode. -/
def Half.umpWord (x : Half) (mode : DevMode) (o : Nat) : BitVec 64 :=
  if o = 0 then pack 64 [(0, 2, x.ump.gates.toNat), (8, 8, modeCode mode), (16, 8, x.ump.role.toNat)]
  else if o = 8 then pack 64 [(0, 1, b2n x.ump.peerBus), (1, 1, b2n x.ump.peerHandoff)]
  else if o = 0x10 then x.ump.events.setWidth 64
  else if o = 0x18 then x.ump.irqEnable.setWidth 64
  else if o = 0x20 then x.umpCounts
  else 0

/-- Table — TIM registers. -/
def Half.timWord (x : Half) (o : Nat) : BitVec 64 :=
  if o = 0 then BitVec.ofNat 64 x.st
  else if o = 8 then x.tim.latch
  else if o = 0x10 then BitVec.ofNat 64 x.now
  else if o = 0x18 then x.timState
  else if o = 0x20 then x.tim.offset
  else if o = 0x28 then x.timRate
  else if o = 0x30 then x.tim.gm
  else if o = 0x38 then x.tim.freeSince
  else if o = 0x40 then x.tim.interHalf.setWidth 64
  else if o = 0x48 then x.tim.events.setWidth 64
  else if 0x100 ≤ o && o < 0x240 then
    let p := x.port ((o - 0x100) / 0x40)
    let r := o % 0x40
    let two := fun (lo hi : BitVec 32) => pack 64 [(0, 32, lo.toNat), (32, 32, hi.toNat)]
    if r = 0 then pack 64 [(0, 4, p.role.toNat), (8, 1, b2n p.asCapable), (9, 1, b2n p.linkUp)]
    else if r = 8 then two p.ingressLat p.egressLat
    else if r = 0x10 then two p.asym p.linkDelay
    else if r = 0x18 then two p.syncRx p.nbrRate
    else if r = 0x20 then two p.unboundDrops p.ptpDrops
    else if r = 0x28 then two p.bridgeDrops p.gateDrops
    else 0
  else 0

/-- COOLANT_AGE_MS: the time since the last report; it stops at 0xFFFF, which it also reads before the first one. -/
def Half.coolantAge (x : Half) : Nat := if x.pow.age = 0xFFFF then 0xFFFF else min 0xFFFF ((x.now - x.powx.lastCoolant) / 1000000)

/-- Table — THM registers. -/
def Half.thmWord (x : Half) (o : Nat) : BitVec 64 :=
  let p := x.pow
  if o = 0 then p.domains.setWidth 64
  else if o = 8 then pack 64 [(0, 3, pwrCode p.st), (3, 1, b2n p.forcedDim), (4, 4, p.limiter.toNat)]
  else if o = 0x10 then pack 64 [(0, 16, p.power.toNat), (16, 16, p.budget.toNat), (32, 16, p.thermal.toNat), (48, 16, p.cap.toNat)]
  else if o = 0x18 then
    pack 64 [(0, 16, x.coolantAge), (16, 16, p.coolant.toNat), (32, 16, p.thetaM.toNat), (48, 16, p.thetaJ.toNat)]
  else if o = 0x20 then p.events.setWidth 64
  else if o = 0x28 then p.irqEnable.setWidth 64
  else if o = 0x30 then p.pairFaulty.setWidth 64
  else if o = 0x38 then p.thetaTime
  else if 0x40 ≤ o && o < 0x60 then
    let c := p.clusters[(o - 0x40) / 8]?.getD (0, 0)
    pack 64 [(0, 16, c.2.toNat), (16, 16, c.1.toNat)]
  else if 0x100 ≤ o && o < 0x200 then
    let k := x.powx.pairs[(o - 0x100) / 8]?.getD {}
    pack 64 [(0, 16, k.a.toNat), (16, 16, k.b.toNat), (32, 16, k.used.toNat), (48, 1, b2n k.faulty), (49, 1, b2n k.hot)]
  else if 0x200 ≤ o && o < 0x210 then
    let k := x.powx.stks[(o - 0x200) / 8]?.getD {}
    pack 64 [(0, 16, k.temp.toNat), (16, 2, k.refresh.toNat)]
  else 0

/-- The violation log entry that lies at an index of the ring (spec/17_partners.md R429). -/
def Half.vioAt (x : Half) (i : Nat) : BitVec 256 := (x.ptn.log.find? (fun e => fld e 0 32 % 1024 = i)).getD 0

/-- Table — Partner entry, Table — Partner block registers, and the log's ring. -/
def Half.ptnWord (x : Half) (o : Nat) : BitVec 64 :=
  if o < 0x4000 then (x.partner (o / 0x40)).word.extractLsb' (8 * (o % 0x40)) 64
  else if o = 0x4000 then pack 64 [(0, 32, x.ptn.written.toNat), (32, 32, x.ptn.untracked.toNat)]
  else if o = 0x4008 then pack 64 [(0, 32, x.ptn.full.toNat)]
  else if 0x8000 ≤ o && o < 0x10000 then (x.vioAt ((o - 0x8000) / 32)).extractLsb' (8 * (o % 32)) 64
  else 0

/-- Table — Doorbell registers: what is bound to a doorbell. -/
def Half.dblWord (x : Half) (o : Nat) : BitVec 64 :=
  if o % 0x100 = 8 then
    match x.sched.queues.find? (fun q => q.doorbell = some (o / 0x100)) with
    | some q => pack 64 [(0, 19, q.id), (19, 1, 1)]
    | none => 0
  else 0

/-- ENG_STATE code (spec/04_tensor_engines.md R114). -/
def engCode : EngState → Nat
  | .off => 0
  | .spare => 1
  | .active => 2
  | .quick => 3
  | .draining => 4
  | .resetting => 5
  | .retired => 6

/-- Table — Engine status registers; an engine whose microcode is being swapped shows DRAINING. -/
def Half.engWord (x : Half) (n o : Nat) : BitVec 64 :=
  let e := x.engine n
  if o = 0 then pack 64 [(0, 8, n), (8, 8, n / 9)]
  else if o = 8 then pack 64 [(0, 4, engCode e.st), (4, 4, b2n e.slotB), (8, 32, e.microcode.toNat)]
  else if o = 0x10 then pack 64 [(0, 16, e.clockMhz.toNat)]
  else if o = 0x18 then e.commits
  else if o = 0x20 then pack 64 [(0, 16, e.relative.toNat), (16, 8, e.slowFrames.toNat)]
  else if o = 0x28 then pack 64 [(0, 2, e.warmup.toNat), (2, 1, b2n e.disagreeValid), (32, 32, e.lastDisagree.toNat)]
  else if o = 0x30 then pack 64 [(0, 32, e.scratchCE.toNat), (32, 32, e.scratchUE.toNat)]
  else 0

/-- LNK_KIND (spec/15_die_to_die_links.md R397). -/
def lnkKind (i : Nat) : Nat := if i < 16 then 0 else if i = 16 then 1 else if i = 17 then 2 else 3

/-- Table — Link status registers; HO_BULK_LIMIT is the configuration's while the link is DEGRADED and 0, unlimited, otherwise
(spec/15_die_to_die_links.md R394). -/
def Half.lnkWord (x : Half) (o : Nat) : BitVec 64 :=
  if o = 0x2000 then x.links.irqStatus.setWidth 64
  else if o = 0x2008 then x.links.irqEnable.setWidth 64
  else if 0x1300 ≤ o then 0
  else
    let i := o / 0x100
    let l := x.link i
    let r := o % 0x100
    if r = 0 then pack 64 [(0, 4, lnkCode l.st), (8, 8, lnkKind i), (16, 8, l.width.toNat), (24, 8, l.rate.toNat), (32, 8, l.reason.toNat)]
    else if r = 8 then pack 64 [(0, 32, l.rxLanes.toNat), (32, 32, l.txLanes.toNat)]
    else if r = 0x10 then l.crc
    else if r = 0x18 then l.replay
    else if r = 0x20 then pack 64 [(0, 32, l.retrains.toNat), (32, 16, l.repairs.toNat), (48, 16, l.degrades.toNat)]
    else if r = 0x28 then l.eventTime
    else if r = 0x30 then pack 64 [(0, 32, l.payload.toNat)]
    else if r = 0x38 then l.peer.setWidth 64
    else if r = 0x40 then (if i = handoffLink then x.links.vc0 else 0)
    else if r = 0x48 then (if i = handoffLink then x.links.vc1 else 0)
    else if r = 0x50 then
      (if i = handoffLink then
        pack 64 [(0, 32, if l.st = .degraded then x.cfgb.bulkLimit else 0), (32, 32, x.links.fwdDropped.toNat)]
      else 0)
    else if r = 0x58 then pack 64 [(0, 1, b2n l.advisory)]
    else 0

/-- The aligned 64-bit word of the control space of half h at an offset. -/
def State.ctrlWord (s : State) (h : HalfId) (off : Nat) : BitVec 64 :=
  let x := s.half h
  let o := off % 0x100000
  let b := off / 0x100000
  if b = 1 then x.mbxWord o
  else if b = 2 then x.umpWord s.dev.mode o
  else if b = 3 then x.qos.read o
  else if b = 4 then x.timWord o
  else if b = 5 then x.thmWord o
  else if b = 6 then x.ptnWord o
  else if b = 7 then x.dblWord o
  else if b < 0x22 then x.engWord (b - 0x10) o
  else x.lnkWord o

/-- The page of a slot of the management bus, which no core reaches (spec/02_captain_and_mailboxes.md R33). -/
def toolPage (off : Nat) : Bool := 0x13C000 ≤ off && off < 0x140000

/-- A load of the control space by a core or pair: a bus error, or its data; one of TIM_SYNC latches the local counter
(spec/16_time_and_ethernet.md R421). -/
def State.ctrlLoad (s : State) (h : HalfId) (off size : Nat) : State :=
  if !(aligned off size) || !(assigned off) || toolPage off then { s with resp := .busError }
  else
    let v := accLoad (s.ctrlWord h (off / 8 * 8)) off size
    let t := if off / 8 * 8 = 0x400000 then
        s.mod h (fun x => { x with tim := { x.tim with latch := BitVec.ofNat 64 x.now } })
      else s
    { t with resp := .data v }

/-! ### Stores (R23) -/

/-- A store to the page of a mailbox slot: MBX_IN, MBX_OWNER, MBX_DOORBELL; the rest of the page ignores it (R33 to R35). -/
def Half.slotStore (x : Half) (ag : Agent) (slot p size v : Nat) : Half :=
  if !(reaches ag slot) then x.slotRefused ag slot p
  else if p < 0x40 then x.inStore slot p size v
  else if p = 0x80 then x.ownerStore ag slot (v.testBit 8) (BitVec.ofNat 8 v)
  else if p = 0x88 then x.doorbell ag slot (v.testBit 0)
  else x

/-- A store to the MBX_ block. Clearing a bit of MBX_IRQ_STATUS re-arms its identity (spec/14_cores.md R374). -/
def Half.mbxStore (x : Half) (ag : Agent) (o size v : Nat) : Half :=
  if o < 0x40000 then x.slotStore ag (o / 0x1000) (o % 0x1000) size v
  else if o / 8 * 8 = 0x40000 then
    let ones := accOnes o size v
    let y : Half := { x with mbx := { x.mbx with irqStatus := x.mbx.irqStatus &&& ~~~ones } }
    (List.range 60).foldl (fun (y : Half) i => if ones.getLsbD i then y.rearm (1 + i) else y) y
  else if o / 8 * 8 = 0x40008 then { x with mbx := { x.mbx with irqEnable := accMerge x.mbx.irqEnable o size v } }
  else x

/-- A store to the UMP_ block. -/
def Half.umpStore (x : Half) (o size v : Nat) : Half :=
  if o / 8 * 8 = 0x10 then
    ({ x with ump := { x.ump with events := x.ump.events &&& ~~~((accOnes o size v).extractLsb' 0 15) } } : Half).rearm 69
  else if o / 8 * 8 = 0x18 then
    { x with ump := { x.ump with irqEnable := (accMerge (x.ump.irqEnable.setWidth 64) o size v).extractLsb' 0 15 } }
  else x

/-- A store to the TIM_ block. -/
def Half.timStore (x : Half) (o size v : Nat) : Half :=
  if o / 8 * 8 = 0x48 then { x with tim := { x.tim with events := x.tim.events &&& ~~~((accOnes o size v).extractLsb' 0 6) } }
  else x

/-- A store of THM_CLUSTER_MHZ: 600 to 2,400, any other value is ignored and logged (spec/20_power_thermal_reset.md R506, R511). -/
def Half.clusterStore (x : Half) (ag : Agent) (c : Nat) (mhz : BitVec 16) : Half :=
  let off := 0x500040 + 8 * c
  if mhz.toNat < 600 || 2400 < mhz.toNat then x.ctrlVio ag 1 off
  else
    let y : Half := { x with pow := { x.pow with clusters := x.pow.clusters.modify c (fun p => (p.1, mhz)) } }
    y.applyClocks

/-- A store to the THM_ block. -/
def Half.thmStore (x : Half) (ag : Agent) (o size v : Nat) : Half :=
  if o / 8 * 8 = 0x20 then
    ({ x with pow := { x.pow with events := x.pow.events &&& ~~~((accOnes o size v).extractLsb' 0 10) } } : Half).rearm 66
  else if o / 8 * 8 = 0x28 then
    { x with pow := { x.pow with irqEnable := (accMerge (x.pow.irqEnable.setWidth 64) o size v).extractLsb' 0 10 } }
  else if 0x40 ≤ o && o < 0x60 && o % 8 = 0 then x.clusterStore ag ((o - 0x40) / 8) (BitVec.ofNat 16 v)
  else x

/-- A store to the DBL_ block: only a 64-bit one acts on a doorbell, a 32-bit one is dropped and logged (spec/02 R56). -/
def Half.dblStore (x : Half) (ag : Agent) (o size v : Nat) : Half :=
  if o % 0x100 = 0 && size = 8 then x.doorbellStore ag (o / 0x100) (BitVec.ofNat 64 v)
  else if o % 0x100 < 8 then x.ctrlVio ag 3 (0x700000 + o)
  else x

/-- A store to the LNK_ block. -/
def Half.lnkStore (x : Half) (o size v : Nat) : Half :=
  if o / 8 * 8 = 0x2000 then
    ({ x with links := { x.links with irqStatus := x.links.irqStatus &&& ~~~((accOnes o size v).extractLsb' 0 19) } } : Half).rearm 79
  else if o / 8 * 8 = 0x2008 then
    { x with links := { x.links with irqEnable := (accMerge (x.links.irqEnable.setWidth 64) o size v).extractLsb' 0 19 } }
  else x

/-- A store to the control space (R23): one of another size or alignment or to an unassigned offset is dropped and counted; one to a
read-only field or to reserved space is ignored. -/
def Half.ctrlStore (x : Half) (ag : Agent) (off size v : Nat) : Half :=
  let o := off % 0x100000
  let b := off / 0x100000
  if !(aligned off size) || !(assigned off) then x.ctrlVio ag 1 off
  else if b = 1 then x.mbxStore ag o size v
  else if b = 2 then x.umpStore o size v
  else if b = 3 then x.qosStore ag o size v
  else if b = 4 then x.timStore o size v
  else if b = 5 then x.thmStore ag o size v
  else if b = 7 then x.dblStore ag o size v
  else if b = 0x30 then x.lnkStore o size v
  else x

/-- An agent's access reaches a block: a tool reaches only the pages of slots 60 to 63 (spec/02 R33), and one that is quarantined is
ignored. -/
def Half.storeReaches (x : Half) (ag : Agent) (off : Nat) : Bool :=
  x.alive && !x.toolIgnored ag && match ag with
    | .tool _ => toolPage off
    | _ => true

/-- REGISTER_WRITE: a store to the half's own control space (R23). -/
def execRegisterWrite (h : HalfId) (ag : Agent) (off size v : Nat) (s : State) : Host.Outcome State Fault Refusal :=
  .next (s.mod h (fun x => if x.storeReaches ag off then x.ctrlStore ag off size v else x))

/-- THM_CLUSTER_MHZ_WRITE (spec/20_power_thermal_reset.md R506). -/
def execThmClusterMhzWrite (h : HalfId) (ag : Agent) (cluster : Nat) (mhz : BitVec 16) (s : State) :
    Host.Outcome State Fault Refusal :=
  .next (s.mod h (fun x =>
    if x.storeReaches ag (0x500040 + 8 * cluster) && cluster < 4 then x.clusterStore ag cluster mhz else x))

/-- TIM_SYNC_LOAD: a load of TIM_SYNC, 64 bits or one of its halves, latches the local counter (spec/16_time_and_ethernet.md
R421). -/
def execTimSyncLoad (h : HalfId) (ag : Agent) (size : Nat) (high : Bool) (s : State) : Host.Outcome State Fault Refusal :=
  if (s.half h).storeReaches ag 0x400000 then .next (s.ctrlLoad h (0x400000 + (if high then 4 else 0)) size) else .next s

/-! ### The other half's control space (R18) -/

/-- An access of the control space crosses the Handoff link on SAFETY; its framing, and so the bytes it adds to HO_VC0_BYTES, is not
given (spec/15_die_to_die_links.md R393, R397; log 10). -/
def Half.crosses (x : Half) : Half :=
  { x.took with links := { x.links with vc0 := x.links.vc0 + BitVec.ofNat 64 (Config.freeNat x.seed 16 % 65536) } }

/-- The other half's control space is out of reach: that half is in HIBERNATE, OFF or its safe state, or the link is down (R18); during
a retrain the access waits (spec/15_die_to_die_links.md R389). -/
def State.farCut (s : State) (h : HalfId) : Bool := !((s.half (other h)).alive && (s.half h).handoffStands)

/-- REMOTE_CONTROL_ACCESS: an application core of half h loads from, or stores to, the other half's control space (R18); out of reach, a
load errs, a store is dropped, and the event is recorded on half h. -/
def execRemoteControlAccess (h : HalfId) (core client off size : Nat) (store : Option Nat) (s : State) :
    Host.Outcome State Fault Refusal :=
  let x := s.half h
  let ag : Agent := .core core client
  if !(x.coreRuns core) then .next s
  else if s.farCut h then
    .next { (s.mod h (fun y => y.coreVio ag 1 off (ctrlBase (other h) + off))) with resp := if store.isSome then .dropped else .busError }
  else
    let t := s.mod h Half.crosses
    match store with
    | some v => .next { (t.mod (other h) (fun y => y.ctrlStore ag off size v)) with resp := .ok }
    | none => .next (t.mod (other h) Half.crosses |>.ctrlLoad (other h) off size)

/-! ### The TAP (spec/19_security_debug_power.md R485, R490) -/

/-- A free value of an instruction whose data the spec does not give. -/
def State.tapFree (s : State) (h : HalfId) : State :=
  { (s.mod h Half.took) with resp := .data (Config.freeNat (s.half h).seed 64) }

/-- What the OBSERVE reach allows: reads only, of trace, counters and status, whose contents come from outside the block. -/
def State.tapObserve (s : State) (h : HalfId) : State := s.tapFree h

/-- The INVASIVE reach on a half in RUN, DIM or DOZE. -/
def State.tapInvasive (s : State) (h : HalfId) (op : TapOp) : State :=
  let x := s.half h
  match op with
  | .captain halt => s.mod h (fun y => { y with captainBad := halt })
  | .core n halt => s.mod h (fun y => y.modApp n (fun k => { k with halted := halt }))
  | .pair n halt => s.mod h (fun y => y.modPair n (fun k => { k with halted := halt }))
  | .read ctx va n => if x.mapped ctx va n then { s with resp := .data (leNat (x.vread ctx va n)) } else { s with resp := .busError }
  | .write ctx va data =>
    if x.mapped ctx va data.length then { (s.mod h (fun y => (y.commitBytes ctx (placeBytes va data)).settle)) with resp := .ok }
    else { s with resp := .busError }
  | .load off size => s.ctrlLoad h off size
  | .store off size v =>
    if aligned off size && assigned off then { (s.mod h (fun y => y.ctrlStore (.core 0 0) off size v)) with resp := .ok }
    else { s with resp := .dropped }
  | .idcode | .bypass | .sample | .extest | .observe | .priv => s

/-- In HIBERNATE an INVASIVE level of MANUFACTURE or RETURNED reaches the Umpire (code IH). -/
def Half.tapUmpire (x : Half) (off : Nat) : Bool :=
  x.sec.debug = 2 && (x.sec.life = 0 || x.sec.life = 4) && off / 0x100000 = 2

/-- An instruction on a half that has power and does not run: IDCODE and BYPASS answer, and the Umpire's registers are in reach of an
INVASIVE level of MANUFACTURE or RETURNED. -/
def State.tapAsleep (s : State) (h : HalfId) (op : TapOp) : State :=
  let x := s.half h
  match op with
  | .idcode => { s with resp := .data (Config.idcode (halfCode h)) }
  | .bypass => { s with resp := .ok }
  | .load off size => if x.tapUmpire off then s.ctrlLoad h off size else { s with resp := .none }
  | .store off size v =>
    if x.tapUmpire off && aligned off size then
      { (s.mod h (fun y => y.umpStore (off % 0x100000) size v)) with resp := .ok }
    else { s with resp := .none }
  | .sample | .extest | .observe | .captain _ | .core _ _ | .pair _ _ | .read _ _ _ | .write _ _ _ | .priv => { s with resp := .none }

/-- An instruction on a half in RUN, DIM or DOZE. -/
def State.tapAwake (s : State) (h : HalfId) (op : TapOp) : State :=
  let x := s.half h
  match op with
  | .idcode => { s with resp := .data (Config.idcode (halfCode h)) }
  | .bypass => { s with resp := .ok }
  | .sample => s.tapFree h
  | .extest =>
    { s with resp := if (x.sec.life = 0 || x.sec.life = 4) && (x.sec.debug = 0 || x.sec.debug = 2) then .ok else .none }
  | .observe => if x.sec.debug = 0 then { s with resp := .none } else s.tapObserve h
  | .captain _ | .core _ _ | .pair _ _ | .read _ _ _ | .write _ _ _ | .load _ _ | .store _ _ _ | .priv =>
    if x.sec.debug = 2 then s.tapInvasive h op else { s with resp := .none }

/-- TAP_INSTRUCTION: an instruction acts within the reach of lifecycle state, level and power state; one beyond it has no effect (Table —
Debug reach, Table — Security, debug and power). A Nirlevan private instruction within its reach is refused: the spec does not give its
effect (log 15). -/
def execTapInstruction (h : HalfId) (op : TapOp) (s : State) : Host.Outcome State Fault Refusal :=
  let x := s.half h
  if x.pow.st = .off && !x.umpx.safe then .next { s with resp := .none }
  else if !x.alive then .next (s.tapAsleep h op)
  else if op = .priv && x.sec.debug = 2 then .refused .privateTap
  else .next (s.tapAwake h op)

end Sys2Proof.Machine
end

