-- ==== Sys2Proof/Machine/Copy.lean ====
section
/-! DEFINITION. Unit 0x08, the copy unit (spec/12_memory_system.md R337 to R340). -/

namespace Sys2Proof.Machine

/-- UNIT_INSTANCE of the copy unit (R337). -/
def copyInst : Nat := 0x70

/-- ROW_BYTES. -/
def cpRow (d : Desc) : Nat := df d 0x30 32
/-- ROWS. -/
def cpRows (d : Desc) : Nat := df d 0x34 32

/-- The source rows of a copy: base and length; SRC_PITCH 0 repeats row 0 (R338). -/
def cpSrc (d : Desc) : List (Nat × Nat) :=
  (List.range (cpRows d)).map (fun i => (df d 0x20 64 + i * df d 0x38 32, cpRow d))

/-- The destination rows, from a base (R338). -/
def cpDst (d : Desc) (base : Nat) : List (Nat × Nat) :=
  (List.range (cpRows d)).map (fun i => (base + i * df d 0x3C 32, cpRow d))

/-- The checks that COPY and COPY_OUT share (R338); a zero DST_PITCH is an output stride of zero (spec/00_scope.md R12). -/
def copyChecks (x : Half) (c : Cmd) : List Chk :=
  let d := c.desc
  let n := cpRow d * cpRows d
  [dAddr d 0x20,
   { bad := decide (n ≤ 64000000) && !((cpSrc d).all (fun r => x.mapped c.ctx r.1 r.2)), st := stMalformed, off := 0x20 },
   { bad := (decide (df d 0x3C 32 < cpRow d) || decide (df d 0x3C 32 = 0)) && decide (1 < cpRows d), st := stMalformed, off := 0x3C },
   { bad := decide (64000000 < n), st := stLimit, off := 0x28 },
   { bad := decide (n = 0), st := stEmpty },
   dRsv d 0x40 64, dRsv d 0x4A 8, dRsv d 0x4B 424, dRsvBits d 0x49 1 7]

/-- The bytes of the source rows, each with its place in the destination rows. -/
def copyBytes (x : Half) (c : Cmd) (base : Nat) : List (Nat × Byte) :=
  ((cpSrc c.desc).zip (cpDst c.desc base)).flatMap (fun p =>
    (List.range (cpRow c.desc)).map (fun j => (p.2.1 + j, x.vbyte c.ctx (p.1.1 + j))))

/-- DETAIL0 of the copy unit: cycles in [31:0], bytes in units of 64 in [63:32] (R337). -/
def copyDetail (x : Half) (n : Nat) : Nat := cyclesOf x + units64 x.seed n % 2 ^ 32 * 2 ^ 32

/-- The checks of COPY (R337, R338). -/
def copyInChecks (x : Half) (c : Cmd) : List Chk :=
  let d := c.desc
  copyChecks x c ++ [dRsvBits d 0x49 0 1, dRsv d 0x48 8,
    { bad := decide (cpRow d * cpRows d ≤ 64000000) && !((cpDst d (df d 0x28 64)).all (fun r => x.writable c.ctx r.1 r.2))
      st := stMalformed, off := 0x28 }]

/-- What COPY makes: the bytes read are those before the command (R111, R338). -/
def copyWork (x : Half) (c : Cmd) (_ : Option Nat) : Work :=
  let n := cpRow c.desc * cpRows c.desc
  { writes := copyBytes x c (df c.desc 0x28 64), reads := cpSrc c.desc, outs := cpDst c.desc (df c.desc 0x28 64)
    foot := n, inst := copyInst, det0 := copyDetail x n }

/-- COPY: rows within the context (R338). -/
def execCopy (h : HalfId) (cmd : Nat) (s : State) : Host.Outcome State Fault Refusal :=
  .next (s.mod h (fun x => x.start cmd 8 0x01 (fun _ _ => true) copyInChecks copyWork))

/-- What COPY_OUT makes on its own side: it reads its rows and stages nothing (R340). -/
def copyOutWork (x : Half) (c : Cmd) (_ : Option Nat) : Work :=
  { reads := cpSrc c.desc, inst := copyInst, det0 := copyDetail x (cpRow c.desc * cpRows c.desc) }

/-- The copy that crosses the link: the window, and the rows at their offsets in it (R340). -/
def copyMsg (x : Half) (c : Cmd) : LinkMsg :=
  .copy c.id c.client (df c.desc 0x48 8)
    (((cpSrc c.desc).zip (cpDst c.desc (df c.desc 0x28 64))).map (fun p => (p.2.1, x.vread c.ctx p.1.1 p.1.2)))

/-- COPY_OUT: the same rows into a far window, sent across the link (R340). -/
def execCopyOut (h : HalfId) (cmd : Nat) (s : State) : Host.Outcome State Fault Refusal :=
  .next ((s.mod h (fun x => x.start cmd 8 0x10 (fun _ _ => true) copyChecks copyOutWork)).sendStarted h cmd copyMsg)

/-- The checks of WINDOW_BIND: the whole window is mapped and writable and lies in no sync page (R339). -/
def windowBindChecks (x : Half) (c : Cmd) : List Chk :=
  let d := c.desc
  [dRsv d 0x20 64, dRsv d 0x30 128, dRsvBits d 0x49 1 7, dRsv d 0x4B 424,
   { bad := !(x.writable c.ctx (df d 0x28 64) (df d 0x40 64)), st := stMalformed, off := 0x28 },
   { bad := x.mem.windows.any (fun w => w.num = df d 0x48 8), st := stBusy, retry := some 10000 },
   { bad := decide (df d 0x40 64 = 0), st := stEmpty }]

/-- The window that WINDOW_BIND binds (R339). -/
def boundWindow (c : Cmd) : Window :=
  let d := c.desc
  { num := df d 0x48 8, ctx := c.ctx, va := df d 0x28 64, bytes := df d 0x40 64, tether := db d 0x49 0, src := df d 0x4A 8 }

/-- What WINDOW_BIND makes. -/
def windowBindWork (x : Half) (c : Cmd) (_ : Option Nat) : Work :=
  { inst := copyInst, atOnce := true, det0 := copyDetail x 0, eff := .window (boundWindow c) }

/-- WINDOW_BIND (R339). -/
def execWindowBind (h : HalfId) (cmd : Nat) (s : State) : Host.Outcome State Fault Refusal :=
  .next (s.mod h (fun x => x.start cmd 8 0x11 (fun _ _ => true) windowBindChecks windowBindWork))

/-- The checks of WINDOW_UNBIND (R339). -/
def windowUnbindChecks (x : Half) (c : Cmd) : List Chk :=
  let d := c.desc
  [dRsv d 0x20 320, dRsv d 0x49 440,
   { bad := !(x.mem.windows.any (fun w => w.num = df d 0x48 8 && w.ctx = c.ctx)), st := stMalformed, off := 0x48 }]

/-- What WINDOW_UNBIND makes. -/
def windowUnbindWork (x : Half) (c : Cmd) (_ : Option Nat) : Work :=
  { inst := copyInst, atOnce := true, det0 := copyDetail x 0, eff := .unwindow (df c.desc 0x48 8) }

/-- WINDOW_UNBIND (R339). -/
def execWindowUnbind (h : HalfId) (cmd : Nat) (s : State) : Host.Outcome State Fault Refusal :=
  .next (s.mod h (fun x => x.start cmd 8 0x12 (fun _ _ => true) windowUnbindChecks windowUnbindWork))

end Sys2Proof.Machine
end

