-- ==== Sys2Proof/Machine/SyncUnit.lean ====
section
/-! DEFINITION. Unit 0x09, the sync unit (spec/11_scheduling_and_sync.md R305 to R313). -/

namespace Sys2Proof.Machine

/-- UNIT_INSTANCE of the sync unit (R308). -/
def syncInst : Nat := 0x60

/-- Body fields of Table — Sync command body reserved for an operation that uses only some of them (R308). -/
def syncRsv (d : Desc) (va value mask key part target link src : Bool) : List Chk :=
  (if va then [] else [dRsv d 0x20 64]) ++ (if value then [] else [dRsv d 0x28 64]) ++ (if mask then [] else [dRsv d 0x30 64]) ++
  (if key then [] else [dRsv d 0x38 32]) ++ (if part then [] else [dRsv d 0x3C 8]) ++ [dRsvBits d 0x3D 2 6] ++
  (if target then [] else [dRsvBits d 0x3D 1 1]) ++ (if link then [] else [dRsvBits d 0x3D 0 1]) ++
  (if src then [] else [dRsv d 0x3E 8]) ++ [dRsv d 0x3F 520]

/-- The checks of an operation on one sync word (R307, R308). -/
def wordChecks (value : Bool) (x : Half) (c : Cmd) : List Chk :=
  syncRsv c.desc true value false false false false false false ++
    [{ bad := decide (16384 ≤ x.waiters) && !(x.syncCan { c with st := .running }), st := stBusy, retry := some 1000 }]

/-- What the sync unit stages: nothing but its instance. -/
def syncWork (_ : Half) (_ : Cmd) (_ : Option Nat) : Work := { inst := syncInst }

/-- An operation on one sync word starts; it takes its effect when its word and its POST_OP's word allow (R306, R308). -/
def Half.startWord (x : Half) (cmd op : Nat) (value : Bool) : Half :=
  x.start cmd 9 op (fun _ _ => true) (wordChecks value) syncWork

/-- FILL (R305). -/
def execFill (h : HalfId) (cmd : Nat) (s : State) : Host.Outcome State Fault Refusal :=
  .next (s.mod h (fun x => x.startWord cmd 0x01 true))

/-- DRAIN (R305). -/
def execDrain (h : HalfId) (cmd : Nat) (s : State) : Host.Outcome State Fault Refusal :=
  .next (s.mod h (fun x => x.startWord cmd 0x02 false))

/-- WAIT_FULL (R305). -/
def execWaitFull (h : HalfId) (cmd : Nat) (s : State) : Host.Outcome State Fault Refusal :=
  .next (s.mod h (fun x => x.startWord cmd 0x03 false))

/-- WAIT_EMPTY (R305). -/
def execWaitEmpty (h : HalfId) (cmd : Nat) (s : State) : Host.Outcome State Fault Refusal :=
  .next (s.mod h (fun x => x.startWord cmd 0x04 false))

/-- PEEK (R305). -/
def execPeek (h : HalfId) (cmd : Nat) (s : State) : Host.Outcome State Fault Refusal :=
  .next (s.mod h (fun x => x.startWord cmd 0x05 false))

/-- A KEY above 1,023 (R309). -/
def keyLimit (d : Desc) : Chk := { bad := decide (1023 < df d 0x38 32), st := stLimit, off := 0x38 }

/-- The checks of SIGNAL_REMOTE (R308, R309). -/
def signalChecks (_ : Half) (c : Cmd) : List Chk := syncRsv c.desc false true false true false false true false ++ [keyLimit c.desc]

/-- The signal that crosses the link (R311). -/
def signalMsg (c : Cmd) : LinkMsg := .signal c.id c.client (df c.desc 0x38 32) (BitVec.ofNat 64 (df c.desc 0x28 64))

/-- SIGNAL_REMOTE: sends the value to an inbound slot across the link (R311). -/
def execSignalRemote (h : HalfId) (cmd : Nat) (s : State) : Host.Outcome State Fault Refusal :=
  let t := s.mod h (fun x => x.start cmd 9 0x10 (fun _ _ => true) signalChecks syncWork)
  .next (t.sendStarted h cmd (fun _ c => signalMsg c))

/-- The checks of REMOTE_BIND (R308, R309). -/
def remoteBindChecks (x : Half) (c : Cmd) : List Chk :=
  let d := c.desc
  let huddle := db d 0x3D 1
  syncRsv d (!huddle) huddle false true false true true true ++
    [{ bad := huddle && decide (df d 0x2C 32 ≠ 0), st := stMalformed, off := 0x28 }, keyLimit d,
     { bad := x.mem.inbound.any (fun i => i.num = df d 0x38 32), st := stBusy, retry := some 10000 }]

/-- The inbound slot that REMOTE_BIND binds (R309). -/
def boundSlot (c : Cmd) : Inbound :=
  let d := c.desc
  { num := df d 0x38 32, ctx := c.ctx, tether := db d 0x3D 0, src := df d 0x3E 8
    target := if db d 0x3D 1 then .huddle (df d 0x28 32) else .word (df d 0x20 64) }

/-- The work of REMOTE_BIND. -/
def remoteBindWork (_ : Half) (c : Cmd) (_ : Option Nat) : Work := { inst := syncInst, atOnce := true, eff := .inbound (boundSlot c) }

/-- REMOTE_BIND (R309). -/
def execRemoteBind (h : HalfId) (cmd : Nat) (s : State) : Host.Outcome State Fault Refusal :=
  .next (s.mod h (fun x => x.start cmd 9 0x11 (fun _ _ => true) remoteBindChecks remoteBindWork))

/-- The checks of REMOTE_UNBIND; a KEY above 1,023 names no slot and gives ST_LIMIT alone (R309). -/
def remoteUnbindChecks (x : Half) (c : Cmd) : List Chk :=
  syncRsv c.desc false false false true false false false false ++
    [{ bad := df c.desc 0x38 32 ≤ 1023 && !(x.mem.inbound.any (fun i => i.num = df c.desc 0x38 32 && i.ctx = c.ctx))
       st := stMalformed, off := 0x38 }, keyLimit c.desc]

/-- The work of REMOTE_UNBIND. -/
def remoteUnbindWork (_ : Half) (c : Cmd) (_ : Option Nat) : Work :=
  { inst := syncInst, atOnce := true, eff := .uninbound (df c.desc 0x38 32) }

/-- REMOTE_UNBIND (R309). -/
def execRemoteUnbind (h : HalfId) (cmd : Nat) (s : State) : Host.Outcome State Fault Refusal :=
  .next (s.mod h (fun x => x.start cmd 9 0x12 (fun _ _ => true) remoteUnbindChecks remoteUnbindWork))

/-- The checks of HUDDLE_OPEN (R308, R312, R313). -/
def huddleOpenChecks (x : Half) (c : Cmd) : List Chk :=
  let d := c.desc
  syncRsv d false false true true false false false false ++
    [{ bad := decide (fld d (8 * 0x30 + 45) 19 ≠ 0), st := stMalformed, off := 0x30 },
     { bad := decide (64 ≤ x.mem.huddles.length) || x.mem.huddles.any (fun k => k.ctx = c.ctx && k.key = df d 0x38 32)
       st := stBusy, retry := some 1000 },
     { bad := decide (df d 0x30 64 = 0), st := stEmpty }]

/-- The huddle that HUDDLE_OPEN opens; commands numbered below `upto` were fetched before it started (R312). -/
def openedHuddle (c : Cmd) (upto : Nat) : Huddle :=
  { ctx := c.ctx, key := df c.desc 0x38 32, mask := BitVec.ofNat 64 (df c.desc 0x30 64), cmd := c.id, upto := upto }

/-- A HUDDLE_OPEN that has started holds its huddle in progress. -/
def Half.addHuddle (x y : Half) (n : Nat) : Half :=
  match x.cmd n, y.cmd n with
  | some b, some c =>
    if b.st = .waiting && c.st = .running then
      ({ y with mem := { y.mem with huddles := y.mem.huddles ++ [openedHuddle c x.sched.nextCmd] } } : Half).settle
    else y
  | _, _ => y

/-- HUDDLE_OPEN: a huddle in progress that commits when every participant of MASK has arrived (R312, R313). -/
def execHuddleOpen (h : HalfId) (cmd : Nat) (s : State) : Host.Outcome State Fault Refusal :=
  .next (s.mod h (fun x => Half.addHuddle x (x.start cmd 9 0x20 (fun _ _ => true) huddleOpenChecks syncWork) cmd))

/-- The checks of HUDDLE_ARRIVE (R313); a bit that arrives by a remote signal is malformed (log 25). -/
def huddleArriveChecks (x : Half) (c : Cmd) : List Chk :=
  let d := c.desc
  let p := df d 0x3C 8
  let k := x.mem.huddles.find? (fun k => k.ctx = c.ctx && k.key = df d 0x38 32)
  syncRsv d false false false true true false false false ++
    [{ bad := k.any (fun k => !(bitAt k.mask p)) || !(18 ≤ p && p ≤ 35), st := stMalformed, off := 0x3C },
     { bad := k.isNone, st := stBusy, retry := some 100 }]

/-- The work of HUDDLE_ARRIVE. -/
def arriveWork (_ : Half) (c : Cmd) (_ : Option Nat) : Work :=
  { inst := syncInst, atOnce := true, eff := .arrive c.ctx (df c.desc 0x38 32) (df c.desc 0x3C 8) }

/-- HUDDLE_ARRIVE: the arrival of a core participant (R313). -/
def execHuddleArrive (h : HalfId) (cmd : Nat) (s : State) : Host.Outcome State Fault Refusal :=
  .next (s.mod h (fun x => x.start cmd 9 0x21 (fun _ _ => true) huddleArriveChecks arriveWork))

end Sys2Proof.Machine
end

