-- ==== Sys2Proof/Machine/Dispatch.lean ====
section
/-! DEFINITION. The meaning of every command: one arm per constructor of Instr, each one direct call. -/

namespace Sys2Proof.Machine

/-- The command's effect on everything but the queue. -/
def exec (i : Instr) (s : State) : Host.Outcome State Fault Refusal :=
  match i with
  | .mbxOwnerClaim h ag slot client => Sys2Proof.Machine.execMbxOwnerClaim h ag slot client s
  | .mbxOwnerRelease h ag slot => Sys2Proof.Machine.execMbxOwnerRelease h ag slot s
  | .mbxInWrite h ag slot wide word v => Sys2Proof.Machine.execMbxInWrite h ag slot wide word v s
  | .messageAcknowledge h => Sys2Proof.Machine.execMessageAcknowledge h s
  | .sysNop h slot => Sys2Proof.Machine.execSysNop h slot s
  | .sysIdentify h slot => Sys2Proof.Machine.execSysIdentify h slot s
  | .sysStatus h slot => Sys2Proof.Machine.execSysStatus h slot s
  | .clientRegister h slot => Sys2Proof.Machine.execClientRegister h slot s
  | .clientRelease h slot => Sys2Proof.Machine.execClientRelease h slot s
  | .ctxCreate h slot => Sys2Proof.Machine.execCtxCreate h slot s
  | .ctxDestroy h slot => Sys2Proof.Machine.execCtxDestroy h slot s
  | .queueCreate h slot => Sys2Proof.Machine.execQueueCreate h slot s
  | .queueDestroy h slot => Sys2Proof.Machine.execQueueDestroy h slot s
  | .queueBindDoorbell h slot => Sys2Proof.Machine.execQueueBindDoorbell h slot s
  | .tptMap h slot => Sys2Proof.Machine.execTptMap h slot s
  | .tptUnmap h slot => Sys2Proof.Machine.execTptUnmap h slot s
  | .clientCounters h slot => Sys2Proof.Machine.execClientCounters h slot s
  | .ovlSubmit h slot => Sys2Proof.Machine.execOvlSubmit h slot s
  | .overlayConfirmReceive h => Sys2Proof.Machine.execOverlayConfirmReceive h s
  | .ovlStatus h slot => Sys2Proof.Machine.execOvlStatus h slot s
  | .updStage h slot => Sys2Proof.Machine.execUpdStage h slot s
  | .updActivate h slot => Sys2Proof.Machine.execUpdActivate h slot s
  | .engRetire h slot => Sys2Proof.Machine.execEngRetire h slot s
  | .mapOut h slot => Sys2Proof.Machine.execMapOut h slot s
  | .evacuate h slot receiver gm copied => Sys2Proof.Machine.execEvacuate h slot receiver gm copied s
  | .evacuateAcceptReceive h => Sys2Proof.Machine.execEvacuateAcceptReceive h s
  | .evacuateCommitReceive h overlays commit => Sys2Proof.Machine.execEvacuateCommitReceive h overlays commit s
  | .safModeRequest h slot => Sys2Proof.Machine.execSafModeRequest h slot s
  | .safStatus h slot => Sys2Proof.Machine.execSafStatus h slot s
  | .safSelftestStatus h slot => Sys2Proof.Machine.execSafSelftestStatus h slot s
  | .secAttest h slot => Sys2Proof.Machine.execSecAttest h slot s
  | .secLifecycle h slot => Sys2Proof.Machine.execSecLifecycle h slot s
  | .secDebugAuth h slot => Sys2Proof.Machine.execSecDebugAuth h slot s
  | .secDebugEnd h slot => Sys2Proof.Machine.execSecDebugEnd h slot s
  | .pwrStateRequest h slot => Sys2Proof.Machine.execPwrStateRequest h slot s
  | .hibernateHoldExpiry h => Sys2Proof.Machine.execHibernateHoldExpiry h s
  | .pwrCapSet h slot => Sys2Proof.Machine.execPwrCapSet h slot s
  | .thmCoolantReport h slot => Sys2Proof.Machine.execThmCoolantReport h slot s
  | .timStatus h slot => Sys2Proof.Machine.execTimStatus h slot s
  | .timPortAsym h slot => Sys2Proof.Machine.execTimPortAsym h slot s
  | .ptnList h slot => Sys2Proof.Machine.execPtnList h slot s
  | .ptnRelease h slot => Sys2Proof.Machine.execPtnRelease h slot s
  | .lnkRetrain h slot => Sys2Proof.Machine.execLnkRetrain h slot s
  | .logRead h slot => Sys2Proof.Machine.execLogRead h slot s
  | .diagRun h slot pass => Sys2Proof.Machine.execDiagRun h slot pass s
  | .doorbellStore h ag d v => Sys2Proof.Machine.execDoorbellStore h ag d v s
  | .descriptorFetch h queue => Sys2Proof.Machine.execDescriptorFetch h queue s
  | .registerWrite h ag off size v => Sys2Proof.Machine.execRegisterWrite h ag off size v s
  | .qosRegisterWrite h ag off size v => Sys2Proof.Machine.execQosRegisterWrite h ag off size v s
  | .thmClusterMhzWrite h ag cluster mhz => Sys2Proof.Machine.execThmClusterMhzWrite h ag cluster mhz s
  | .timSyncLoad h ag size high => Sys2Proof.Machine.execTimSyncLoad h ag size high s
  | .remoteControlAccess h core client off size store => Sys2Proof.Machine.execRemoteControlAccess h core client off size store s
  | .nvctxWrite h core v => Sys2Proof.Machine.execNvctxWrite h core v s
  | .nvclassWrite h core v => Sys2Proof.Machine.execNvclassWrite h core v s
  | .apertureLoad h ap addr size => Sys2Proof.Machine.execApertureLoad h ap addr size s
  | .apertureStore h ap addr size v => Sys2Proof.Machine.execApertureStore h ap addr size v s
  | .gemm h cmd => Sys2Proof.Machine.execGemm h cmd s
  | .elementwise h cmd => Sys2Proof.Machine.execElementwise h cmd s
  | .reduce h cmd => Sys2Proof.Machine.execReduce h cmd s
  | .norm h cmd => Sys2Proof.Machine.execNorm h cmd s
  | .softmax h cmd => Sys2Proof.Machine.execSoftmax h cmd s
  | .convert h cmd => Sys2Proof.Machine.execConvert h cmd s
  | .warmup h n => Sys2Proof.Machine.execWarmup h n s
  | .quickWarmupSlice h => Sys2Proof.Machine.execQuickWarmupSlice h s
  | .quickWarmupForce h => Sys2Proof.Machine.execQuickWarmupForce h s
  | .warmupDeadlineKill h => Sys2Proof.Machine.execWarmupDeadlineKill h s
  | .conv h cmd => Sys2Proof.Machine.execConv h cmd s
  | .poolMax h cmd => Sys2Proof.Machine.execPoolMax h cmd s
  | .poolAvg h cmd => Sys2Proof.Machine.execPoolAvg h cmd s
  | .kvPoolInit h cmd => Sys2Proof.Machine.execKvPoolInit h cmd s
  | .kvPoolDestroy h cmd => Sys2Proof.Machine.execKvPoolDestroy h cmd s
  | .kvAppend h cmd => Sys2Proof.Machine.execKvAppend h cmd s
  | .kvPin h cmd => Sys2Proof.Machine.execKvPin h cmd s
  | .kvEvict h cmd => Sys2Proof.Machine.execKvEvict h cmd s
  | .kvCompact h cmd => Sys2Proof.Machine.execKvCompact h cmd s
  | .kvRelease h cmd => Sys2Proof.Machine.execKvRelease h cmd s
  | .attend h cmd => Sys2Proof.Machine.execAttend h cmd s
  | .attendBwd h cmd => Sys2Proof.Machine.execAttendBwd h cmd s
  | .gather h cmd => Sys2Proof.Machine.execGather h cmd s
  | .bagSum h cmd => Sys2Proof.Machine.execBagSum h cmd s
  | .bagMean h cmd => Sys2Proof.Machine.execBagMean h cmd s
  | .bagMax h cmd => Sys2Proof.Machine.execBagMax h cmd s
  | .hotLoad h cmd => Sys2Proof.Machine.execHotLoad h cmd s
  | .ingestBind h cmd => Sys2Proof.Machine.execIngestBind h cmd s
  | .ingestUnbind h cmd => Sys2Proof.Machine.execIngestUnbind h cmd s
  | .batch h cmd => Sys2Proof.Machine.execBatch h cmd s
  | .decodeComplete h cmd slot => Sys2Proof.Machine.execDecodeComplete h cmd slot s
  | .sampleBudgetExpiry h cmd slot => Sys2Proof.Machine.execSampleBudgetExpiry h cmd slot s
  | .batchBudgetExpiry h cmd => Sys2Proof.Machine.execBatchBudgetExpiry h cmd s
  | .swdecAttach h cmd => Sys2Proof.Machine.execSwdecAttach h cmd s
  | .swdecReturn h cmd => Sys2Proof.Machine.execSwdecReturn h cmd s
  | .swdecDetach h cmd => Sys2Proof.Machine.execSwdecDetach h cmd s
  | .swdecDeadlineExpiry h entry => Sys2Proof.Machine.execSwdecDeadlineExpiry h entry s
  | .fuseOpen h cmd => Sys2Proof.Machine.execFuseOpen h cmd s
  | .fuseClose h cmd => Sys2Proof.Machine.execFuseClose h cmd s
  | .fuseStep h cmd => Sys2Proof.Machine.execFuseStep h cmd s
  | .planOpen h cmd => Sys2Proof.Machine.execPlanOpen h cmd s
  | .planClose h cmd => Sys2Proof.Machine.execPlanClose h cmd s
  | .planStep h cmd => Sys2Proof.Machine.execPlanStep h cmd s
  | .copy h cmd => Sys2Proof.Machine.execCopy h cmd s
  | .copyOut h cmd => Sys2Proof.Machine.execCopyOut h cmd s
  | .remoteCopyReceive h tether => Sys2Proof.Machine.execRemoteCopyReceive h tether s
  | .remoteAnswerReceive h tether => Sys2Proof.Machine.execRemoteAnswerReceive h tether s
  | .windowBind h cmd => Sys2Proof.Machine.execWindowBind h cmd s
  | .windowUnbind h cmd => Sys2Proof.Machine.execWindowUnbind h cmd s
  | .fill h cmd => Sys2Proof.Machine.execFill h cmd s
  | .drain h cmd => Sys2Proof.Machine.execDrain h cmd s
  | .waitFull h cmd => Sys2Proof.Machine.execWaitFull h cmd s
  | .waitEmpty h cmd => Sys2Proof.Machine.execWaitEmpty h cmd s
  | .peek h cmd => Sys2Proof.Machine.execPeek h cmd s
  | .signalRemote h cmd => Sys2Proof.Machine.execSignalRemote h cmd s
  | .remoteSignalReceive h tether => Sys2Proof.Machine.execRemoteSignalReceive h tether s
  | .remoteBind h cmd => Sys2Proof.Machine.execRemoteBind h cmd s
  | .remoteUnbind h cmd => Sys2Proof.Machine.execRemoteUnbind h cmd s
  | .huddleOpen h cmd => Sys2Proof.Machine.execHuddleOpen h cmd s
  | .huddleArrive h cmd => Sys2Proof.Machine.execHuddleArrive h cmd s
  | .commandCommit h cmd => Sys2Proof.Machine.execCommandCommit h cmd s
  | .preemption h => Sys2Proof.Machine.execPreemption h s
  | .budgetExpiry h cmd => Sys2Proof.Machine.execBudgetExpiry h cmd s
  | .unitWatchdogExpiry h cmd => Sys2Proof.Machine.execUnitWatchdogExpiry h cmd s
  | .engineResetComplete h n => Sys2Proof.Machine.execEngineResetComplete h n s
  | .frameBoundary h => Sys2Proof.Machine.execFrameBoundary h s
  | .checkpointReceive h => Sys2Proof.Machine.execCheckpointReceive h s
  | .umpireVerdict h n out => Sys2Proof.Machine.execUmpireVerdict h n out s
  | .substituteReceive h => Sys2Proof.Machine.execSubstituteReceive h s
  | .gateClosedReceive h => Sys2Proof.Machine.execGateClosedReceive h s
  | .compareRecordReceive h => Sys2Proof.Machine.execCompareRecordReceive h s
  | .compareRecordTimeout h => Sys2Proof.Machine.execCompareRecordTimeout h s
  | .captainHeartbeatLoss h falls => Sys2Proof.Machine.execCaptainHeartbeatLoss h falls s
  | .refclkFailure h falls => Sys2Proof.Machine.execRefclkFailure h falls s
  | .supplyOutOfWindow h falls => Sys2Proof.Machine.execSupplyOutOfWindow h falls s
  | .junctionOvertemp h falls => Sys2Proof.Machine.execJunctionOvertemp h falls s
  | .hbmOvertemp h falls => Sys2Proof.Machine.execHbmOvertemp h falls s
  | .captainMemoryUe h falls => Sys2Proof.Machine.execCaptainMemoryUe h falls s
  | .umpireSelfFailure h => Sys2Proof.Machine.execUmpireSelfFailure h s
  | .pairLockstepDisagree h pair falls => Sys2Proof.Machine.execPairLockstepDisagree h pair falls s
  | .umpireHeartbeatReceive h bus => Sys2Proof.Machine.execUmpireHeartbeatReceive h bus s
  | .peerLoss h => Sys2Proof.Machine.execPeerLoss h s
  | .faultReceive h => Sys2Proof.Machine.execFaultReceive h s
  | .gatePermitExpiry h => Sys2Proof.Machine.execGatePermitExpiry h s
  | .selftestSlice h e ok pair falls => Sys2Proof.Machine.execSelftestSlice h e ok pair falls s
  | .selftestIntervalMissed h e => Sys2Proof.Machine.execSelftestIntervalMissed h e s
  | .calibrationSlice h item target result => Sys2Proof.Machine.execCalibrationSlice h item target result s
  | .memoryUeDetected h by' => Sys2Proof.Machine.execMemoryUeDetected h by' s
  | .correctedError h site => Sys2Proof.Machine.execCorrectedError h site s
  | .sramUncorrectable h site => Sys2Proof.Machine.execSramUncorrectable h site s
  | .scrubRead h stack frame block found => Sys2Proof.Machine.execScrubRead h stack frame block found s
  | .qosWindowEnd h busy => Sys2Proof.Machine.execQosWindowEnd h busy s
  | .portTransactionRequest h port blocks turn cmd core => Sys2Proof.Machine.execPortTransactionRequest h port blocks turn cmd core s
  | .portTransactionComplete h turn => Sys2Proof.Machine.execPortTransactionComplete h turn s
  | .captureWrite h c => Sys2Proof.Machine.execCaptureWrite h c s
  | .forwardedCaptureReceive h => Sys2Proof.Machine.execForwardedCaptureReceive h s
  | .arrivalMark h => Sys2Proof.Machine.execArrivalMark h s
  | .pcieEndpointDma h fn req => Sys2Proof.Machine.execPcieEndpointDma h fn req s
  | .siteDieWrite h ctx va data => Sys2Proof.Machine.execSiteDieWrite h ctx va data s
  | .siteDieFill h ctx va v => Sys2Proof.Machine.execSiteDieFill h ctx va v s
  | .ethReceiveFrame h port frame fcs t => Sys2Proof.Machine.execEthReceiveFrame h port frame fcs t s
  | .macTransmit h port ring t => Sys2Proof.Machine.execMacTransmit h port ring t s
  | .gptpSyncReceive h m twoStep origin corr => Sys2Proof.Machine.execGptpSyncReceive h m twoStep origin corr s
  | .gptpAnnounceReceive h m vec gm steps => Sys2Proof.Machine.execGptpAnnounceReceive h m vec gm steps s
  | .gptpPdelayReceive h m k => Sys2Proof.Machine.execGptpPdelayReceive h m k s
  | .gptpSyncTransmit h out => Sys2Proof.Machine.execGptpSyncTransmit h out s
  | .syncReceiptTimeout h => Sys2Proof.Machine.execSyncReceiptTimeout h s
  | .announceReceiptTimeout h port => Sys2Proof.Machine.execAnnounceReceiptTimeout h port s
  | .timeExchange h ps => Sys2Proof.Machine.execTimeExchange h ps s
  | .followerExchangeTimeout h => Sys2Proof.Machine.execFollowerExchangeTimeout h s
  | .startWaitExpiry h => Sys2Proof.Machine.execStartWaitExpiry h s
  | .halfReady h => Sys2Proof.Machine.execHalfReady h s
  | .mtimeCompare h pair cmp => Sys2Proof.Machine.execMtimeCompare h pair cmp s
  | .mbxHeartbeatTick h => Sys2Proof.Machine.execMbxHeartbeatTick h s
  | .flitCrcError h link again => Sys2Proof.Machine.execFlitCrcError h link again s
  | .laneFaultDetected h link lane rx bad => Sys2Proof.Machine.execLaneFaultDetected h link lane rx bad s
  | .sidebandLoss h link => Sys2Proof.Machine.execSidebandLoss h link s
  | .retrainComplete h link ok rate bad die => Sys2Proof.Machine.execRetrainComplete h link ok rate bad die s
  | .tetherLinkUp h rate bad => Sys2Proof.Machine.execTetherLinkUp h rate bad s
  | .tetherIdentityReceive h serial half report => Sys2Proof.Machine.execTetherIdentityReceive h serial half report s
  | .partnerAbsentTimeout h n => Sys2Proof.Machine.execPartnerAbsentTimeout h n s
  | .quarantineReleaseTimeout h n => Sys2Proof.Machine.execQuarantineReleaseTimeout h n s
  | .mgmtAlertResponse h => Sys2Proof.Machine.execMgmtAlertResponse h s
  | .tapInstruction h op => Sys2Proof.Machine.execTapInstruction h op s
  | .powerSample h power => Sys2Proof.Machine.execPowerSample h power s
  | .forcedDimRelease h => Sys2Proof.Machine.execForcedDimRelease h s
  | .thermalLimitUpdate h => Sys2Proof.Machine.execThermalLimitUpdate h s
  | .thetaEstimate h p tj tm tin => Sys2Proof.Machine.execThetaEstimate h p tj tm tin s
  | .thetaProbe h => Sys2Proof.Machine.execThetaProbe h s
  | .temperatureSample h pairs stks => Sys2Proof.Machine.execTemperatureSample h pairs stks s
  | .coolantReportTimeout h => Sys2Proof.Machine.execCoolantReportTimeout h s
  | .domainPowerGood h d => Sys2Proof.Machine.execDomainPowerGood h d s
  | .wakePin h => Sys2Proof.Machine.execWakePin h s
  | .wakeTimerExpiry h => Sys2Proof.Machine.execWakeTimerExpiry h s
  | .peerWake h => Sys2Proof.Machine.execPeerWake h s
  | .devicePowerOn lifeA umpA lifeB umpB => Sys2Proof.Machine.execDevicePowerOn lifeA umpA lifeB umpB s
  | .pwrOkFall => Sys2Proof.Machine.execPwrOkFall s
  | .halfResetAssert h => Sys2Proof.Machine.execHalfResetAssert h s
  | .halfResetRelease h lifeOk umpOk => Sys2Proof.Machine.execHalfResetRelease h lifeOk umpOk s
  | .fieldDebugTimeSave h => Sys2Proof.Machine.execFieldDebugTimeSave h s
  | .fieldDebugExpiry h => Sys2Proof.Machine.execFieldDebugExpiry h s
  | .debugLevelExpiry h => Sys2Proof.Machine.execDebugLevelExpiry h s
  | .uploadStageIdleTimeout h => Sys2Proof.Machine.execUploadStageIdleTimeout h s
  | .transferStageIdleTimeout h => Sys2Proof.Machine.execTransferStageIdleTimeout h s
  | .attestBucketRefill h => Sys2Proof.Machine.execAttestBucketRefill h s
  | .treeGenerationComplete h => Sys2Proof.Machine.execTreeGenerationComplete h s
  | .keygenComplete h => Sys2Proof.Machine.execKeygenComplete h s
  | .ethLinkChange h port up => Sys2Proof.Machine.execEthLinkChange h port up s
  | .rootPortLinkDown h fn => Sys2Proof.Machine.execRootPortLinkDown h fn s
  | .tetherLinkDown h => Sys2Proof.Machine.execTetherLinkDown h s
  | .gptpFollowUpReceive h m origin corr => Sys2Proof.Machine.execGptpFollowUpReceive h m origin corr s
  | .pdelayReqTransmit h port t => Sys2Proof.Machine.execPdelayReqTransmit h port t s
  | .announceTransmit h port => Sys2Proof.Machine.execAnnounceTransmit h port s
  | .umpireHeartbeatSend h => Sys2Proof.Machine.execUmpireHeartbeatSend h s
  | .gatePermitRefresh h => Sys2Proof.Machine.execGatePermitRefresh h s
  | .subsystemResetComplete h code => Sys2Proof.Machine.execSubsystemResetComplete h code s
  | .frameMoveComplete h => Sys2Proof.Machine.execFrameMoveComplete h s
  | .linkRecoveryCauseClear h => Sys2Proof.Machine.execLinkRecoveryCauseClear h s
  | .bridgeFrameReceive h => Sys2Proof.Machine.execBridgeFrameReceive h s
  | .mgmtBusFramingError h tool => Sys2Proof.Machine.execMgmtBusFramingError h tool s

end Sys2Proof.Machine
end

