-- ==== Sys2Proof/Machine/Idle.lean ====
section
/-! DEFINITION. What passes while no command waits: the clocks of the block run (log 1). -/

namespace Sys2Proof.Machine

/-- One nanosecond of a half: a running time unit counts its local counter (spec/16_time_and_ethernet.md R411), and the Umpire, which
has its own oscillator in the always-on domain, its own time (spec/18_safety.md R439). -/
def Half.tick (x : Half) : Half :=
  { x with
    tim := { x.tim with local' := if x.tim.running then x.tim.local' + 1 else x.tim.local' }
    ump := { x.ump with clock := x.ump.clock + 1 } }

/-- One nanosecond of the device: nothing runs before the rise of PWR_OK (spec/22_package_and_electrical.md R544). -/
def State.tick (s : State) : State :=
  if s.dev.pwrOk then { s with a := s.a.tick, b := s.b.tick } else s

end Sys2Proof.Machine
end

