-- ==== Sys2Proof/WellFormed.lean ====
section
/-! DEFINITION. Which commands are well formed: every operand lies in the range the spec gives it. The meanings are total and do not
ask for it: an operand outside its range names nothing in the state, and the command then leaves what it would have changed
(log 2). -/

namespace Sys2Proof

/-- An access of 1, 2, 4 or 8 bytes (spec/00_scope.md R6, spec/14_cores.md R366). -/
def okSize (n : Nat) : Bool := n = 1 || n = 2 || n = 4 || n = 8

/-- Stack 0 or 1 and slice 0 to 11 (spec/12_memory_system.md R314, R317). -/
def QTarget.wf : QTarget → Bool
  | .dram s => decide (s < 2)
  | .slice n => decide (n < 12)
  | .network => true

/-- Fills are scaled to 8 bits. -/
def RtFill.wf (f : RtFill) : Bool := decide (f.camera < 256) && decide (f.ether < 256) && decide (f.cores < 256) && decide (f.fusion < 256)

/-- Core 0 to 15 with a client 0 to 255, pair 0 or 1, or a tool's 7-bit bus address (spec/14_cores.md R360, R369). -/
def Agent.wf : Agent → Bool
  | .core n c => decide (n < 16) && decide (c < 256)
  | .pair n => decide (n < 2)
  | .tool a => decide (a < 128)

/-- Core or pair of an aperture (spec/14_cores.md R363, R370). -/
def Aperture.wf : Aperture → Bool
  | .system k => decide (k < 16)
  | .client k => decide (k < 16)
  | .window p => decide (p < 2)
  | .tcm p => decide (p < 2)
  | .coreMap k => decide (k < 16)
  | .pairMap p => decide (p < 2)

/-- A copy names a client and a window (spec/12_memory_system.md R339). -/
def RemoteCopy.wf (r : RemoteCopy) : Bool := decide (r.client < 256) && decide (r.window < 256)

/-- A signal names a client and a slot (spec/11_scheduling_and_sync.md R309). -/
def RemoteSignal.wf (r : RemoteSignal) : Bool := decide (r.client < 256) && decide (r.slot < 1024)

/-- A status with which the far side of a copy or a signal answers (spec/12_memory_system.md Table — Remote copy outcomes,
spec/11_scheduling_and_sync.md R311): ST_OK, ST_DISCARDED, ST_DATA_LOST, ST_MALFORMED, ST_DENIED or ST_BUSY. -/
def okAnswer (st : Nat) : Bool := st ∈ [0x0000, 0x0011, 0x0020, 0x0031, 0x0060, 0x0070]

/-- An answer carries such a status. -/
def RemoteAnswer.wf (r : RemoteAnswer) : Bool := okAnswer r.status && decide (r.retry < 2 ^ 32)

/-- A format code of the output, an element and the FP32 code of a magnitude (spec/03_arithmetic_formats.md R66, R88). -/
def WarmElem.wf (w : WarmElem) : Bool :=
  w.fmt ∈ [0x01, 0x02, 0x03, 0x08, 0x09, 0x0A, 0x0B, 0x0C, 0x0D, 0x0E, 0x10, 0x11, 0x14, 0x18] && decide (w.y < 2 ^ 32) &&
    decide (w.yScale < 256) && decide (w.r < 2 ^ 32) && decide (w.rScale < 256) && decide (w.mag < 2 ^ 31)

/-- A location of spec/12_memory_system.md R333. -/
def CorrSite.wf : CorrSite → Bool
  | .dram st f b p => decide (st < 2) && decide (f < 64373) && decide (b < 8192) && decide (p < 64)
  | .cache s _ w => decide (s < 12) && decide (w < 16)
  | .scratch e => decide (e < 18)
  | .store w _ => decide (3 ≤ w) && decide (w ≤ 6)

/-- A location of spec/12_memory_system.md R332. -/
def SramSite.wf : SramSite → Bool
  | .cleanLine s => decide (s < 12)
  | .dirtyLine s c va => decide (s < 12) && decide (c < 4096) && decide (va < 2 ^ 48)
  | .staged s _ => decide (s < 12)
  | .tptEntry s => decide (s < 12)
  | .syncWord s p w => decide (s < 12) && decide (p < 16) && decide (w < 65536)
  | .scratch e => decide (e < 18)
  | .hotRow s c va => decide (s < 12) && decide (c < 4096) && decide (va < 2 ^ 48)
  | .fuseParams => true
  | .track _ => true
  | .planTree => true
  | .planFamily _ => true

/-- A block of a command's memory, or of a frame (spec/12_memory_system.md R318, R319). -/
def UeReader.wf : UeReader → Bool
  | .command _ va => decide (va < 2 ^ 48)
  | .readBack st f b => decide (st < 2) && decide (f < 64373) && decide (b < 8192)

/-- A DQ pin of a pseudo-channel (spec/12_memory_system.md R327). -/
def Scrub.wf : Scrub → Bool
  | .clean => true
  | .corrected p => decide (p < 64)
  | .uncorrectable => true

/-- A context and a virtual address within 48 bits (spec/12_memory_system.md R319). -/
def EndpointReq.wf : EndpointReq → Bool
  | .write c va d => decide (c < 4096) && decide (va + d.length ≤ 2 ^ 48)
  | .read c va n => decide (c < 4096) && decide (va + n ≤ 2 ^ 48)
  | .outside _ => true
  | .malformed => true
  | .unexpected => true

/-- A source of a capture (spec/08_input_pipeline.md R201). -/
def Capture.wf (c : Capture) : Bool :=
  (decide (c.source < 8) || (decide (32 ≤ c.source) && decide (c.source < 64))) && decide (c.select < 65536) && decide (c.w < 65536) &&
    decide (c.h < 65536)

/-- A port, a MAC address, a domain and a sequenceId (spec/16_time_and_ethernet.md R407). -/
def Ptp.wf (m : Ptp) : Bool :=
  decide (m.port < 5) && decide (m.src < 2 ^ 48) && decide (m.domain < 256) && decide (m.seq < 65536)

/-- Core, pair, address and register of a TAP instruction (spec/19_security_debug_power.md R485). -/
def TapOp.wf : TapOp → Bool
  | .idcode => true
  | .bypass => true
  | .sample => true
  | .extest => true
  | .observe => true
  | .captain _ => true
  | .core n _ => decide (n < 16)
  | .pair n _ => decide (n < 2)
  | .read c va n => decide (c < 4096) && decide (va + n ≤ 2 ^ 48)
  | .write c va d => decide (c < 4096) && decide (va + d.length ≤ 2 ^ 48)
  | .load off n => decide (off < 268435456) && okSize n
  | .store off n v => decide (off < 268435456) && okSize n && decide (v < 2 ^ (8 * n))
  | .priv => true

/-- Every operand of the command lies in its range. -/
def Instr.wf : Instr → Bool
  | .mbxOwnerClaim _ ag slot _ => ag.wf && decide (slot < 64)
  | .mbxOwnerRelease _ ag slot => ag.wf && decide (slot < 64)
  | .mbxInWrite _ ag slot wide word _ => ag.wf && decide (slot < 64) && decide (word < (if wide then 8 else 16))
  | .messageAcknowledge _ => true
  | .sysNop _ slot => decide (slot < 64)
  | .sysIdentify _ slot => decide (slot < 64)
  | .sysStatus _ slot => decide (slot < 64)
  | .clientRegister _ slot => decide (slot < 64)
  | .clientRelease _ slot => decide (slot < 64)
  | .ctxCreate _ slot => decide (slot < 64)
  | .ctxDestroy _ slot => decide (slot < 64)
  | .queueCreate _ slot => decide (slot < 64)
  | .queueDestroy _ slot => decide (slot < 64)
  | .queueBindDoorbell _ slot => decide (slot < 64)
  | .tptMap _ slot => decide (slot < 64)
  | .tptUnmap _ slot => decide (slot < 64)
  | .clientCounters _ slot => decide (slot < 64)
  | .ovlSubmit _ slot => decide (slot < 64)
  | .overlayConfirmReceive _ => true
  | .ovlStatus _ slot => decide (slot < 64)
  | .updStage _ slot => decide (slot < 64)
  | .updActivate _ slot => decide (slot < 64)
  | .engRetire _ slot => decide (slot < 64)
  | .mapOut _ slot => decide (slot < 64)
  | .evacuate _ slot _ _ copied => decide (slot < 64) && okAnswer copied
  | .evacuateAcceptReceive _ => true
  | .evacuateCommitReceive _ _ _ => true
  | .safModeRequest _ slot => decide (slot < 64)
  | .safStatus _ slot => decide (slot < 64)
  | .safSelftestStatus _ slot => decide (slot < 64)
  | .secAttest _ slot => decide (slot < 64)
  | .secLifecycle _ slot => decide (slot < 64)
  | .secDebugAuth _ slot => decide (slot < 64)
  | .secDebugEnd _ slot => decide (slot < 64)
  | .pwrStateRequest _ slot => decide (slot < 64)
  | .hibernateHoldExpiry _ => true
  | .pwrCapSet _ slot => decide (slot < 64)
  | .thmCoolantReport _ slot => decide (slot < 64)
  | .timStatus _ slot => decide (slot < 64)
  | .timPortAsym _ slot => decide (slot < 64)
  | .ptnList _ slot => decide (slot < 64)
  | .ptnRelease _ slot => decide (slot < 64)
  | .lnkRetrain _ slot => decide (slot < 64)
  | .logRead _ slot => decide (slot < 64)
  | .diagRun _ slot _ => decide (slot < 64)
  | .doorbellStore _ ag d _ => ag.wf && decide (d < 4096)
  | .descriptorFetch _ queue => decide (queue < 524288)
  | .registerWrite _ ag off size v => ag.wf && decide (off < 268435456) && okSize size && decide (v < 2 ^ (8 * size))
  | .qosRegisterWrite _ ag off size v => ag.wf && decide (off < 1048576) && okSize size && decide (v < 2 ^ (8 * size))
  | .thmClusterMhzWrite _ ag cluster _ => ag.wf && decide (cluster < 4)
  | .timSyncLoad _ ag size high => ag.wf && okSize size && (decide (size = 4) || !high)
  | .remoteControlAccess _ core client off size store => decide (core < 16) && decide (off < 268435456) && okSize size && decide (client < 256) && store.all (fun v => decide (v < 2 ^ (8 * size)))
  | .nvctxWrite _ core _ => decide (core < 16)
  | .nvclassWrite _ core _ => decide (core < 16)
  | .apertureLoad _ ap addr size => ap.wf && okSize size && decide (addr < 2 ^ 48)
  | .apertureStore _ ap addr size v => ap.wf && okSize size && decide (v < 2 ^ (8 * size)) && decide (addr < 2 ^ 48)
  | .gemm _ _ => true
  | .elementwise _ _ => true
  | .reduce _ _ => true
  | .norm _ _ => true
  | .softmax _ _ => true
  | .convert _ _ => true
  | .warmup _ n => decide (n < 18)
  | .quickWarmupSlice _ => true
  | .quickWarmupForce _ => true
  | .warmupDeadlineKill _ => true
  | .conv _ _ => true
  | .poolMax _ _ => true
  | .poolAvg _ _ => true
  | .kvPoolInit _ _ => true
  | .kvPoolDestroy _ _ => true
  | .kvAppend _ _ => true
  | .kvPin _ _ => true
  | .kvEvict _ _ => true
  | .kvCompact _ _ => true
  | .kvRelease _ _ => true
  | .attend _ _ => true
  | .attendBwd _ _ => true
  | .gather _ _ => true
  | .bagSum _ _ => true
  | .bagMean _ _ => true
  | .bagMax _ _ => true
  | .hotLoad _ _ => true
  | .ingestBind _ _ => true
  | .ingestUnbind _ _ => true
  | .batch _ _ => true
  | .decodeComplete _ _ slot => decide (slot < 1024)
  | .sampleBudgetExpiry _ _ slot => decide (slot < 1024)
  | .batchBudgetExpiry _ _ => true
  | .swdecAttach _ _ => true
  | .swdecReturn _ _ => true
  | .swdecDetach _ _ => true
  | .swdecDeadlineExpiry _ entry => decide (entry < 1024)
  | .fuseOpen _ _ => true
  | .fuseClose _ _ => true
  | .fuseStep _ _ => true
  | .planOpen _ _ => true
  | .planClose _ _ => true
  | .planStep _ _ => true
  | .copy _ _ => true
  | .copyOut _ _ => true
  | .remoteCopyReceive _ tether => tether.all RemoteCopy.wf
  | .remoteAnswerReceive _ tether => tether.all RemoteAnswer.wf
  | .windowBind _ _ => true
  | .windowUnbind _ _ => true
  | .fill _ _ => true
  | .drain _ _ => true
  | .waitFull _ _ => true
  | .waitEmpty _ _ => true
  | .peek _ _ => true
  | .signalRemote _ _ => true
  | .remoteSignalReceive _ tether => tether.all RemoteSignal.wf
  | .remoteBind _ _ => true
  | .remoteUnbind _ _ => true
  | .huddleOpen _ _ => true
  | .huddleArrive _ _ => true
  | .commandCommit _ _ => true
  | .preemption _ => true
  | .budgetExpiry _ _ => true
  | .unitWatchdogExpiry _ _ => true
  | .engineResetComplete _ n => decide (n < 18)
  | .frameBoundary _ => true
  | .checkpointReceive _ => true
  | .umpireVerdict _ n out => decide (n < 18) && !out.isEmpty && out.all WarmElem.wf
  | .substituteReceive _ => true
  | .gateClosedReceive _ => true
  | .compareRecordReceive _ => true
  | .compareRecordTimeout _ => true
  | .captainHeartbeatLoss _ _ => true
  | .refclkFailure _ _ => true
  | .supplyOutOfWindow _ _ => true
  | .junctionOvertemp _ _ => true
  | .hbmOvertemp _ _ => true
  | .captainMemoryUe _ _ => true
  | .umpireSelfFailure _ => true
  | .pairLockstepDisagree _ pair _ => decide (pair < 2)
  | .umpireHeartbeatReceive _ _ => true
  | .peerLoss _ => true
  | .faultReceive _ => true
  | .gatePermitExpiry _ => true
  | .selftestSlice _ e _ pair _ => decide (pair < 2) && decide (e < 10)
  | .selftestIntervalMissed _ e => decide (e < 10)
  | .calibrationSlice _ item _ _ => decide (item < 5)
  | .memoryUeDetected _ by' => by'.wf
  | .correctedError _ site => site.wf
  | .sramUncorrectable _ site => site.wf
  | .scrubRead _ stack frame block found => found.wf && decide (stack < 2) && decide (frame < 64373) && decide (block < 8192)
  | .qosWindowEnd _ _ => true
  | .portTransactionRequest _ port blocks turn _ core =>
    decide (port < 38) && decide (1 ≤ blocks) && decide (blocks ≤ 4) && turn.target.wf && turn.fill.wf && core.all (fun k => decide (k < 16))
  | .portTransactionComplete _ turn => turn.target.wf && turn.fill.wf
  | .captureWrite _ c => c.wf
  | .forwardedCaptureReceive _ => true
  | .arrivalMark _ => true
  | .pcieEndpointDma _ _ req => req.wf
  | .siteDieWrite _ ctx va data => decide (ctx < 4096) && decide (va + data.length ≤ 2 ^ 48)
  | .siteDieFill _ ctx va _ => decide (ctx < 4096) && decide (va < 2 ^ 48)
  | .ethReceiveFrame _ port frame _ _ => decide (port < 5) && decide (frame.length ≤ 65535)
  | .macTransmit _ port ring _ => decide (port < 5) && decide (ring < 4)
  | .gptpSyncReceive _ m _ _ _ => m.wf
  | .gptpAnnounceReceive _ m _ _ steps => m.wf && decide (steps < 65536)
  | .gptpPdelayReceive _ m _ => m.wf
  | .gptpSyncTransmit _ out => decide (out.port < 5)
  | .syncReceiptTimeout _ => true
  | .announceReceiptTimeout _ port => decide (port < 5)
  | .timeExchange _ _ => true
  | .followerExchangeTimeout _ => true
  | .startWaitExpiry _ => true
  | .halfReady _ => true
  | .mtimeCompare _ pair _ => decide (pair < 2)
  | .mbxHeartbeatTick _ => true
  | .flitCrcError _ link _ => decide (link < 19)
  | .laneFaultDetected _ link lane _ _ => decide (link < 19) && decide (lane < 256)
  | .sidebandLoss _ link => decide (link < 19)
  | .retrainComplete _ link _ rate _ die => decide (link < 19) && decide (rate ∈ [0, 4, 8, 12, 16, 24, 32]) && decide (die.length ≤ 64)
  | .tetherLinkUp _ rate _ => decide (rate < 256)
  | .tetherIdentityReceive _ _ half _ => decide (half < 2)
  | .partnerAbsentTimeout _ n => decide (n < 256)
  | .quarantineReleaseTimeout _ n => decide (n < 256)
  | .mgmtAlertResponse _ => true
  | .tapInstruction _ op => op.wf
  | .powerSample _ _ => true
  | .forcedDimRelease _ => true
  | .thermalLimitUpdate _ => true
  | .thetaEstimate _ _ _ _ _ => true
  | .thetaProbe _ => true
  | .temperatureSample _ pairs stks => decide (pairs.length = 32) && decide (stks.length = 2)
  | .coolantReportTimeout _ => true
  | .domainPowerGood _ d => decide (1 ≤ d) && decide (d < 56)
  | .wakePin _ => true
  | .wakeTimerExpiry _ => true
  | .peerWake _ => true
  | .devicePowerOn _ _ _ _ => true
  | .pwrOkFall => true
  | .halfResetAssert _ => true
  | .halfResetRelease _ _ _ => true
  | .fieldDebugTimeSave _ => true
  | .fieldDebugExpiry _ => true
  | .debugLevelExpiry _ => true
  | .uploadStageIdleTimeout _ => true
  | .transferStageIdleTimeout _ => true
  | .attestBucketRefill _ => true
  | .treeGenerationComplete _ => true
  | .keygenComplete _ => true
  | .ethLinkChange _ port _ => decide (port < 5)
  | .rootPortLinkDown _ _ => true
  | .tetherLinkDown _ => true
  | .gptpFollowUpReceive _ m _ _ => m.wf
  | .pdelayReqTransmit _ port _ => decide (port < 5)
  | .announceTransmit _ port => decide (port < 5)
  | .umpireHeartbeatSend _ => true
  | .gatePermitRefresh _ => true
  | .subsystemResetComplete _ code => decide (code < 256)
  | .frameMoveComplete _ => true
  | .linkRecoveryCauseClear _ => true
  | .bridgeFrameReceive _ => true
  | .mgmtBusFramingError _ tool => decide (tool < 128)

end Sys2Proof
end

