-- ==== Sys2Proof/Safety.lean ====
section
/-! DEFINITION. The terms in which claims about the block are made: which message a command executes and when it is sent as the spec
asks, what a running block keeps, and the canonical form of its memories. -/

namespace Sys2Proof.Machine

/-! ### Messages -/

/-- The commands that execute a message of a slot: half, slot and opcode (spec/02_captain_and_mailboxes.md R48). PWR_STATE_REQUEST and
DIAG_RUN, which do so only in part of their states, are stated on their own. -/
def msgCmd : Instr → Option (HalfId × Nat × Nat)
  | .sysNop h k => some (h, k, 0x0100)
  | .sysIdentify h k => some (h, k, 0x0101)
  | .sysStatus h k => some (h, k, 0x0102)
  | .clientRegister h k => some (h, k, 0x0201)
  | .clientRelease h k => some (h, k, 0x0202)
  | .ctxCreate h k => some (h, k, 0x0203)
  | .ctxDestroy h k => some (h, k, 0x0204)
  | .queueCreate h k => some (h, k, 0x0205)
  | .queueDestroy h k => some (h, k, 0x0206)
  | .queueBindDoorbell h k => some (h, k, 0x0207)
  | .tptMap h k => some (h, k, 0x0208)
  | .tptUnmap h k => some (h, k, 0x0209)
  | .clientCounters h k => some (h, k, 0x020A)
  | .ovlSubmit h k => some (h, k, 0x0301)
  | .ovlStatus h k => some (h, k, 0x0302)
  | .updStage h k => some (h, k, 0x0401)
  | .updActivate h k => some (h, k, 0x0402)
  | .engRetire h k => some (h, k, 0x0403)
  | .mapOut h k => some (h, k, 0x0404)
  | .evacuate h k _ _ _ => some (h, k, 0x0405)
  | .safModeRequest h k => some (h, k, 0x0501)
  | .safStatus h k => some (h, k, 0x0502)
  | .safSelftestStatus h k => some (h, k, 0x0503)
  | .secAttest h k => some (h, k, 0x0601)
  | .secLifecycle h k => some (h, k, 0x0602)
  | .secDebugAuth h k => some (h, k, 0x0603)
  | .secDebugEnd h k => some (h, k, 0x0604)
  | .pwrCapSet h k => some (h, k, 0x0702)
  | .thmCoolantReport h k => some (h, k, 0x0703)
  | .timStatus h k => some (h, k, 0x0801)
  | .timPortAsym h k => some (h, k, 0x0802)
  | .ptnList h k => some (h, k, 0x0901)
  | .ptnRelease h k => some (h, k, 0x0902)
  | .lnkRetrain h k => some (h, k, 0x0903)
  | .logRead h k => some (h, k, 0x0A01)
  | _ => none

/-- The message of a slot is ready to execute and its header is as the spec asks (R7, R37 to R40, R44, R45, R47): not a repeat, sent by
the owner of the slot, a registered client with the right to send it, the short form of `len` bytes, reserved fields zero, naming a
context of its own where the opcode works on one and context 0 otherwise, with room among the long messages, and no re-issue before its
RETRY_AFTER has passed (R64). -/
def Half.sends (x : Half) (slot op len : Nat) : Bool :=
  let m := x.msg slot
  x.msgReady slot op && !(x.slot slot).isReplay && decide (msgClient m = (x.slot slot).ownerClient.toNat) &&
    x.senderOk slot (msgClient m) op && (if slot < 60 then (x.client (msgClient m)).isSome else decide (msgClient m = 0)) &&
    (if ctxOp op then x.ownsCtx (msgClient m) (msgCtx m) else decide (msgCtx m = 0)) && !msgLong m && decide (fld m 19 13 = 0) &&
    decide (fld m 92 4 = 0) && decide (fld m 104 24 = 0) && decide (msgLen m = len) &&
    (decide (op ∉ longOpcodes) || decide (x.longRunning < 4)) && (x.msgHeld m).isNone

/-- The same for the long form (R40): a pointer record of buffers that are mapped in a context of the sender, within the limits. -/
def Half.sendsLong (x : Half) (slot op maxIn : Nat) : Bool :=
  let m := x.msg slot
  x.msgReady slot op && !(x.slot slot).isReplay && decide (msgClient m = (x.slot slot).ownerClient.toNat) &&
    x.senderOk slot (msgClient m) op && decide (slot < 60) && (x.client (msgClient m)).isSome &&
    x.ownsCtx (msgClient m) (msgCtx m) && msgLong m && decide (fld m 19 13 = 0) && decide (fld m 92 4 = 0) &&
    decide (fld m 104 24 = 0) && decide (msgLen m = 0x18) && (decide (op ∉ longOpcodes) || decide (x.longRunning < 4)) &&
    (x.msgHeld m).isNone && decide (inAddr m < vaLimit) && decide (outAddr m < vaLimit) && decide (inLen m ≤ maxIn) && decide (outLen m ≤ 67108864) &&
    x.mapped (msgCtx m) (inAddr m) (inLen m) && (x.firstBad (msgCtx m) [(inAddr m, inLen m)]).isNone &&
    x.writable (msgCtx m) (outAddr m) (outLen m)

/-- The message of a slot has been taken up and waits for what completes it. -/
def State.holdMsg (s : State) (h : HalfId) (slot : Nat) : State :=
  s.mod h (fun y => y.modSlot slot (fun k => { k with started := true }))

/-! ### Data commands -/

/-- What is an operation's own in the start of a data command (spec/11_scheduling_and_sync.md R290, R291, spec/02 R55): its unit and
operation, its condition for starting, its checks, its work, and what its start does beside the shared course of a start. -/
structure Start where
  /-- The half. -/
  half : HalfId
  /-- The command in flight. -/
  cmd : Nat
  /-- UNIT. -/
  unit : Nat
  /-- OP. -/
  op : Nat
  /-- The checks beyond those of every descriptor. -/
  chk : Half → Cmd → List Chk
  /-- What the unit stages. -/
  work : Half → Cmd → Option Nat → Work
  /-- The unit's own condition for starting. -/
  ok : Half → Cmd → Bool := fun _ _ => true
  /-- What the arrival does before the command is placed. -/
  pre : Half → Half := fun x => x
  /-- What follows the start, from the half before it and the half after it. -/
  post : Half → Half → Half := fun _ y => y
  /-- What crosses a link once the command has started. -/
  send : Option (Half → Cmd → LinkMsg) := none

/-- The state in which a start leaves the block: `f` on the half, then what follows it. -/
def Start.finish (k : Start) (s : State) (f : Half → Half) : State :=
  let t := s.mod k.half (fun x => k.post x (f (k.pre x)))
  match k.send with
  | some m => t.sendStarted k.half k.cmd m
  | none => t

/-- The data commands that a queue brings and the scheduler starts (units 0x01 to 0x09). -/
def dataCmd : Instr → Option Start
  | .gemm h n => some {
      half := h, cmd := n, unit := 1, op := 0x01
      chk := tAll gemmChecks, work := tRun gemmPred gemmOut, pre := fun x => x.quickArrives n, post := fun x y => Half.admitB x y n }
  | .elementwise h n => some {
      half := h, cmd := n, unit := 1, op := 0x10
      chk := tAll vecChecks, work := tRun vecCycles elemOut, pre := fun x => x.quickArrives n }
  | .reduce h n => some {
      half := h, cmd := n, unit := 1, op := 0x11
      chk := tAll vecChecks, work := tRun vecCycles reduceOut, pre := fun x => x.quickArrives n }
  | .norm h n => some {
      half := h, cmd := n, unit := 1, op := 0x12
      chk := tAll vecChecks, work := tRun vecCycles normOut, pre := fun x => x.quickArrives n }
  | .softmax h n => some {
      half := h, cmd := n, unit := 1, op := 0x13
      chk := tAll vecChecks, work := tRun vecCycles softmaxOut, pre := fun x => x.quickArrives n }
  | .convert h n => some {
      half := h, cmd := n, unit := 1, op := 0x20
      chk := tAll vecChecks, work := tRun vecCycles convertOut, pre := fun x => x.quickArrives n }
  | .conv h n => some { half := h, cmd := n, unit := 2, op := 0x01, chk := cvAll convChecks, work := cvRun convCycles convOut }
  | .poolMax h n => some { half := h, cmd := n, unit := 2, op := 0x10, chk := cvAll poolChecks, work := cvRun poolCycles poolMaxOut }
  | .poolAvg h n => some { half := h, cmd := n, unit := 2, op := 0x11, chk := cvAll poolChecks, work := cvRun poolCycles poolAvgOut }
  | .kvPoolInit h n => some { half := h, cmd := n, unit := 3, op := 0x01, chk := poolInitChecks, work := poolInitWork }
  | .kvPoolDestroy h n => some {
      half := h, cmd := n, unit := 3, op := 0x02
      chk := poolDestroyChecks, work := poolDestroyWork, ok := poolIdle }
  | .kvAppend h n => some { half := h, cmd := n, unit := 3, op := 0x10, chk := appendChecks, work := appendWork }
  | .kvPin h n => some { half := h, cmd := n, unit := 3, op := 0x11, chk := pinChecks, work := pinWork }
  | .kvEvict h n => some { half := h, cmd := n, unit := 3, op := 0x12, chk := evictChecks, work := evictWork }
  | .kvCompact h n => some { half := h, cmd := n, unit := 3, op := 0x13, chk := compactChecks, work := compactWork }
  | .kvRelease h n => some { half := h, cmd := n, unit := 3, op := 0x14, chk := releaseChecks, work := releaseWork }
  | .attend h n => some { half := h, cmd := n, unit := 3, op := 0x20, chk := attendChecks, work := attendWork }
  | .attendBwd h n => some { half := h, cmd := n, unit := 3, op := 0x21, chk := bwdChecks, work := bwdWork }
  | .gather h n => some { half := h, cmd := n, unit := 4, op := 0x01, chk := gChecks, work := gWork, ok := gatherRoom }
  | .bagSum h n => some { half := h, cmd := n, unit := 4, op := 0x02, chk := gChecks, work := gWork, ok := gatherRoom }
  | .bagMean h n => some { half := h, cmd := n, unit := 4, op := 0x03, chk := gChecks, work := gWork, ok := gatherRoom }
  | .bagMax h n => some { half := h, cmd := n, unit := 4, op := 0x04, chk := gChecks, work := gWork, ok := gatherRoom }
  | .hotLoad h n => some { half := h, cmd := n, unit := 4, op := 0x10, chk := gChecks, work := gWork, ok := gatherRoom }
  | .ingestBind h n => some { half := h, cmd := n, unit := 5, op := 0x01, chk := bindChecks, work := bindWork }
  | .ingestUnbind h n => some { half := h, cmd := n, unit := 5, op := 0x02, chk := unbindChecks, work := unbindWork, ok := unbindMay }
  | .batch h n => some {
      half := h, cmd := n, unit := 5, op := 0x10
      chk := batchChecks, work := batchWork, ok := Half.batchMay, post := fun x y => Half.stateLost x (Half.enqueueBatch x y n) n }
  | .swdecAttach h n => some { half := h, cmd := n, unit := 5, op := 0x20, chk := attachChecks, work := attachWork }
  | .swdecReturn h n => some {
      half := h, cmd := n, unit := 5, op := 0x21
      chk := returnChecks, work := returnWork, post := fun x y => Half.takeSw x y n }
  | .swdecDetach h n => some { half := h, cmd := n, unit := 5, op := 0x22, chk := detachChecks, work := detachWork }
  | .fuseOpen h n => some { half := h, cmd := n, unit := 6, op := 0x01, chk := fuseOpenChecks, work := fuseOpenWork }
  | .fuseClose h n => some { half := h, cmd := n, unit := 6, op := 0x02, chk := fuseCloseChecks, work := fuseCloseWork }
  | .fuseStep h n => some {
      half := h, cmd := n, unit := 6, op := 0x10
      chk := fuseStepChecks, work := fuseWork, post := fun x y => Half.mendGrid x y n }
  | .planOpen h n => some { half := h, cmd := n, unit := 7, op := 0x01, chk := planOpenChecks, work := planOpenWork }
  | .planClose h n => some { half := h, cmd := n, unit := 7, op := 0x02, chk := planCloseChecks, work := planCloseWork }
  | .planStep h n => some {
      half := h, cmd := n, unit := 7, op := 0x10
      chk := planStepChecks, work := planStepWork, post := fun x y => Half.beginSearch x y n }
  | .copy h n => some { half := h, cmd := n, unit := 8, op := 0x01, chk := copyInChecks, work := copyWork }
  | .copyOut h n => some { half := h, cmd := n, unit := 8, op := 0x10, chk := copyChecks, work := copyOutWork, send := some copyMsg }
  | .windowBind h n => some { half := h, cmd := n, unit := 8, op := 0x11, chk := windowBindChecks, work := windowBindWork }
  | .windowUnbind h n => some { half := h, cmd := n, unit := 8, op := 0x12, chk := windowUnbindChecks, work := windowUnbindWork }
  | .fill h n => some { half := h, cmd := n, unit := 9, op := 0x01, chk := wordChecks true, work := syncWork }
  | .drain h n => some { half := h, cmd := n, unit := 9, op := 0x02, chk := wordChecks false, work := syncWork }
  | .waitFull h n => some { half := h, cmd := n, unit := 9, op := 0x03, chk := wordChecks false, work := syncWork }
  | .waitEmpty h n => some { half := h, cmd := n, unit := 9, op := 0x04, chk := wordChecks false, work := syncWork }
  | .peek h n => some { half := h, cmd := n, unit := 9, op := 0x05, chk := wordChecks false, work := syncWork }
  | .signalRemote h n => some {
      half := h, cmd := n, unit := 9, op := 0x10
      chk := signalChecks, work := syncWork, send := some (fun _ c => signalMsg c) }
  | .remoteBind h n => some { half := h, cmd := n, unit := 9, op := 0x11, chk := remoteBindChecks, work := remoteBindWork }
  | .remoteUnbind h n => some { half := h, cmd := n, unit := 9, op := 0x12, chk := remoteUnbindChecks, work := remoteUnbindWork }
  | .huddleOpen h n => some {
      half := h, cmd := n, unit := 9, op := 0x20
      chk := huddleOpenChecks, work := syncWork, post := fun x y => Half.addHuddle x y n }
  | .huddleArrive h n => some { half := h, cmd := n, unit := 9, op := 0x21, chk := huddleArriveChecks, work := arriveWork }
  | _ => none

/-- The scheduler starts the data command now (R290, R291): the half runs, the descriptor is of the operation's unit, it is the next that
the scheduler takes for its resource, the unit's own condition holds and the unit is not being reset. -/
def Start.starts (k : Start) (x : Half) (c : Cmd) : Bool :=
  x.alive && decide (dUnit c.desc = k.unit) && decide (dOp c.desc = k.op) && x.picks c && k.ok x c && !x.unitDown c

/-! ### Memory -/

/-- The model's place of the byte at a virtual address that lies in a frame page. -/
def Half.phys (x : Half) (ctx va : Nat) : Option Nat :=
  match x.tptAt ctx va with
  | some { dest := .frame st f, .. } => some (physAddr st f (va % pageBytes))
  | _ => none

/-! ### Invariants -/

/-- The memories of a half are in canonical form: DRAM and the pairs' tightly coupled memories. -/
def Half.canonical (x : Half) : Bool := Memory.wf x.mem.cells && x.cores.pairs.all (fun p => Memory.wf p.tcm)

/-- The memories of both halves are in canonical form. -/
def State.canonical (s : State) : Bool := s.a.canonical && s.b.canonical

/-- HALF_ID of each half is hard-wired (spec/00_scope.md R4). -/
def State.named (s : State) : Bool := decide (s.a.me = .a) && decide (s.b.me = .b)

/-- The parts of a half of which the spec fixes the number: 64 mailbox slots, 18 engines, 16 application cores, 2 real-time pairs, 38
master ports of 8 classes, 19 links, 5 Ethernet ports and 256 partner entries. -/
def Half.shaped (x : Half) : Bool :=
  decide (x.mbx.slots.length = 64) && decide (x.sched.engines.length = 18) && decide (x.cores.app.length = 16) &&
    decide (x.cores.pairs.length = 2) && decide (x.qos.ports.length = 38) && decide (x.qos.classes.length = 8) &&
    decide (x.links.recs.length = 19) && decide (x.timx.ports.length = 5) && decide (x.ptn.entries.length = 256)

/-- Both halves have their parts. -/
def State.shaped (s : State) : Bool := s.a.shaped && s.b.shaped

end Sys2Proof.Machine
end

