-- ==== Sys2Proof/Certificates/Slice0/Obligations.lean ====
section
/-! DEFINITION. The statements for the provers. -/

open Sys2Proof Sys2Proof.Machine

/-! ### The step, the reset and what every step keeps -/

/-- A step with a command at the front of the queue is the command's effect on the state with the queue's rest. -/
def Obligations.StepRunsFrontCommand : Prop :=
  ∀ (c : Instr) (rest : List Instr) (s : State), s.pending = c :: rest → step s = exec c { s with pending := rest }

/-- No command ends in a fault, and only Nirlevan's private TAP instructions are refused (R485): every other command answers a next
state in every state, and no command changes the model's queue of waiting commands. -/
def Obligations.OnlyPrivateTapIsRefused : Prop :=
  ∀ (c : Instr) (s : State),
    (∃ t, exec c s = .next t ∧ t.pending = s.pending) ∨
      (∃ h, c = .tapInstruction h .priv ∧ exec c s = .refused .privateTap)

/-- What a step keeps, from every state and not only from those that a run reaches: the canonical form of the memories, of DRAM and of
the real-time pairs. -/
def Obligations.StepKeepsMemoryCanonical : Prop :=
  ∀ s t : State, s.canonical = true → step s = .next t → t.canonical = true

/-- HALF_ID is hard-wired (R4): a step keeps it, in every state in which it is right; and it keeps the number of the parts that the spec
fixes (R5, R33, R359, R397, R423). -/
def Obligations.StepKeepsShape : Prop :=
  ∀ s t : State, step s = .next t → (s.named = true → t.named = true) ∧ (s.shaped = true → t.shaped = true)

/-- The state after reset has the invariants that every step keeps.
After reset every register that a table of the spec gives a reset value holds it (Tables — Mailbox registers, Engine status
window, Regulator registers, Link registers, Clock registers, Partner registers, Umpire registers, Power and thermal registers). -/
def Obligations.ResetHoldsInvariantsAndTableValues : Prop :=
  (State.reset.canonical = true ∧ State.reset.named = true ∧ State.reset.shaped = true) ∧
  (∀ h : HalfId,
      let x := State.reset.half h
      x.mbx = {} ∧ (∀ k, x.slot k = {}) ∧ x.mbx.heartbeat = 0 ∧
      (∀ n < 18, (x.engine n).num = n ∧ (x.engine n).st = .off ∧ (x.engine n).commits = 0 ∧ (x.engine n).clockMhz = 0) ∧
      x.qos.causes = 1 ∧ x.qos.windowUs = 0xA ∧ x.qos.irqEnable = 0 ∧
      (∀ p < 38, ((x.qos.ports[p]?).getD {}).fixedCls = (if p = 23 ∨ p = 24 then 7 else if p = 37 then 0 else 2)) ∧
      (∀ i < 19, x.link i = {}) ∧ (x.link 0).st = .training ∧ x.tim.st = .unset ∧ x.tim.stepped = false ∧
      (∀ n < 256, (x.partner n).st = .empty ∧ (x.partner n).viol = 0) ∧ x.ump.role = 0 ∧ x.ump.gates = 0 ∧
      x.ump.events = 0 ∧ x.pow.cap = 0xC80 ∧ x.pow.coolant = 0x410 ∧ x.pow.age = 0xFFFF ∧ x.pow.domains = 1)


/-! ### Mailboxes and messages (spec/02_captain_and_mailboxes.md) -/

/-- MBX_OWNER_CLAIM and MBX_OWNER_RELEASE complete: a store of MBX_OWNER with VALID = 1 by an agent that reaches the slot makes a FREE slot
OWNED by the client it names, one with VALID = 0 makes an OWNED or DONE slot FREE with MBX_IN and MBX_OUT cleared, and either is ignored in
every other state of the slot (R35, Table — Slot state transitions); no other slot and no other part of the state changes. That the
released slot reads client 0 is the model's choice (log 83). A core's or pair's store to the page of a slot that it does not reach is
dropped and logged as a violation of class 0x0A, and a tool's is not answered (R33). -/
def Obligations.OwnerStoresFollowSlotTable : Prop :=
  ∀ (h : HalfId) (ag : Agent) (slot : Nat) (client : BitVec 8) (s : State),
    let x := s.half h
    let k := x.slot slot
    let put := fun (j : Slot) => Host.Outcome.next (s.mod h (fun y => y.modSlot slot (fun _ => j)))
    let vio := Host.Outcome.next (s.mod h (fun y => y.ctrlVio ag 1 (0x100000 + slot * 0x1000 + 0x80)))
    x.alive = true → x.toolIgnored ag = false →
    (reaches ag slot = true →
      (k.st = .free → exec (.mbxOwnerClaim h ag slot client) s =
        put { k with st := .owned, ownerValid := true, ownerClient := client
                     tool := match ag with
                       | .tool a => a
                       | _ => 0 }) ∧
      (k.st ≠ .free → exec (.mbxOwnerClaim h ag slot client) s = .next s) ∧
      (k.st = .owned ∨ k.st = .done → exec (.mbxOwnerRelease h ag slot) s =
        put { k with st := .free, inb := 0, outb := 0, ownerValid := false, ownerClient := 0, fromDone := false, started := false
                     freeOnDone := false, waits := false, rung := 0 }) ∧
      (k.st ≠ .owned → k.st ≠ .done → exec (.mbxOwnerRelease h ag slot) s = .next s)) ∧
    (reaches ag slot = false →
      ((∀ a, ag ≠ .tool a) → exec (.mbxOwnerClaim h ag slot client) s = vio ∧ exec (.mbxOwnerRelease h ag slot) s = vio) ∧
      (∀ a, ag = .tool a → exec (.mbxOwnerClaim h ag slot client) s = .next s ∧ exec (.mbxOwnerRelease h ag slot) s = .next s))

/-- MBX_IN_WRITE completes: a 64-bit or 32-bit write of a word of MBX_IN by an agent that reaches the slot changes the bytes of that word
of the message of a slot that is OWNED or DONE, and no other byte; it is ignored in every other state of the slot (R34); no other slot
and no other part of the state changes. A core's or pair's write to the page of a slot that it does not reach is dropped and logged as a
violation of class 0x0A, and a tool's is not answered (R33). -/
def Obligations.InboundWriteOnlyWhenOwnedOrDone : Prop :=
  ∀ (h : HalfId) (ag : Agent) (slot word : Nat) (wide : Bool) (v : BitVec 64) (s : State),
    let x := s.half h
    let k := x.slot slot
    let n := if wide then 8 else 4
    let run := exec (.mbxInWrite h ag slot wide word v) s
    x.alive = true → x.toolIgnored ag = false → word < 64 / n →
    (reaches ag slot = true →
      (k.st = .owned ∨ k.st = .done → ∃ m : Msg, run = .next (s.mod h (fun y => y.modSlot slot (fun _ => { k with inb := m }))) ∧
        (∀ i < n, fld m (8 * (n * word + i)) 8 = fld v (8 * i) 8) ∧
        (∀ i < 64, i / n ≠ word → fld m (8 * i) 8 = fld k.inb (8 * i) 8)) ∧
      (k.st ≠ .owned → k.st ≠ .done → run = .next s)) ∧
    (reaches ag slot = false →
      ((∀ a, ag ≠ .tool a) → run = .next (s.mod h (fun y => y.ctrlVio ag 1 (0x100000 + slot * 0x1000 + word * n)))) ∧
      (∀ a, ag = .tool a → run = .next s))

/-- MESSAGE_ACKNOWLEDGE: the Captain takes the message whose doorbell arrived first; its slot becomes ACKED, and with IRQ_ACK set the
slot's interrupt bit is set (R42, R43, Table — Slot state transitions). -/
def Obligations.CaptainTakesOldestMessage : Prop :=
  ∀ (h : HalfId) (k : Nat) (rest : List Nat) (s : State),
    (s.half h).captainRuns = true → (s.half h).mbx.posted = k :: rest → k < (s.half h).mbx.slots.length →
    msgOp ((s.half h).msg k) ∈ opcodes →
    ∃ t, exec (.messageAcknowledge h) s = .next t ∧ ((t.half h).slot k).st = .acked ∧
      ((t.half h).slot k).inb = ((s.half h).slot k).inb ∧ (t.half h).mbx.posted = rest ∧
      (t.half h).mbx.acked = (s.half h).mbx.acked ++ [k] ∧
      (∀ j, j ≠ k → (t.half h).slot j = (s.half h).slot j) ∧
      (t.half h).mbx.irqStatus = (if msgIrqAck ((s.half h).msg k) ∧ k < 60 then (s.half h).mbx.irqStatus ||| (1#64 <<< k)
        else (s.half h).mbx.irqStatus) ∧
      (t.half h).mem = (s.half h).mem ∧ (t.half h).sched = (s.half h).sched ∧ t.half (other h) = s.half (other h)

/-- A repeat of OPCODE and SEQUENCE in a slot posted from DONE is answered with the stored outbound message and not executed (R45):
memory, contexts, queues and every register but the mailbox block's are as before.
A message whose CLIENT_ID differs from the owner of its slot, whose CONTEXT_ID names a context that the client does not own (R39), or
of a group that Table — Sender rights does not allow its sender (R47), completes with ST_DENIED and has no other effect. -/
def Obligations.RepeatedAndDeniedMessagesAreNotExecuted : Prop :=
  (∀ (c : Instr) (h : HalfId) (slot op : Nat) (s : State),
      msgCmd c = some (h, slot, op) → (s.half h).msgReady slot op = true → ((s.half h).slot slot).isReplay = true →
      ((s.half h).slot slot).freeOnDone = false →
      ∃ t, exec c s = .next t ∧ ((t.half h).slot slot).st = .done ∧ ((t.half h).slot slot).outb = ((s.half h).slot slot).outb ∧
        ((t.half h).slot slot).lastSeq = ((s.half h).slot slot).lastSeq ∧
        (t.half h).mem = (s.half h).mem ∧ (t.half h).sched = (s.half h).sched ∧ (t.half h).ptn = (s.half h).ptn ∧
        (t.half h).qos = (s.half h).qos ∧ (t.half h).pow = (s.half h).pow ∧ t.half (other h) = s.half (other h) ∧ t.dev = s.dev) ∧
  (∀ (c : Instr) (h : HalfId) (slot op : Nat) (s : State),
      msgCmd c = some (h, slot, op) → (s.half h).msgReady slot op = true → ((s.half h).slot slot).isReplay = false →
      (msgClient ((s.half h).msg slot) ≠ ((s.half h).slot slot).ownerClient.toNat ∨
        ((msgCtx ((s.half h).msg slot) ≠ 0 ∨ ctxOp op = true ∨ msgLong ((s.half h).msg slot) = true) ∧
          (s.half h).ownsCtx (msgClient ((s.half h).msg slot)) (msgCtx ((s.half h).msg slot)) = false) ∨
        (s.half h).senderOk slot (msgClient ((s.half h).msg slot)) op = false) →
      exec c s = .next (s.mod h (fun x => x.finish slot stDenied [])))

/-- What the end of a message does (R35, R37): the slot is DONE, or FREE when its owner was released (R36); the outbound header echoes
OPCODE, SEQUENCE, CONTEXT_ID and CLIENT_ID and carries the status; MBX_LAST_SEQ is updated; with IRQ_DONE set on slots 0 to 59 the
slot's interrupt bit is set; memory, contexts and queues are as before.
Of the failing checks of a message or command the one reported has the status that comes first in the order of R9, and among
those of its status none names a lower field. -/
def Obligations.MessagesEndWithHeaderAndFirstStatus : Prop :=
  (∀ (x : Half) (slot st : Nat) (fields : List (Nat × Nat × Nat)),
      slot < x.mbx.slots.length → st < 65536 →
      let y := x.finish slot st fields
      let m := x.msg slot
      ((x.slot slot).freeOnDone = false →
        (y.slot slot).st = .done ∧ fld (y.slot slot).outb 0 16 = msgOp m ∧ fld (y.slot slot).outb 32 32 = msgSeq m ∧
        fld (y.slot slot).outb 80 12 = msgCtx m ∧ fld (y.slot slot).outb 96 8 = msgClient m ∧
        fld (y.slot slot).outb 16 16 = st ∧ (y.slot slot).lastSeq = BitVec.ofNat 32 (msgSeq m)) ∧
      ((x.slot slot).freeOnDone = true → (y.slot slot).st = .free ∧ (y.slot slot).inb = 0 ∧ (y.slot slot).outb = 0) ∧
      (∀ k, k ≠ slot → y.slot k = x.slot k) ∧
      y.mbx.irqStatus = (if msgIrqDone m ∧ slot < 60 then x.mbx.irqStatus ||| (1#64 <<< slot) else x.mbx.irqStatus) ∧
      y.mem = x.mem ∧ y.sched = x.sched) ∧
  (∀ (l : List Chk),
      (worst l = none ↔ ∀ d ∈ l, d.bad = false) ∧
      (∀ c, worst l = some c → c ∈ l ∧ c.bad = true ∧
        ∀ d ∈ l, d.bad = true → statusRank c.st < statusRank d.st ∨ (statusRank c.st = statusRank d.st ∧ c.off ≤ d.off)))


/-! ### System messages, clients, contexts and queues (spec/02_captain_and_mailboxes.md, spec/11_scheduling_and_sync.md) -/

/-- SYS_NOP completes with ST_OK and a payload of zeros, SYS_IDENTIFY with the identification record (R4), SYS_STATUS with
Table — SYS_STATUS payload as of one instant (R49); none of them changes anything else.
CLIENT_REGISTER with quotas in range makes a client with the lowest free ID of 1 to 255 and zero counters (R50, R299); CTX_CREATE
within quota makes a context of the requested tier, for CHAIN and REALTIME only where the configuration names the client (R286, R51);
QUEUE_CREATE on mapped rings within quota makes an empty queue (R52, R54); QUEUE_BIND_DOORBELL makes a doorbell of the client's page
direct for one queue (R53, R57); CLIENT_COUNTERS returns the four counters and their snapshot time (R300). Nothing else changes but
the slot. -/
def Obligations.SystemAndClientMessagesComplete : Prop :=
  ∀ (h : HalfId) (slot : Nat) (s : State),
    let x := s.half h
    let m := x.msg slot
    let cl := msgClient m
    (x.sends slot 0x0100 0 = true → exec (.sysNop h slot) s = .next (s.mod h (fun y => y.finish slot stOk []))) ∧
    (x.sends slot 0x0101 0 = true → exec (.sysIdentify h slot) s = .next (s.mod h (fun y => y.finish slot stOk
      [(0x00, 16, 0x8400), (0x02, 8, 0xB0), (0x03, 8, 0x01), (0x04, 8, halfCode x.me), (0x08, 32, x.ident.captainFw.toNat),
       (0x0C, 32, x.ident.baseImage.toNat), (0x10, 64, s.dev.serial.toNat)]))) ∧
    (x.sends slot 0x0102 0 = true → exec (.sysStatus h slot) s = .next (s.mod h (fun y => y.finish slot stOk
      [(0x00, 8, match s.dev.mode with
          | .dual => 0
          | .mirror => 1
          | .solo => 2),
       (0x01, 8, if s.dev.evacuated then 0xFF else halfCode s.dev.chain), (0x02, 8, pwrCode x.pow.st),
       (0x03, 8, otherState x (s.half (other h))), (0x04, 8, x.sec.life), (0x05, 8, x.cfg.mode),
       (0x06, 16, b2n (s.dev.change.isSome || s.dev.rejoin.isSome) + 2 * b2n s.dev.evacuated), (0x08, 64, x.frame),
       (0x10, 32, x.cfg.frameRate)]))) ∧
    (x.sends slot 0x0201 8 = true → payBits m 2 0 16 = 0 → 1 ≤ pay m 0 16 → pay m 0 16 ≤ 4095 → 1 ≤ pay m 4 32 →
      pay m 4 32 ≤ 524288 → x.sched.clients.length < 256 →
      let id := (lowestFree (x.sched.clients.map (·.id)) 1 255).getD 0
      exec (.clientRegister h slot) s = .next (s.mod h (fun y =>
        ({ y with sched := { y.sched with clients := y.sched.clients ++
            [{ id := id, maxCtx := pay m 0 16, maxQ := pay m 4 32 }] } } : Half).finish slot stOk [(0, 8, id)]))) ∧
    (x.sends slot 0x0203 8 = true → payBits m 0 2 6 = 0 → payBits m 1 0 56 = 0 →
      (payBits m 0 0 2 = 0 → cl ∈ x.cfg.chainClients) → (payBits m 0 0 2 = 1 → cl ∈ x.cfg.rtClients) →
      (cl ≠ 0 → ∀ k, x.client cl = some k → x.ctxCount cl < k.maxCtx) → x.sched.ctxs.length < 4096 →
      let id := (lowestFree (x.sched.ctxs.map (·.id)) 1 4095).getD 0
      exec (.ctxCreate h slot) s = .next (s.mod h (fun y =>
        ({ y with sched := { y.sched with ctxs := y.sched.ctxs ++
            [{ id := id, client := cl, tier := payBits m 0 0 2 }] } } : Half).finish slot stOk [(0, 12, id)]))) ∧
    (x.sends slot 0x0205 0x20 = true → payBits m 0x19 0 56 = 0 → 4 ≤ pay m 0x18 8 → pay m 0x18 8 ≤ 16 →
      pay m 0 64 < vaLimit → pay m 0 64 % 4096 = 0 → x.mappedPlain (msgCtx m) (pay m 0 64) (2 ^ pay m 0x18 8 * 128) = true →
      pay m 8 64 < vaLimit → pay m 8 64 % 4096 = 0 → x.writable (msgCtx m) (pay m 8 64) (2 ^ pay m 0x18 8 * 32) = true →
      pay m 0x10 64 < vaLimit → pay m 0x10 64 % 64 = 0 → x.writable (msgCtx m) (pay m 0x10 64) 64 = true →
      (cl ≠ 0 → ∀ k, x.client cl = some k → x.queueCount cl < k.maxQ) → x.sched.queues.length < 524288 →
      let id := (lowestFree (x.sched.queues.map (·.id)) 0 524288).getD 0
      exec (.queueCreate h slot) s = .next (s.mod h (fun y =>
        ({ y with sched := { y.sched with queues := y.sched.queues ++
            [{ id := id, ctx := msgCtx m, cmdRing := pay m 0 64, cplRing := pay m 8 64, header := pay m 0x10 64
               log2 := pay m 0x18 8, tail := 0, cmdHead := 0, doorbell := none }] } } : Half).finish slot stOk [(0, 19, id)]))) ∧
    (x.sends slot 0x0207 8 = true → payBits m 0 19 13 = 0 → payBits m 6 0 16 = 0 → pay m 4 16 / 16 = cl → pay m 4 16 % 16 ≠ 15 →
      (∃ q, x.queueOf m = some q ∧ q.doorbell = none) → (∀ q ∈ x.sched.queues, q.doorbell ≠ some (pay m 4 16)) →
      exec (.queueBindDoorbell h slot) s = .next (s.mod h (fun y =>
        (y.modQueue (payBits m 0 0 19) (fun q => { q with doorbell := some (pay m 4 16) })).finish slot stOk []))) ∧
    (x.sends slot 0x020A 1 = true → (cl ≠ 0 → pay m 0 8 = cl) →
      ∀ k, x.client (pay m 0 8) = some k →
      exec (.clientCounters h slot) s = .next (s.mod h (fun y => y.finish slot stOk
        [(0x00, 64, k.submitted.toNat), (0x08, 64, k.completed.toNat), (0x10, 64, k.killed.toNat), (0x18, 64, k.discarded.toNat),
         (0x20, 64, x.st)])))

/-- QUEUE_DESTROY ends the queue's in-flight commands with ST_DISCARDED and removes it (R53); CTX_DESTROY tears the named context down
(R288, R297); CLIENT_RELEASE, from the system client, tears every context of the client down, frees its slots and removes it (R36,
R288); waiters that this frees are released before the message completes. -/
def Obligations.TeardownMessagesComplete : Prop :=
  ∀ (h : HalfId) (slot : Nat) (s : State),
    let x := s.half h
    let m := x.msg slot
    (x.sends slot 0x0206 4 = true → payBits m 0 19 13 = 0 → (x.queueOf m).isSome = true →
      exec (.queueDestroy h slot) s = .next (s.mod h (fun y =>
        let z := y.endCmds ((y.sched.cmds.filter (fun c => c.queue = payBits m 0 0 19)).map (·.id)) stDiscarded
        (({ z with sched := { z.sched with
            queues := z.sched.queues.filter (fun q => q.id ≠ payBits m 0 0 19) } } : Half).settle).finish slot stOk []))) ∧
    (x.sends slot 0x0204 0 = true → msgCtx m ≠ 0 →
      exec (.ctxDestroy h slot) s = .next (s.mod h (fun y => ((y.teardown (msgCtx m)).settle).finish slot stOk []))) ∧
    (x.sends slot 0x0202 1 = true → pay m 0 8 ≠ 0 → (x.client (pay m 0 8)).isSome = true →
      exec (.clientRelease h slot) s = .next (s.mod h (fun y => ((y.releaseClient (pay m 0 8)).settle).finish slot stOk [])))

/-- A torn-down context is gone with all it owned (R297, Table — Context teardown): its queues, pages, in-flight commands, sessions,
pools, bindings, windows, inbound slots, huddles, hot rows and residents; every other context keeps its pages and its queues. -/
def Obligations.TeardownRemovesWhatContextOwns : Prop :=
  ∀ (x : Half) (c : Nat),
    let y := x.teardown c
    y.ctx c = none ∧ (∀ q ∈ y.sched.queues, q.ctx ≠ c) ∧ (∀ t ∈ y.mem.tpt, t.ctx ≠ c) ∧ (∀ k ∈ y.sched.cmds, k.ctx ≠ c) ∧
    (∀ f, y.sched.fusion = some f → f.ctx ≠ c) ∧ (∀ p, y.sched.plan = some p → p.ctx ≠ c) ∧
    (∀ p ∈ y.sched.pools, p.ctx ≠ c) ∧ (∀ b ∈ y.sched.pipe.bindings, b.ctx ≠ c) ∧ (∀ w ∈ y.mem.windows, w.ctx ≠ c) ∧
    (∀ i ∈ y.mem.inbound, i.ctx ≠ c) ∧ (∀ k ∈ y.mem.huddles, k.ctx ≠ c) ∧ (∀ e ∈ y.sched.hot.entries, e.ctx ≠ c) ∧
    (∀ r ∈ y.sched.residents, r.ctx ≠ c) ∧
    (∀ d, d ≠ c → y.ctx d = x.ctx d ∧ (y.mem.tpt.filter (fun t => t.ctx = d)) = (x.mem.tpt.filter (fun t => t.ctx = d)) ∧
      (y.sched.queues.filter (fun q => q.ctx = d)).map (·.id) = (x.sched.queues.filter (fun q => q.ctx = d)).map (·.id))

/-- DOORBELL_STORE (R56 to R58): the queue it rings is the one bound to the doorbell, or for a shared doorbell the one that the store
names, when that queue is the storing client's and has no direct doorbell. A store whose advance and occupancy lie within the entry
count makes DBL_TAIL the queue's tail, one with an advance of zero leaves every queue as it is, and so does one beyond either; no other
queue changes. A store to the page of another client is dropped and logged; a tool reaches no doorbell (R33). Memory and the commands in
flight do not change. -/
def Obligations.DoorbellAdvancesTail : Prop :=
  ∀ (h : HalfId) (ag : Agent) (d : Nat) (v : BitVec 64) (s : State) (q : Queue),
    let x := s.half h
    let off := 0x700000 + d * 0x100
    let tail : BitVec 32 := v.extractLsb' 32 32
    let fits := (tail - q.cmdHead).toNat ≤ 2 ^ q.log2 ∧ (tail - q.tail).toNat ≤ 2 ^ q.log2
    x.alive = true → d < 4096 →
    (∀ a, ag = .tool a → exec (.doorbellStore h ag d v) s = .next s) ∧
    ((∀ a, ag ≠ .tool a) → x.agentClient ag ≠ some (d / 16) → exec (.doorbellStore h ag d v) s =
      .next (s.mod h (fun y => y.ctrlVio ag 3 off))) ∧
    (x.agentClient ag = some (d / 16) →
      (x.sched.queues.find? (fun k => k.doorbell = some d) = some q ∨
        (x.sched.queues.find? (fun k => k.doorbell = some d) = none ∧ x.sched.queues.find? (fun k =>
          k.id = fld v 0 19 && k.doorbell.isNone && x.ctxClient k.ctx = d / 16) = some q)) →
      ∃ t, exec (.doorbellStore h ag d v) s = .next t ∧
        (fits → tail ≠ q.tail → (∀ k ∈ (t.half h).sched.queues, k.id = q.id → k.tail = tail) ∧
          (t.half h).sched.queues.filter (fun k => k.id ≠ q.id) = x.sched.queues.filter (fun k => k.id ≠ q.id)) ∧
        (fits → tail = q.tail → (t.half h).sched.queues = x.sched.queues ∧ (t.half h).ptn = x.ptn) ∧
        (¬ fits → (t.half h).sched.queues = x.sched.queues) ∧
        (t.half h).mem.cells = x.mem.cells ∧ (t.half h).sched.cmds = x.sched.cmds ∧ t.half (other h) = s.half (other h))

/-- DESCRIPTOR_FETCH takes the next descriptor of a queue with a command and a free completion entry (R54, R55): a command of the
queue's context is in flight with the 128 bytes of the ring entry, CMD_HEAD has advanced by one and stands in the ring header, and the
client has one more job submitted. A queue with no descriptor or no free completion entry fetches nothing. -/
def Obligations.FetchTakesNextDescriptor : Prop :=
  ∀ (h : HalfId) (n : Nat) (s : State) (q : Queue),
    let x := s.half h
    let y := x.readCplHead q
    let k := (y.queue n).getD q
    let idx := k.cmdHead.toNat % 2 ^ k.log2
    let z := (y.advanceHead k).modClient (y.ctxClient k.ctx) (fun c => { c with submitted := c.submitted + 1 })
    x.queue n = some q → x.alive = true → x.powx.draining = false →
    (q.cmdHead = q.tail → exec (.descriptorFetch h n) s = .next s) ∧
    (q.cmdHead ≠ q.tail → k.canFetch = true → z.firstBad k.ctx [(k.cmdRing + idx * 128, 128)] = none →
      exec (.descriptorFetch h n) s = .next (s.mod h (fun _ =>
        ({ z with sched := { z.sched with
            cmds := z.sched.cmds ++ [{ id := z.sched.nextCmd, queue := k.id, ctx := k.ctx, client := y.ctxClient k.ctx
                                       tier := (z.ctx k.ctx).elim 2 (·.tier), ringIdx := idx
                                       desc := BitVec.ofNat 1024 (z.vnat k.ctx (k.cmdRing + idx * 128) 128) }]
            nextCmd := z.sched.nextCmd + 1 } } : Half).settle))) ∧
    (q.cmdHead ≠ q.tail → k.canFetch = false → exec (.descriptorFetch h n) s = .next (s.mod h (fun _ => y)))
/-! ### Memory, translation, integrity and the links' copies (spec/12_memory_system.md) -/

/-- TPT_MAP and TPT_UNMAP whose records pass every check take effect whole and complete with ST_OK, FREE_ENTRIES and FREE_FRAMES (R320
to R322, R324); MAP_OUT that passes its checks completes at once where the element is already so (the model's choice, log 23) and
otherwise is in progress until the frame boundary, with deadline-mode cause 5 (R334 to R336, R350). -/
def Obligations.PageAndMapOutMessagesComplete : Prop :=
  ∀ (h : HalfId) (slot : Nat) (s : State),
    let x := s.half h
    let m := x.msg slot
    let rs := x.mapRecords m
    let both := fun (op : Nat) => x.sends slot op 0x20 = true ∨ (x.sendsLong slot op 67108864 = true)
    (both 0x0208 → worst (listChecks m rs ++ rs.flatMap (x.mapChecks (msgLong m) (msgCtx m) (msgClient m)) ++
        overlapChk (msgLong m) rs ++ [x.mapBusy (msgCtx m) rs]) = none →
      let y := x.mapAll (msgCtx m) rs
      exec (.tptMap h slot) s = .next (s.setHalf h (y.finish slot stOk
        ([(0x04, 32, 262144 - y.mem.tpt.length), (0x08, 32, y.freeFrames 0 + y.freeFrames 1)] ++
          (if msgLong m then [(0x00, 32, 0)] else []))))) ∧
    (both 0x0209 → worst (listChecks m rs ++ rs.flatMap (x.unmapChecks (msgLong m) (msgCtx m)) ++ overlapChk (msgLong m) rs) = none →
      let y := x.unmapAll (msgCtx m) rs
      exec (.tptUnmap h slot) s = .next (s.setHalf h (y.finish slot stOk
        ([(0x04, 32, 262144 - y.mem.tpt.length), (0x08, 32, y.freeFrames 0 + y.freeFrames 1)] ++
          (if msgLong m then [(0x00, 32, 0)] else []))))) ∧
    (x.sends slot 0x0404 3 = true → worst (mapOutChecks x m) = none →
      let pc := decide (pay m 0 8 = 1)
      let out := if pc then decide (pay m 1 8 ∈ x.mem.pcsOut) else decide (pay m 1 8 ∈ x.mem.slicesOut)
      (out = decide (pay m 2 8 = 0) → exec (.mapOut h slot) s = .next (s.mod h (fun y => y.finish slot stOk []))) ∧
      (out = decide (pay m 2 8 = 1) → pay m 2 8 ≤ 1 → ∃ t, exec (.mapOut h slot) s = .next t ∧
        (t.half h).mem = { x.mem with
          mapOut := some { pc := pc, idx := pay m 1 8, restore := decide (pay m 2 8 = 1), slot := some slot } } ∧
        (t.half h).qos.causes = x.qos.causes ||| 0x20#6 ∧ ((t.half h).slot slot).st = .acked ∧
        (slot < x.mbx.slots.length → ((t.half h).slot slot).started = true) ∧ (t.half h).sched = x.sched ∧
        t.half (other h) = s.half (other h)))

/-- A page that a NEW record maps reads zero in every byte, is writable unless the record says READ_ONLY, and shares its frame with no
page that was mapped before; every other page reads as before (R322). -/
def Obligations.NewPageReadsZero : Prop :=
  ∀ (x y : Half) (ctx : Nat) (r : BitVec 256) (i f va c : Nat),
    Memory.wf y.mem.cells = true → recKind r ≠ 1 → recSync r = false →
    lowestFree (x.usedFrames (recStackOf r i) ++ y.usedFrames (recStackOf r i)) reservedFrames
      ((x.usedFrames (recStackOf r i) ++ y.usedFrames (recStackOf r i)).length + 1) = some f →
    f < stackFrames → recStackOf r i < 2 → (∀ t ∈ y.mem.tpt, ∀ st g, t.dest = .frame st g → st < 2 ∧ g < stackFrames) →
    let z := mapPage x ctx r y i
    let page := recVa r / pageBytes + i
    z.tptOf ctx page = some { ctx := ctx, page := page, dest := .frame (recStackOf r i) f, ro := recRo r } ∧
    (va / pageBytes = page → z.vbyte ctx va = 0 ∧ z.badAt ctx va = false) ∧
    (¬ (c = ctx ∧ va / pageBytes = page) → z.tptAt c va = y.tptAt c va ∧ z.vbyte c va = y.vbyte c va) ∧
    (∀ t ∈ y.mem.tpt, t.dest ≠ .frame (recStackOf r i) f)

/-- MEMORY_UE_DETECTED by a running command ends it with ST_DATA_LOST and discards its context's other commands (R328, R329,
spec/11_scheduling_and_sync.md R295), a stream whose decode state it lies in then awaiting an IRAP picture and a grid's block being
unknown again (spec/08_input_pipeline.md R229, spec/09_fusion_engine.md R253); a failed read-back of a block kept for less than 24 h retires the frame (R330). SCRUB_READ of
an uncorrectable block logs it, fails nothing and retires a free frame (R329), of a corrected one counts it, and stops in HIBERNATE.
CORRECTED_ERROR changes no byte and no command, and of an engine's scratch it is counted (R327). SRAM_UNCORRECTABLE of a staged line kills
the staging command, of an engine's scratch resets the engine, and of a clean line, of a hot row, of a dirty line or of the page table is
logged (R332). FRAME_MOVE_COMPLETE repoints every mapping of the frame (R331). -/
def Obligations.IntegrityEventsComplete : Prop :=
  ∀ (h : HalfId) (s : State),
    let x := s.half h
    (∀ n va c st f b, x.cmd n = some c → x.blockAt c.ctx va = some (st, f, b) → c.st ≠ .waiting → c.readsBlock va = true →
      exec (.memoryUeDetected h (.command n va)) s = .next (s.mod h (fun y =>
        ((((y.markBad st f b none).dataLost c (va / 64 * 64)).streamLost c.ctx (va / 64 * 64)).gridLost c (va / 64 * 64)).settle))) ∧
    (∀ st f b, x.mem.health.any (fun k => k.written && k.stack = st && k.frame = f && k.block = b && x.now < k.time + 86400000000000) = true →
      exec (.memoryUeDetected h (.readBack st f b)) s = .next (s.mod h (fun y => y.retireFrame st f))) ∧
    (∀ st f b pin,
      let y := (x.markBad st f b none).memErr 0x02 0 (x.dramLoc st f b) (x.blockOwner st f b)
      exec (.scrubRead h st f b .clean) s = .next s ∧
      (x.pow.st = .hibernate → exec (.scrubRead h st f b (.corrected pin)) s = .next s ∧
        exec (.scrubRead h st f b .uncorrectable) s = .next s) ∧
      (x.pow.st ≠ .hibernate →
        exec (.scrubRead h st f b (.corrected pin)) s = .next (s.mod h (fun y => y.corrDram st f b pin)) ∧
        exec (.scrubRead h st f b .uncorrectable) s =
          .next (s.setHalf h (if x.frameUsed st f = true then y else y.retireFrame st f))) ∧
      y.sched = x.sched ∧ y.mem.cells = x.mem.cells) ∧
    (∀ site, ∃ t, exec (.correctedError h site) s = .next t ∧ (t.half h).mem.cells = x.mem.cells ∧
      (t.half h).sched.cmds = x.sched.cmds ∧ t.half (other h) = s.half (other h)) ∧
    (∀ n, ∃ t, exec (.correctedError h (.scratch n)) s = .next t ∧
      (n < x.sched.engines.length → ((t.half h).engine n).scratchCE = satInc (x.engine n).scratchCE) ∧
      (∀ k, k ≠ n → (t.half h).engine k = x.engine k) ∧ (t.half h).mbx = x.mbx) ∧
    (∀ sl n c, x.cmd n = some c → c.st ≠ .waiting →
      exec (.sramUncorrectable h (.staged sl n)) s =
        .next (s.mod h (fun y => ((y.memErr 0x04 1 sl none).endCmd n stKilled 0).settle))) ∧
    (∀ n, exec (.sramUncorrectable h (.scratch n)) s = .next (s.mod h (fun y =>
      ((y.modEngine n (fun e => { e with scratchUE := satInc e.scratchUE })).engineReset n).settle))) ∧
    (∀ sl ctx va,
      exec (.sramUncorrectable h (.cleanLine sl)) s = .next (s.mod h (fun y => y.memErr 0x03 1 sl none)) ∧
      exec (.sramUncorrectable h (.tptEntry sl)) s = .next (s.mod h (fun y => y.memErr 0x04 6 0 none)) ∧
      exec (.sramUncorrectable h (.hotRow sl ctx va)) s = .next (s.mod h (fun y => ({ y with sched := { y.sched with
        hot := { y.sched.hot with entries := y.sched.hot.entries.filter (fun e => !(e.ctx = ctx && e.va = va)) } } } : Half).memErr
          0x03 1 sl none)) ∧
      (∀ st f b, x.blockAt ctx va = some (st, f, b) → x.dirtyIn sl st f b = true →
        exec (.sramUncorrectable h (.dirtyLine sl ctx va)) s =
          .next (s.mod h (fun y => (y.markBad st f b (some sl)).memErr 0x04 1 sl (some (ctx, va)))))) ∧
    (∀ m rest, x.mem.moves = m :: rest → m.stack < 2 →
      ∃ y, exec (.frameMoveComplete h) s = .next (s.mod h (fun _ => Half.settle y)) ∧
        y.mem.tpt = x.mem.tpt.map (fun t =>
          if t.dest = .frame m.stack m.old then { t with dest := .frame m.stack m.new } else t) ∧
        y.mem.retired = (m.stack, m.old) :: x.mem.retired ∧ y.mem.moves = rest ∧ y.mem.logSeq = x.mem.logSeq + 1 ∧
        y.sched = x.sched)

/-- REMOTE_COPY_RECEIVE, REMOTE_SIGNAL_RECEIVE and REMOTE_ANSWER_RECEIVE: the far half takes the first copy or signal that waits on
the Handoff link, unless it is BULK traffic behind SAFETY traffic, and answers it, and the sender takes the first answer (R340,
spec/11_scheduling_and_sync.md R311, spec/15_die_to_die_links.md R393); from an admitted Tether peer each acts in the same way. -/
def Obligations.RemoteArrivalsAreServed : Prop :=
  ∀ (h : HalfId) (s : State) (pre post : List LinkMsg) (cmd cl k st retry : Nat) (rows : List (Nat × List Byte)) (v : BitVec 64),
    let x := s.half h
    let o := s.half (other h)
    let sent := fun (y : Half) => { y with links := { y.links with outbox := pre ++ post } }
    let first := fun (m : LinkMsg) => o.isSafety m = true ∨ ∀ b ∈ pre, o.isSafety b = false
    (x.alive = true → x.handoffUp = true →
      ((∀ a b c d, LinkMsg.copy a b c d ∉ pre) → o.links.outbox = pre ++ .copy cmd cl k rows :: post → first (.copy cmd cl k rows) →
        exec (.remoteCopyReceive h none) s = .next ((s.setHalf (other h) ((sent o).markFar cmd (x.farCopy false cl k rows).2.1)).setHalf h
          ((x.farCopy false cl k rows).1.send (.answer cmd (x.farCopy false cl k rows).2.1 (x.farCopy false cl k rows).2.2)))) ∧
      ((∀ a b c d, LinkMsg.signal a b c d ∉ pre) → o.links.outbox = pre ++ .signal cmd cl k v :: post →
        exec (.remoteSignalReceive h none) s = .next ((s.setHalf (other h) ((sent o).markFar cmd (x.farSignal false cl k v).2.1)).setHalf h
          ((x.farSignal false cl k v).1.send (.answer cmd (x.farSignal false cl k v).2.1 (x.farSignal false cl k v).2.2)))) ∧
      ((∀ a b c, LinkMsg.answer a b c ∉ pre) → o.links.outbox = pre ++ .answer cmd st retry :: post →
        exec (.remoteAnswerReceive h none) s =
          .next ((s.setHalf (other h) (sent o)).setHalf h (x.takeAnswer cmd st retry)))) ∧
    (x.alive = true → x.ptn.admitted = true →
      exec (.remoteCopyReceive h (some { client := cl, window := k, rows := rows })) s =
        .next (s.mod h (fun y => (y.farCopy true cl k rows).1)) ∧
      exec (.remoteSignalReceive h (some { client := cl, slot := k, value := v })) s =
        .next (s.mod h (fun y => (y.farSignal true cl k v).1))) ∧
    (∀ c, x.cmd cmd = some c → dTether c.desc = true →
      exec (.remoteAnswerReceive h (some { cmd := cmd, status := st, retry := retry })) s =
        .next (s.mod h (fun y => y.takeAnswer cmd st retry)))

/-- What the far side makes of a copy or a signal (Table — Remote copy outcomes, Table — Remote signal outcomes). A copy: without the
window, or with rows beyond it, nothing is written and the answer is ST_MALFORMED; from another source or link ST_DENIED; with no staging
for it ST_BUSY and 1,000 µs; otherwise, where it need merge with no uncorrectable block, every byte stands in the window and the answer is
ST_OK. A signal: without the slot ST_MALFORMED, from another source or link ST_DENIED, into a full word ST_BUSY and 100 µs, and otherwise the
word is full with the value and the answer is ST_OK. Each refusal is a violation of class 0x07 (spec/17_partners.md R426), and while the
Tether peer is quarantined all that it sends is answered with ST_DENIED. -/
def Obligations.FarCopyFollowsOutcomeTable : Prop :=
  ∀ (x : Half) (tether : Bool) (cl num : Nat) (rows : List (Nat × List Byte)) (v : BitVec 64),
    (x.tetherRefused tether = true → x.farCopy tether cl num rows = (x.announce 78, stDenied, 0) ∧
      x.farSignal tether cl num v = (x.announce 78, stDenied, 0)) ∧
    (x.tetherRefused tether = false →
      (x.mem.windows.find? (fun w => w.num = num) = none →
        x.farCopy tether cl num rows = (x.remoteVio tether 1 stMalformed num, stMalformed, 0)) ∧
      (∀ w, x.mem.windows.find? (fun w => w.num = num) = some w →
        let ws := rows.flatMap (fun r => r.2.zipIdx.map (fun b => (w.va + r.1 + b.2, b.1)))
        (w.src ≠ cl ∨ w.tether ≠ tether →
          x.farCopy tether cl num rows = (x.remoteVio tether (if w.src = cl then 4 else 3) stDenied num, stDenied, 0)) ∧
        (w.src = cl → w.tether = tether → (∃ r ∈ rows, w.bytes < r.1 + r.2.length) →
          x.farCopy tether cl num rows = (x.remoteVio tether 1 stMalformed num, stMalformed, 0)) ∧
        (w.src = cl → w.tether = tether → (∀ r ∈ rows, r.1 + r.2.length ≤ w.bytes) →
          (x.stagingPool < x.stagingUsed + ws.length → x.farCopy tether cl num rows = (x, stBusy, 1000)) ∧
          (x.stagingUsed + ws.length ≤ x.stagingPool → x.partBad w.ctx ws = none →
            x.farCopy tether cl num rows = ((x.commitBytes w.ctx ws).settle, stOk, 0)))) ∧
      (x.mem.inbound.find? (fun i => i.num = num) = none →
        x.farSignal tether cl num v = (x.remoteVio tether 2 stMalformed num, stMalformed, 0)) ∧
      (∀ i, x.mem.inbound.find? (fun i => i.num = num) = some i →
        (i.src ≠ cl ∨ i.tether ≠ tether →
          x.farSignal tether cl num v = (x.remoteVio tether (if i.src = cl then 4 else 3) stDenied num, stDenied, 0)) ∧
        (∀ va, i.src = cl → i.tether = tether → i.target = .word va →
          ((x.wordAt i.ctx va).full = true → x.farSignal tether cl num v = (x, stBusy, 100)) ∧
          ((x.wordAt i.ctx va).full = false → x.farSignal tether cl num v = ((x.fillWord i.ctx va v).settle, stOk, 0)))))

/-- The bytes of one commit, in the order of the list, are what every context that maps their place reads from then on; every other
byte of every frame page reads as before (R109, R340). -/
def Obligations.CommittedBytesAreRead : Prop :=
  ∀ (x : Half) (ctx : Nat) (ws : List (Nat × Byte)) (c va p : Nat),
    Memory.wf x.mem.cells = true → x.phys c va = some p →
    (x.commitBytes ctx ws).vbyte c va =
      ((ws.reverse.find? (fun w => x.phys ctx w.1 = some p)).map (·.2)).getD (x.vbyte c va)

/-- The rows of COPY (R338): byte j of row i goes from SRC_VA + i × SRC_PITCH + j to DST_VA + i × DST_PITCH + j, and the bytes are those
before the command. -/
def Obligations.CopyMovesRows : Prop :=
  ∀ (x : Half) (c : Cmd) (i j : Nat),
    i < df c.desc 0x34 32 → j < df c.desc 0x30 32 →
    (copyWork x c none).writes.length = df c.desc 0x34 32 * df c.desc 0x30 32 ∧
    (copyWork x c none).writes[i * df c.desc 0x30 32 + j]? = some (df c.desc 0x28 64 + i * df c.desc 0x3C 32 + j,
      x.vbyte c.ctx (df c.desc 0x20 64 + i * df c.desc 0x38 32 + j))

/-! ### Number formats and tensor engines (spec/03_arithmetic_formats.md, spec/04_tensor_engines.md) -/

/-- Every finite code of every floating element format is written back as itself, with saturation or without, rounded to nearest or
stochastically with any random number: exactly representable values are never changed (R66, R81 to R83). A NaN is written in its
canonical code and an infinity is kept without saturation (R67, R83). -/
def Obligations.FloatCodesAreWrittenBack : Prop :=
  ∀ f ∈ [e4m3, e5m2, e2m3, e3m2, e2m1, bf16, fp16, fp32], ∀ (c : Nat) (sat : Bool) (sr : Option Nat),
    c < 2 ^ f.bits →
    ((f.decode c).isFin = true → f.encode sat sr (f.decode c) = (c, .none)) ∧
    (f.decode c = .nan → f.encode sat sr (f.decode c) = (f.nanCode.getD 0, .nan)) ∧
    (∀ n, f.decode c = .inf n → f.encode false sr (f.decode c) = (c, .none))

/-- An INT32 sum that cannot leave the range in any order is exact and counts no saturation, whatever the order in which its terms are
added (R78, R79).
An integer output (R83): without saturation the low-order bits of the rounded value are kept, with saturation it is clamped to the
format's range; an infinity is clamped either way and a NaN is written as 0; and exactly the values outside the range are counted. -/
def Obligations.IntegerSumsAndOutputsFollowTheirRules : Prop :=
  (∀ (seed elem : Nat) (l : List Int), (l.map (fun i => (i.natAbs : Int))).sum ≤ 2147483647 →
      isum seed elem (l.map Num.ofInt) = (l.sum, 0)) ∧
  (∀ (bits : Nat) (signed : Bool) (v : Int), 2 ≤ bits →
      let lo := (intRange bits signed).1
      let hi := (intRange bits signed).2
      intEncode bits signed false (.ofInt v) =
        ((v % 2 ^ bits).toNat, if lo ≤ v ∧ v ≤ hi then Cnt.none else Cnt.sat) ∧
      intEncode bits signed true (.ofInt v) =
        ((max lo (min hi v) % 2 ^ bits).toNat, if lo ≤ v ∧ v ≤ hi then Cnt.none else Cnt.sat) ∧
      (∀ sat, intEncode bits signed sat .nan = (0, .nan) ∧
        intEncode bits signed sat (.inf false) = ((hi % 2 ^ bits).toNat, .sat) ∧
        intEncode bits signed sat (.inf true) = ((lo % 2 ^ bits).toNat, .sat)))

/-- The events of the engines. WARMUP runs on an idle engine that owes one and leaves its output for the verdict (R292); a slice of the
Quick lane begins in a gap, and the remaining slices are forced 1.75 ms after the boundary (R124); 200 µs after the boundary the NORMAL
and BACKGROUND work that holds a warm-up up is killed (R292); BUDGET_EXPIRY ends a started command whose budget has passed with
ST_TIMEOUT (R107); PREEMPTION kills one victim for the command that would be placed next (R293); a reset ends in the state that the
engine had before it, at that state's clock (R113, R123). -/
def Obligations.EngineEventsComplete : Prop :=
  ∀ (h : HalfId) (n : Nat) (s : State),
    let x := s.half h
    x.alive = true →
    (x.owesWarmup n = true → x.running n = false → (x.engine n).warmDone = false →
      exec (.warmup h n) s =
        .next (s.mod h (fun y => y.modEngine n (fun e => { e with wantWarmup := false, warmDone := true })))) ∧
    (∃ t, exec (.quickWarmupSlice h) s = .next t ∧ (t.half h).mem = x.mem ∧ (t.half h).sched.cmds = x.sched.cmds ∧
      ∀ e, x.sched.engines[n]? = some e →
        ((e.st = .quick ∧ e.wantWarmup = true ∧ x.running e.num = false) → e.warmRunning = false →
          (t.half h).sched.engines[n]? = some { e with warmRunning := true }) ∧
        (¬ (e.st = .quick ∧ e.wantWarmup = true ∧ x.running e.num = false) → (t.half h).sched.engines[n]? = some e)) ∧
    (∃ t, exec (.quickWarmupForce h) s = .next t ∧ (t.half h).mem = x.mem ∧ (t.half h).sched.cmds = x.sched.cmds ∧
      ∀ e, x.sched.engines[n]? = some e → (t.half h).sched.engines[n]? = some (
        if e.st = .quick ∧ e.wantWarmup = true ∧ x.afterBoundary 1750000 = true then { e with warmForced := true } else e)) ∧
    (x.afterBoundary 200000 = true → exec (.warmupDeadlineKill h) s = .next (s.mod h (fun y =>
      (y.endCmds (y.onEngines (fun n c => (y.engine n).st = .active && (y.engine n).wantWarmup && 2 ≤ c.tier && !isQuick c))
        stKilled).settle))) ∧
    (∀ c, x.cmd n = some c → c.st ≠ .waiting → c.started + budgetUs c * 1000 ≤ x.now →
      ¬ (dUnit c.desc = 5 ∧ dOp c.desc = 0x10) →
      exec (.budgetExpiry h n) s = .next (s.mod h (fun y => (y.endCmd n stTimeout 0).settle))) ∧
    (∀ c v, c ∈ x.sched.cmds → x.ready c = true → isEngine c = true → isQuick c = false → c.tier ≤ 1 → x.noEngineFree = true →
      (∀ o ∈ x.sched.cmds, o ≠ c → x.ready o = true → isEngine o = true → isQuick o = false → o.tier ≤ 1 → x.prefers c o = true) →
      (∀ o ∈ x.sched.cmds, x.prefers o c = true → x.prefers c o = false) → x.prefers c c = false →
      v ∈ x.victims c → (∀ o ∈ x.victims c, o ≠ v → victimBefore v o = true ∧ victimBefore o v = false) → victimBefore v v = false →
      exec (.preemption h) s = .next (s.mod h (fun y => (y.endCmd v.id stKilled 0).settle))) ∧
    ((x.engine n).st = .resetting →
      exec (.engineResetComplete h n) s = .next (s.mod h (fun y => (y.modEngine n (fun e => { e with st := e.back })).applyClocks)))

/-- ENG_RETIRE (R119): an engine above 17 or a RETIRED one is ST_MALFORMED; an engine whose retirement is pending completes with ST_OK
and nothing changes; while another is pending the answer is ST_BUSY; otherwise the retirement is decided, with the lowest SPARE engine
for one that is neither itself SPARE nor off without work (R115 step 1), ready where that engine has passed its warm-up. -/
def Obligations.RetireMessageCompletes : Prop :=
  ∀ (h : HalfId) (slot : Nat) (s : State),
    let x := s.half h
    let n := pay (x.msg slot) 0 8
    x.sends slot 0x0403 1 = true →
    (17 < n ∨ (x.engine n).st = .retired → exec (.engRetire h slot) s =
      .next (s.mod h (fun y => y.finish slot stMalformed [(0, 16, 0x10)]))) ∧
    (n ≤ 17 → (x.engine n).st ≠ .retired →
      (x.retirePends n = true → exec (.engRetire h slot) s = .next (s.mod h (fun y => y.finish slot stOk []))) ∧
      (x.retirePends n = false → (∃ k < 18, x.retirePends k = true) → exec (.engRetire h slot) s =
        .next (s.mod h (fun y => y.finishBad slot { bad := true, st := stBusy, retry := some (max 100 x.untilBoundary) }))) ∧
      ((∀ k < 18, x.retirePends k = false) → exec (.engRetire h slot) s = .next (s.mod h (fun y =>
        let m := if (y.engine n).st = .spare ∨ ((y.engine n).st = .off ∧ (y.engine n).back = .off) then none
          else (y.sched.engines.find? (fun e => e.st = .spare)).map (·.num)
        ({ y with sched := { y.sched with
            retiring := some n, retireSpare := m
            retireReady := m.any (fun k => (y.engine k).warmup = 1) } } : Half).finish slot stOk []))))

/-- A retirement takes effect at a frame boundary (R115 to R118, R125): with a spare that has passed its warm-up, the engine is RETIRED
and the spare takes its place, the Quick lane's too; with no SPARE left it is RETIRED alone; while its spare has not passed it stays as
it is; and a spare that has failed is RETIRED in its stead. No other engine changes. -/
def Obligations.RetirementTakesEffectAtBoundary : Prop :=
  ∀ (x : Half) (n : Nat), x.sched.retiring = some n → n < x.sched.engines.length →
    (x.engine n).st ≠ .spare → (x.engine n).st ≠ .off → (x.engine n).st ≠ .retired →
    let y := x.retireBoundary
    (∀ m, x.sched.retireSpare = some m → (x.engine m).st = .spare → m < x.sched.engines.length →
      (x.sched.retireReady = true → (x.engine m).warmup ≠ 3 →
        (y.engine n).st = .retired ∧ (y.engine m).st = (if (x.engine n).isQuickLane = true then .quick else .active) ∧
        y.sched.retiring = none ∧ (∀ k, k ≠ n → k ≠ m → y.engine k = x.engine k) ∧
        (∀ c ∈ y.sched.cmds, c.engine ≠ some n ∨ c.st = .waiting) ∧ y.mem.tpt = x.mem.tpt) ∧
      (x.sched.retireReady = false → (x.engine m).warmup ≠ 3 → y = x) ∧
      ((x.engine m).warmup = 3 → (y.engine m).st = .retired ∧ y.sched.retiring = some n ∧
        (∀ k, k ≠ m → y.engine k = x.engine k))) ∧
    (x.sched.retireSpare = none → x.lowestSpare = none →
      (y.engine n).st = .retired ∧ y.sched.retiring = none ∧ (∀ k, k ≠ n → y.engine k = x.engine k))


/-! ### The course of a data command (spec/02 R55, R62, spec/04 R109, spec/11 R291, R305 to R313) -/

/-- Every command of units 0x01 to 0x09 (GEMM to HUDDLE_ARRIVE, those that `dataCmd` lists) that the scheduler starts, whose descriptor and
operands pass every check, with an engine where it needs one, room in the staging pool, no uncorrectable block in what it reads or must
merge and nothing wrong in its data, begins with the work that its unit makes of it, and with its commit where it stages nothing; what its
start does beside that happens as well, a copy or signal to a far side goes out, and every waiter that this frees goes on. -/
def Obligations.DataCommandsBegin : Prop :=
  ∀ (c : Instr) (k : Start) (s : State) (cm : Cmd), dataCmd c = some k →
    let x := k.pre (s.half k.half)
    let p := if isEngine cm = true then chooseEngine x.sched.engines (x.freeEngines cm) 19 else (x.sched.engines, none)
    let w := k.work x cm p.2
    let y : Half := { x with sched := { x.sched with engines := p.1 } }
    x.cmd k.cmd = some cm → k.starts x cm = true → worst (x.commonChecks cm ++ k.chk x cm) = none →
    (isEngine cm = true → p.2.isSome = true) → x.stagingUsed + w.foot ≤ x.stagingPool →
    y.firstBad cm.ctx w.reads = none → y.partBad cm.ctx (y.commitWrites cm.ctx w.writes w.eff) = none → w.fail = none →
    exec c s = .next (k.finish s (fun _ => (y.begin cm p.2 w).settle))

/-- A data command that fails a check ends with the first failing status of R9 and commits nothing; one whose operation is empty commits
an empty output (R11). One that the scheduler does not take now leaves the state as it is, where its arrival and its start do nothing of
their own. -/
def Obligations.FailingChecksEndDataCommands : Prop :=
  ∀ (c : Instr) (k : Start) (s : State) (cm : Cmd), dataCmd c = some k →
    let x := k.pre (s.half k.half)
    x.cmd k.cmd = some cm →
    (k.starts x cm = true → ∀ e, worst (x.commonChecks cm ++ k.chk x cm) = some e →
      (e.st ≠ stEmpty → exec c s = .next (k.finish s (fun _ => ((x.served cm).failCmd cm e).settle))) ∧
      (e.st = stEmpty → exec c s = .next (k.finish s (fun _ =>
        (((x.served cm).modCmd k.cmd (fun d => { d with st := .running, status := stEmpty, checked := true })).tryCommit
          k.cmd).settle)))) ∧
    (k.starts x cm = false → (∀ y, k.pre y = y) → (∀ y z, k.post y z = z) → k.send = none → exec c s = .next s)

/-- A command that begins stages its outputs: no byte of memory changes until its commit (R109), only the general cache has taken what it
reads (spec/12_memory_system.md R316); the work that its unit made stands in the command, which is running with its engine. -/
def Obligations.BegunCommandIsStaged : Prop :=
  ∀ (x : Half) (cm : Cmd) (eng : Option Nat) (w : Work), x.cmd cm.id = some cm → w.atOnce = false →
    let y := x.begin cm eng w
    y.mem = { x.mem with cache := y.mem.cache } ∧ y.mbx = x.mbx ∧ y.ptn = x.ptn ∧ y.sched.queues = x.sched.queues ∧ y.sched.clients = x.sched.clients ∧
    (∀ n, n ≠ cm.id → y.cmd n = x.cmd n) ∧
    ∃ d, y.cmd cm.id = some d ∧ d.st = .running ∧ d.engine = eng ∧ d.writes = w.writes ∧ d.reads = w.reads ++ w.outs ∧
      d.status = w.status ∧ d.det0 = BitVec.ofNat 64 w.det0 ∧ d.det1 = BitVec.ofNat 32 w.det1 ∧ d.eff = w.eff ∧ d.desc = cm.desc ∧
      d.started = x.now ∧ d.foot = w.foot

/-- COMMAND_COMMIT of a running command that stages its outputs (R60, R109): when its POST_OP can be taken, outputs, effect, POST_OP and
record happen in one step; while it cannot, the command keeps its outputs staged and waits (R305). A convolution into whose input another
command has committed takes what its fetches saw first (R146). A batch commits when every slot is decided (R221); a planning step when its
POST_OP can be taken and its inputs are consistent, with what its search has found (R263, R274). A command with a page in a move waits
(spec/12_memory_system.md R331). -/
def Obligations.CommandCommitMakesOutputsVisible : Prop :=
  ∀ (h : HalfId) (n : Nat) (s : State) (c : Cmd),
    let x := s.half h
    let run := exec (.commandCommit h n) s
    x.cmd n = some c → x.alive = true → c.st = .running →
    (x.inMove c = true → run = .next s) ∧
    (x.inMove c = false →
      (x.batch n = none → ¬ (dUnit c.desc = 7 ∧ dOp c.desc = 0x10 ∧ c.status ≠ stEmpty) → dUnit c.desc ≠ 9 →
        (dUnit c.desc ≠ 2 ∨ c.raced = [] →
          (x.postOk c = true → run = .next (s.mod h (fun y => (y.commit c).settle))) ∧
          (x.postOk c = false → x.waiters < 16384 → run = .next (s.mod h (fun y =>
            ((y.modCmd n (fun k => { k with st := .staged, postSeq := x.sched.nextCmd + 1 })).tickSeq).settle)))) ∧
        (dUnit c.desc = 2 → run = .next (s.mod h (fun y => ((y.refetch c).tryCommit n).settle)))) ∧
      (∀ b, x.batch n = some b →
        (b.slots.all (fun k => k.place.decided) = true → run = .next (s.mod h (fun y =>
          ((y.took.took.modCmd n (fun _ => y.batchOutputs b c stOk)).tryCommit n).settle))) ∧
        (b.slots.all (fun k => k.place.decided) = false → run = .next s)) ∧
      (x.batch n = none → dUnit c.desc = 7 → dOp c.desc = 0x10 → c.status ≠ stEmpty → ∀ p, x.sched.plan = some p →
        (x.postOk c = true → x.inputsStable p c = true → run = .next (s.mod h (fun y =>
          ((y.took.took.took.took.modCmd c.id (fun _ => y.planOutputs p c)).tryCommit c.id).settle))) ∧
        (x.postOk c = false ∨ x.inputsStable p c = false → run = .next s)))

/-- What an operation on a sync word does when its word allows (R305, Table — Sync operations): FILL writes the value and makes the word
full, DRAIN makes it empty, WAIT_FULL, WAIT_EMPTY and PEEK change nothing; every other word stays. FILL proceeds on an empty word, DRAIN
and WAIT_FULL on a full one, WAIT_EMPTY on an empty one, PEEK always. -/
def Obligations.SyncOperationsFollowTable : Prop :=
  ∀ (x : Half) (c : Cmd) (p w : Nat),
    let va := df c.desc 0x20 64
    let k := x.syncWord p w
    x.syncAt c.ctx va = some (p, w) → dPost c.desc ≠ 1 → dPost c.desc ≠ 2 → c.status ≠ stEmpty → c.writes = [] → c.eff = .none →
    c.engine = none → dUnit c.desc = 9 →
    let y := x.syncCommit c
    (dOp c.desc = 0x01 → y.syncWord p w = { page := p, word := w, value := BitVec.ofNat 64 (df c.desc 0x28 64), full := true }) ∧
    (dOp c.desc = 0x02 → (y.syncWord p w).full = false ∧ (y.syncWord p w).value = k.value) ∧
    (dOp c.desc = 0x03 ∨ dOp c.desc = 0x04 ∨ dOp c.desc = 0x05 → y.mem.sync = x.mem.sync) ∧
    (∀ p' w', (p', w') ≠ (p, w) → y.syncWord p' w' = x.syncWord p' w') ∧
    (c.st = .running → (x.syncCan c = true ↔
      (dOp c.desc = 0x01 ∧ k.full = false) ∨ (dOp c.desc = 0x02 ∧ k.full = true) ∨ (dOp c.desc = 0x03 ∧ k.full = true) ∨
        (dOp c.desc = 0x04 ∧ k.full = false) ∨ dOp c.desc = 0x05))
/-! ### The regulator and the cores (spec/13_bandwidth_regulation.md, spec/14_cores.md) -/

/-- QOS_REGISTER_WRITE (R357 to R359): a limit register takes the ten bits of each class; thresholds are taken when T1 ≤ T2 ≤ T3;
GUAR_BLOCKS within the bound of R357 waits for the window's end; and a value out of its range leaves every field of the block as it
is and is logged. Every other store is answered as `qosPut` says. -/
def Obligations.RegulatorStoresFollowRules : Prop :=
  ∀ (h : HalfId) (ag : Agent) (p v : Nat) (s : State),
    let x := s.half h
    let st := fun off => exec (.qosRegisterWrite h ag off 8 v) s
    x.alive = true → (∀ a, ag ≠ .tool a) →
    (p < 38 → (x.qos.port p).locked = false → otOk (BitVec.ofNat 64 v) = true → x.qos.ports.length = 38 →
      ∃ t, st (0x1000 + p * 0x40 + 8) = .next t ∧ (t.half h).qos.port p = { x.qos.port p with otLo := otBits (BitVec.ofNat 64 v) } ∧
        (∀ k, k ≠ p → (t.half h).qos.port k = x.qos.port k) ∧ (t.half h).qos.classes = x.qos.classes ∧
        (t.half h).qos.outst = x.qos.outst ∧ (t.half h).mem = x.mem ∧ (t.half h).sched = x.sched ∧ (t.half h).ptn = x.ptn) ∧
    (p < 38 → otOk (BitVec.ofNat 64 v) = false → ∃ t, st (0x1000 + p * 0x40 + 8) = .next t ∧ (t.half h).qos = x.qos ∧
        t = s.mod h (fun y => y.ctrlVio ag 7 (0x301000 + p * 0x40 + 8))) ∧
    (∀ c < 8, (x.qos.cls c).lockGuar = false → v < 2 ^ 32 → x.qos.guarSum c v ≤ x.guarBound x.qos.windowNext →
      x.qos.classes.length = 8 →
      ∃ t, st (0x100 + c * 0x20) = .next t ∧ (t.half h).qos.cls c = { x.qos.cls c with newGuar := some (BitVec.ofNat 32 v) } ∧
        (t.half h).qos.ports = x.qos.ports ∧ ((t.half h).qos.cls c).guar = (x.qos.cls c).guar) ∧
    (∀ off size q, off < 0x100000 → aligned off size = true → x.qosPut off size v = some q →
      exec (.qosRegisterWrite h ag off size v) s =
        .next (s.mod h (fun y => if off / 8 * 8 = 0x10 then ({ y with qos := q } : Half).rearm 65 else { y with qos := q })))

/-- QOS_WINDOW_END (R355, R356, R358): SERVED_BLOCKS takes each class's count, the count starts again, waiting guarantees and weights
take effect, QOS_WINDOWS counts, and exactly the classes with a guarantee that they missed while backlogged count a miss and set their
status bit. -/
def Obligations.WindowEndCountsMisses : Prop :=
  ∀ (h : HalfId) (busy : BitVec 8) (s : State),
    let x := s.half h
    x.alive = true → x.qos.classes.length = 8 →
    ∃ t, exec (.qosWindowEnd h busy) s = .next t ∧
      let q := (t.half h).qos
      q.windows = x.qos.windows + 1 ∧ q.windowUs = x.qos.windowNext ∧ q.ports = x.qos.ports ∧
      (∀ c < 8, let k := x.qos.cls c
        let missed := k.guar ≠ 0 ∧ k.count < k.guar.toNat ∧ bitAt busy c = true
        (q.cls c).served = BitVec.ofNat 32 k.count ∧ (q.cls c).count = 0 ∧ (q.cls c).guar = k.newGuar.getD k.guar ∧
        (q.cls c).weight = k.newWeight.getD k.weight ∧
        (missed → (q.cls c).misses = k.misses + 1 ∧ bitAt q.irqStatus c = true) ∧
        (¬ missed → (q.cls c).misses = k.misses ∧ bitAt q.irqStatus c = bitAt x.qos.irqStatus c)) ∧
      (t.half h).mem = x.mem ∧ (t.half h).sched = x.sched ∧ t.half (other h) = s.half (other h)

/-- PORT_TRANSACTION_REQUEST and PORT_TRANSACTION_COMPLETE (R345, R346, R348, R351, R352): below its port's limit a transaction is issued,
with a deadline where its port is real-time and the half is in deadline mode; at the limit it is held and HELD counts it, and nothing
outstanding is dropped. The transaction that a target serves leaves it, its DRAM blocks count for its class, one past its deadline counts in
LATE, and held ones may be released; with nothing waiting at the target only the buffers' levels are taken. What is served waited there; in
normal service one of urgency 3 goes before every other, and in deadline mode one due within 2 µs has no later deadline than any other. -/
def Obligations.TransactionsStayWithinLimits : Prop :=
  ∀ (h : HalfId) (port blocks c : Nat) (target : QTarget) (fill : RtFill) (cmd core : Option Nat) (s : State),
    let x := s.half h
    let q := x.qos.setFill fill
    let y := x.modQos (fun q => q.setFill fill)
    let k : QTxn := { id := x.qos.nextTxn, port := port, cls := c, blocks := blocks, cmd := cmd, target := target }
    x.alive = true → x.qos.ports.length = 38 →
    (port < 38 → blocks ≤ 4 → x.txnClass port cmd core = some c →
      (q.outCount port c < q.limit port c → ∃ t, exec (.portTransactionRequest h port blocks { target := target, fill := fill } cmd core) s = .next t ∧
        (t.half h).qos.outst = x.qos.outst ++ [{ k with deadline :=
            (if isRtPort port = true ∧ x.qos.causes ≠ 0 then some (x.now + (x.qos.port port).budgetNs.toNat) else none) }] ∧
        (t.half h).qos.heldTxns = x.qos.heldTxns ∧ (t.half h).sched = x.sched ∧ (t.half h).mem = x.mem) ∧
      (q.limit port c ≤ q.outCount port c → ∃ t, exec (.portTransactionRequest h port blocks { target := target, fill := fill } cmd core) s = .next t ∧
        (t.half h).qos.outst = x.qos.outst ∧ ((t.half h).qos.port port).held = (x.qos.port port).held + 1 ∧
        (t.half h).qos.heldTxns = x.qos.heldTxns ++ [k] ∧ (t.half h).mem = x.mem)) ∧
    (∀ u left, y.serves target = some (u, left) → x.qos.heldTxns = [] →
      ∃ t, exec (.portTransactionComplete h { target := target, fill := fill }) s = .next t ∧
        (t.half h).qos.outst = x.qos.outst.filter (fun o => o.id ≠ u.id) ∧
        (u.cls < x.qos.classes.length →
          ((∃ n, u.target = .dram n) → ((t.half h).qos.cls u.cls).count = (x.qos.cls u.cls).count + u.blocks) ∧
          ((∀ n, u.target ≠ .dram n) → ((t.half h).qos.cls u.cls).count = (x.qos.cls u.cls).count)) ∧
        ((t.half h).qos.port u.port).late =
          (x.qos.port u.port).late + (if u.port < 38 ∧ u.deadline.any (fun d => decide (d < x.now)) = true then 1 else 0) ∧
        (t.half h).mem = x.mem ∧ (t.half h).sched = x.sched) ∧
    (y.serves target = none → exec (.portTransactionComplete h { target := target, fill := fill }) s = .next (s.mod h (fun z => z.modQos (fun q => q.setFill fill)))) ∧
    (∀ u left, x.serves target = some (u, left) →
      u ∈ x.qos.outst ∧ u.target = target ∧
      (x.qos.causes = 0 → (∃ o ∈ x.qos.outst, o.target = target ∧ (x.qos.port o.port).urgency o.port = 3) →
        (x.qos.port u.port).urgency u.port = 3) ∧
      (x.qos.causes ≠ 0 → (∃ o ∈ x.qos.outst, o.target = target ∧ ∃ d, o.deadline = some d ∧ d ≤ x.now + 2000) →
        ∃ d, u.deadline = some d ∧ ∀ o ∈ x.qos.outst, o.target = target → ∀ e, o.deadline = some e → d ≤ e))

/-- NVCTX_WRITE and NVCLASS_WRITE (R364, R365): a running core's write of a context that exists, or of a class that its client may use,
is taken; any other leaves the core as it is and is logged. MTIME_COMPARE (R371): the pair's timer interrupt is up exactly when its
half's synchronised time has reached mtimecmp. -/
def Obligations.CoreRegistersFollowRules : Prop :=
  ∀ (h : HalfId) (n : Nat) (v : BitVec 64) (s : State),
    let x := s.half h
    (x.coreRuns n = true → n < x.cores.app.length → (x.ctx (fld v 0 12)).isSome = true →
      ∃ t, exec (.nvctxWrite h n v) s = .next t ∧
        (t.half h).cores.app[n]? = (x.cores.app[n]?).map (fun k => { k with
          nvctx := v.extractLsb' 0 12, nvctxValid := bitAt v 16 }) ∧
        (∀ k, k ≠ n → (t.half h).cores.app[k]? = x.cores.app[k]?) ∧ (t.half h).mem = x.mem ∧ (t.half h).ptn = x.ptn) ∧
    (x.coreRuns n = true → x.ctx (fld v 0 12) = none → exec (.nvctxWrite h n v) s =
      .next (s.mod h (fun y => y.violate (.core n) 0x0A 6 1 0x5C0 0x5C0))) ∧
    (x.coreRuns n = true → n < x.cores.app.length →
      let cl := x.ctxClient ((x.cores.app[n]?.getD {}).nvctx.toNat)
      (bitAt (x.classMask cl) (fld v 0 3) = true → ∃ t, exec (.nvclassWrite h n v) s = .next t ∧
        (t.half h).cores.app[n]? = (x.cores.app[n]?).map (fun k => { k with nvclass := v.extractLsb' 0 3 }) ∧
        (∀ k, k ≠ n → (t.half h).cores.app[k]? = x.cores.app[k]?) ∧ (t.half h).mem = x.mem) ∧
      (bitAt (x.classMask cl) (fld v 0 3) = false → exec (.nvclassWrite h n v) s =
        .next (s.mod h (fun y => y.violate (.core n) 0x0A 6 1 0x5C1 0x5C1)))) ∧
    (x.pairRuns n = true → n < x.cores.pairs.length →
      ∃ t, exec (.mtimeCompare h n v) s = .next t ∧
        (t.half h).pair n = { x.pair n with mtimecmp := v, timerIrq := decide (v.toNat ≤ x.st) } ∧
        (∀ k, k ≠ n → (t.half h).pair k = x.pair k) ∧ (t.half h).mem = x.mem ∧ (t.half h).sched = x.sched)

/-- APERTURE_LOAD and APERTURE_STORE (R363, R366, R370): an address of a core's or pair's map that lies in an aperture is an access to that
aperture. A load of mapped bytes returns them; a store to mapped, writable pages makes its bytes visible at once; one that meets an
uncorrectable block is an access fault that is logged; a store to a sync page is dropped and logged; an access in no region of the map,
outside its aperture or through a client aperture that is not live, to an unmapped page, or a store to a READ_ONLY page, is an access fault
that changes nothing. A pair's TCM is its own. -/
def Obligations.AperturesReachTheirContext : Prop :=
  ∀ (h : HalfId) (by' ap : Aperture) (at' addr size v c va : Nat) (s : State),
    let x := s.half h
    let ld := exec (.apertureLoad h by' at' size) s
    let st := exec (.apertureStore h by' at' size v) s
    let fault := Host.Outcome.next { s with resp := Resp.accessFault }
    (x.apRuns by' = true → apAt by' at' = none → apControl by' at' = false → ld = fault ∧ st = fault) ∧
    (apAt by' at' = some (ap, addr) → x.apRuns ap = true →
      ((∀ p, ap ≠ .tcm p) → x.apAddr ap addr size = some (c, va) →
        let ws := placeBytes va (leBytes size v)
        (x.mapped c va size = true → x.firstBad c [(va, size)] = none →
          ld = .next { (s.setHalf h (x.touchReads c [(va, size)])) with resp := .data (x.vnat c va size) }) ∧
        (x.writable c va size = true → x.firstBad c [(va, size)] = none →
          st = .next { (s.setHalf h ((x.noteRaces x.sched.nextCmd.succ c ws).commitBytes c ws)) with resp := .ok }) ∧
        (∀ b, x.firstBad c [(va, size)] = some b →
          (x.mapped c va size = true → ld = .next { (s.setHalf h (x.apError c b)) with resp := .accessFault }) ∧
          (x.writable c va size = true → st = .next { (s.setHalf h (x.apError c b)) with resp := .accessFault })) ∧
        (x.mapped c va size = true → (∀ p ∈ pagesOf va size, (x.tptOf c p).any (fun t => t.ro) = false) →
          (∃ p ∈ pagesOf va size, (x.tptOf c p).any Tpt.isSync = true) →
          st = .next { (s.setHalf h (x.coreVio (Aperture.agent ap) 5 va (apBase ap + addr))) with resp := .dropped }) ∧
        (x.mapped c va size = false ∨ (∃ p ∈ pagesOf va size, (x.tptOf c p).any (fun t => t.ro) = true) → st = fault) ∧
        (x.mapped c va size = false → ld = fault)) ∧
      ((∀ p, ap ≠ .tcm p) → x.apAddr ap addr size = none → ld = fault ∧ st = fault) ∧
      (∀ p, ap = .tcm p →
        (524288 < addr + size → ld = fault ∧ st = fault) ∧
        (addr + size ≤ 524288 →
          ld = .next { s with resp := .data (leNat (memReads (x.pair p).tcm addr size)) } ∧
          st = .next { (s.mod h (fun y => y.modPair p (fun r => { r with tcm := memWrites r.tcm addr (leBytes size v) }))) with
            resp := .ok })))


/-! ### The input pipeline (spec/08_input_pipeline.md, spec/15 R396) -/

/-- DECODE_COMPLETE decides the slot whose decode an engine runs, a good picture counting in its path's mean (R225) and one of a stream
leaving its reference picture in the stream's decode state (R227);
SAMPLE_BUDGET_EXPIRY aborts a decode at its budget with reason 0x05 (R225); SWDEC_DEADLINE_EXPIRY makes the slot of an overdue
software request defective with reason 0x05 (R222, R223); BATCH_BUDGET_EXPIRY makes what is undecided defective with reason 0x06 and
commits the batch with ST_TIMEOUT (R230). -/
def Obligations.PipelineEventsComplete : Prop :=
  ∀ (h : HalfId) (n i : Nat) (s : State) (b : Batch) (k : BatchSlot),
    let x := s.half h
    x.alive = true → x.batch n = some b → x.batchSlot n i = some k →
    (x.decoding n i = true →
      let r := x.decodeSlot b i k
      let y := (if r.1 = .ready ∧ k.kind = 0x11 then x.keepRefs b k else x).decideSlot n i r.1 r.2.1
      exec (.decodeComplete h n i) s = .next (s.setHalf h (if r.1 ≠ .ready then y
        else if k.kind = 0x10 then y.modPipe (fun p => { p with meanJpeg := ringPush 64 p.meanJpeg r.2.2 })
        else y.modPipe (fun p => { p with meanH265 := ringPush 64 p.meanH265 r.2.2 }))) ∧
      ∀ t, k.since = some t → t + (if k.kind = 0x10 then b.hwBudget else b.h265Budget) * 1000 ≤ x.now →
        exec (.sampleBudgetExpiry h n i) s = .next (s.mod h (fun y => y.decideSlot n i (.defect stTimeout 0x05) {}))) ∧
    (∀ e d r, x.sched.pipe.swdec = some d → d.reqs.find? (fun r => r.entry = e && !r.overdue) = some r → r.deadline ≤ x.st →
      r.cmd = n → r.slot = i → k.place = .swPosted →
      exec (.swdecDeadlineExpiry h e) s = .next (s.mod h (fun y =>
        (y.modPipe (fun p => { p with swdec := p.swdec.map (fun (d : SwDec) => { d with
          reqs := d.reqs.map (fun (q : SwReq) => if q.entry = e then { q with overdue := true } else q) }) })).decideSlot n i
            (.defect stTimeout 0x05) {}))) ∧
    (∀ c, x.cmd n = some c → c.st ≠ .waiting → c.status ≠ stTimeout → c.started + budgetUs c * 1000 ≤ x.now →
      exec (.batchBudgetExpiry h n) s = .next (s.mod h (fun y => (y.expireSlots n b).batchCommit n stTimeout)))

/-- CAPTURE_WRITE of a bound camera (R201 to R209): each failed packet is a violation, and what the receiver took goes into its ring with
the flags that its errors give and, where the binding forwards it, to the other half; a receiver whose camera is quarantined captures
nothing, and while the open site is out of service or being reset the capture is dropped. CAPTURE_WRITE of a flow takes its oldest assembled
image or access unit. ARRIVAL_MARK makes a capture of the endpoint's binding with the time of the mark (R201); FORWARDED_CAPTURE_RECEIVE
takes the oldest forwarded capture into the binding of its duplicated source with DUPLICATE set (R396).
A capture put into a ring with a free entry (R206 to R208): PRODUCED advances by one and DROPPED stays; with its entry unconsumed it is
dropped and DROPPED counts it, nothing else of the binding changing (R207); no other binding changes. -/
def Obligations.CapturesReachTheirRings : Prop :=
  (∀ (h : HalfId) (c : Capture) (s : State) (b : Binding),
      let x := s.half h
      x.alive = true →
      (c.source < 8 → x.ptn.sites = false → (x.partner c.source).st ≠ .quarantined → ∀ kind, csiKind (c.select / 16) = some kind →
        let y := (x.ptnFixed c.source c.source 0).modPartner c.source (fun p => { p with awaitFirst := false })
        let data := storedData kind c.data
        let long := decide (b.slotBytes < data.length)
        let z := (((y.csiVio c.source 0x01 1 c.ecc).csiVio c.source 0x01 2 c.crc).csiVio c.source 0x02 1 (b2n c.cut)).csiVio
          c.source 0x02 2 (b2n long)
        y.sourceBinding c.source = some b → b.select = c.select →
        ((z.partner c.source).st = .quarantined → exec (.captureWrite h c) s = .next (s.setHalf h z)) ∧
        ((z.partner c.source).st ≠ .quarantined → z.sched.pipe.sideReset = true ∨ (z.link 16).works = false →
          exec (.captureWrite h c) s = .next ((s.setHalf h z).mod h (fun w => w.dropCaptures b 1))) ∧
        ((z.partner c.source).st ≠ .quarantined → z.sched.pipe.sideReset = false → (z.link 16).works = true →
          exec (.captureWrite h c) s = .next ((s.setHalf h z).captured h b
            { kind := kind, flags := 4 * b2n (decide (0 < c.ecc + c.crc)) + 2 * b2n (c.cut || long), time := c.time, mediaTs := 0
              w := c.w, h := c.h, data := data }))) ∧
      (c.source < 8 → (x.partner c.source).st = .quarantined → exec (.captureWrite h c) s = .next s) ∧
      (∀ pre k post, 0x20 ≤ c.source → c.source ≤ 0x3F → x.sched.pipe.whole = pre ++ k :: post → (∀ p ∈ pre, p.source ≠ c.source) →
        k.source = c.source → x.sourceBinding c.source = some b → b.select = k.select → x.sched.pipe.sideReset = false →
        exec (.captureWrite h c) s = .next ((s.mod h (fun y => y.modPipe (fun p => { p with whole := pre ++ post }))).captured h b
          { kind := if k.select = 0 then 0x11 else 0x10, flags := if k.cut = true ∨ b.slotBytes < k.data.length then 2 else 0
            time := k.time, mediaTs := k.mediaTs, w := 0, h := 0, data := k.data })) ∧
      (x.powx.subReset.contains 13 = false → x.sched.pipe.sideReset = false → x.sourceBinding 0x10 = some b →
        exec (.arrivalMark h) s = .next (s.captured h b
          { kind := 0x20, flags := 0, time := x.st, mediaTs := 0, w := 0, h := 0, data := [] })) ∧
      (∀ src kind flags time ts w hh q data rest, (s.half (other h)).links.outbox = .capture src kind flags time ts w hh q data :: rest →
        x.handoffUp = true → x.sched.pipe.sideReset = false → (∀ v, seqOf x.links.fwdSeen src = some v → v = q) →
        x.sourceBinding (0x40 + src) = some b →
        exec (.forwardedCaptureReceive h) s =
          .next ((s.mod (other h) (fun o => { o with links := { o.links with outbox := rest } })).mod h (fun y =>
            ({ y with links := { y.links with fwdSeen := setSeq y.links.fwdSeen src (q + 1) } } : Half).putCapture b
              { kind := kind, time := time, mediaTs := ts, w := w, h := hh, data := data
                flags := flags + 8 + (if b.slotBytes < data.length ∧ flags / 2 % 2 = 0 then 2 else 0) })))) ∧
  (∀ (x : Half) (b : Binding) (e : Entry), b ∈ x.sched.pipe.bindings →
      (∀ d ∈ x.sched.pipe.bindings, d.num = b.num → d = b) →
      (x.entryHeld b = false →
        (∀ d ∈ (x.putCapture b e).sched.pipe.bindings, d.num = b.num → d.produced = b.produced + 1 ∧ d.dropped = b.dropped ∧
          d.droppedLast = b.dropped) ∧
        (x.putCapture b e).sched.cmds = x.sched.cmds ∧ (x.putCapture b e).mem.tpt = x.mem.tpt) ∧
      (x.entryHeld b = true →
        (∀ d ∈ (x.putCapture b e).sched.pipe.bindings, d.num = b.num → d = { b with dropped := b.dropped + 1 }) ∧
        (x.putCapture b e).sched.cmds = x.sched.cmds ∧ (x.putCapture b e).mem.tpt = x.mem.tpt) ∧
      (∀ d ∈ (x.putCapture b e).sched.pipe.bindings, d.num ≠ b.num → d ∈ x.sched.pipe.bindings))


/-! ### Partners, endpoints and dies (spec/17_partners.md, spec/15_die_to_die_links.md R382) -/

/-- PTN_RELEASE of an EMPTY entry is malformed; of an entry that is not quarantined it changes nothing and completes with ST_OK, of a
quarantined one it ends the quarantine (R432); QUARANTINE_RELEASE_TIMEOUT does so at RELEASE_TIME (R427); PARTNER_ABSENT_TIMEOUT makes a
partner unseen for its kind's period ABSENT (R423); PTN_LIST describes the first entry that is not EMPTY from FIRST on, and with the long
form every entry that fits (R430); LOG_READ returns the next entry of a log and NEXT_SEQ (R431), or with the long form as many as fit;
MGMT_BUS_FRAMING_ERROR is counted against the tool (R426); MGMT_ALERT_RESPONSE releases MGMT_ALERT_N on both halves
(spec/22_package_and_electrical.md R551). -/
def Obligations.PartnerMessagesComplete : Prop :=
  ∀ (h : HalfId) (slot n : Nat) (s : State),
    let x := s.half h
    let m := x.msg slot
    let p := x.partner (pay m 0 8)
    (x.sends slot 0x0902 1 = true → p.st = .empty → exec (.ptnRelease h slot) s =
      .next (s.mod h (fun y => y.finishBad slot { bad := true, st := stMalformed, off := 0x10 }))) ∧
    (x.sends slot 0x0902 1 = true → p.st ≠ .empty → p.st ≠ .quarantined →
      exec (.ptnRelease h slot) s = .next (s.mod h (fun y => y.finish slot stOk []))) ∧
    (x.sends slot 0x0902 1 = true → p.st = .quarantined →
      exec (.ptnRelease h slot) s = .next ((s.release h (pay m 0 8)).mod h (fun y => y.finish slot stOk []))) ∧
    (x.alive = true → (x.partner n).st = .quarantined → (x.partner n).release ≠ 0 → (x.partner n).release.toNat ≤ x.st →
      exec (.quarantineReleaseTimeout h n) s = .next (s.release h n)) ∧
    (x.alive = true → ptnPeriod (x.partner n).kind.toNat ≠ 0 → (x.partner n).last.toNat + ptnPeriod (x.partner n).kind.toNat ≤ x.st →
      exec (.partnerAbsentTimeout h n) s = .next (s.mod h (fun y => y.ptnAbsent n))) ∧
    (x.sends slot 0x0901 1 = true → ∀ q, x.nextPartner (pay m 0 8) = some q →
      exec (.ptnList h slot) s = .next (s.mod h (fun y => y.finish slot stOk
        [(0x00, 8, q.num), (0x01, 8, q.kind.toNat), (0x02, 8, ptnCode q.st), (0x03, 8, q.attach.toNat), (0x04, 32, q.gen.toNat),
         (0x08, 64, q.ident.toNat), (0x10, 64, q.last.toNat), (0x18, 32, q.viol.toNat),
         (0x1C, 16, ((x.nextPartner (q.num + 1)).map (·.num)).getD 0x100)]))) ∧
    (x.sends slot 0x0901 1 = true → x.nextPartner (pay m 0 8) = none →
      exec (.ptnList h slot) s = .next (s.mod h (fun y => y.finish slot stOk [(0x1C, 16, 0x100)]))) ∧
    (x.sendsLong slot 0x0901 67108864 = true → inLen m = 0 →
      let bytes := (x.ptn.entries.flatMap (fun q => leBytes 64 q.word.toNat)).take (outLen m / 64 * 64)
      exec (.ptnList h slot) s = .next (s.mod h (fun y =>
        (y.commitBytes (msgCtx m) (placeBytes (outAddr m) bytes)).settle.finish slot stOk [(0x00, 32, bytes.length)]))) ∧
    (60 ≤ slot → x.sends slot 0x0A01 8 = true → pay m 0 8 ≤ 2 → pay m 1 8 = 0 →
      let l := x.logOf (pay m 0 8)
      let r := logCopy l.1 l.2 (pay m 4 32) 1
      exec (.logRead h slot) s = .next (s.mod h (fun y => y.finish slot stOk
        [(0x00, 32, r.1.length), (0x04, 32, r.2), (0x08, 256, ((r.1.head?).map (·.toNat)).getD 0)]))) ∧
    (slot < 60 → x.sendsLong slot 0x0A01 67108864 = true → inLen m = 8 → x.vnat (msgCtx m) (inAddr m) 8 % 65536 ≤ 2 →
      let v := x.vnat (msgCtx m) (inAddr m) 8
      let l := x.logOf (v % 256)
      let r := logCopy l.1 l.2 (v / 2 ^ 32) (outLen m / 32)
      let bytes := r.1.flatMap (fun e => leBytes 32 e.toNat)
      exec (.logRead h slot) s = .next (s.mod h (fun y =>
        (y.commitBytes (msgCtx m) (placeBytes (outAddr m) bytes)).settle.finish slot stOk
          [(0x00, 32, bytes.length), (0x04, 32, r.2)]))) ∧
    (x.alive = true → x.toolIgnored (.tool n) = false → exec (.mgmtBusFramingError h n) s =
      .next (s.mod h (fun y => y.violate (y.agentSrc (.tool n)) 0x09 1 2 0 n))) ∧
    (∃ t, exec (.mgmtAlertResponse h) s = .next t ∧ ∀ g : HalfId, t.half g = { s.half g with mbx := { (s.half g).mbx with alert := false } })

/-- PCIE_ENDPOINT_DMA of a function that is not quarantined (R3, R426): bytes in mapped client pages that allow it are written or read,
a read that meets an uncorrectable block is a logged bus error, and anything else is refused as a violation of class 0x03; a quarantined
function's is dropped. SITE_DIE_WRITE and SITE_DIE_FILL of an admitted generic die act inside its windows, a FILL of a full word does not
happen yet, and outside the windows they are dropped and counted (spec/15_die_to_die_links.md R382). ROOT_PORT_LINK_DOWN makes the
functions of the port, or the one function removed, ABSENT and interrupts (R423). -/
def Obligations.EndpointsAndDiesStayInTheirPages : Prop :=
  ∀ (h : HalfId) (fn : BitVec 48) (c va n : Nat) (data : List Byte) (v : BitVec 64) (s : State),
    let x := s.half h
    let y := x.ptnArrive 5 0 fn.toNat
    let vio := fun (code a : Nat) => Host.Outcome.next { (s.setHalf h (y.violate (y.fnSrc fn) 0x03 code 2 0 a)) with resp := Resp.busError }
    x.alive = true →
    (x.powx.subReset.contains 13 = false →
      (∀ p, y.fnSrc fn = .partner p → (y.partner p).st = .quarantined → ∀ r, exec (.pcieEndpointDma h fn r) s =
        .next { (s.setHalf h y) with resp := .dropped }) ∧
      ((∀ p, y.fnSrc fn = .partner p → (y.partner p).st ≠ .quarantined) →
        (y.writable c va data.length = true → exec (.pcieEndpointDma h fn (.write c va data)) s =
          .next { (s.setHalf h (y.commitBytes c (placeBytes va data))) with resp := .ok }) ∧
        (y.writable c va data.length = false → exec (.pcieEndpointDma h fn (.write c va data)) s = vio 2 va) ∧
        (y.mappedPlain c va n = true → y.firstBad c [(va, n)] = none → exec (.pcieEndpointDma h fn (.read c va n)) s =
          .next { (s.setHalf h y) with resp := .data (y.vnat c va n) }) ∧
        (∀ b, y.mappedPlain c va n = true → y.firstBad c [(va, n)] = some b →
          exec (.pcieEndpointDma h fn (.read c va n)) s = .next { (s.setHalf h (y.apError c b)) with resp := .busError }) ∧
        (y.mappedPlain c va n = false → exec (.pcieEndpointDma h fn (.read c va n)) s = vio 2 va) ∧
        exec (.pcieEndpointDma h fn (.outside va)) s = vio 2 va ∧ exec (.pcieEndpointDma h fn .malformed) s = vio 1 0 ∧
        exec (.pcieEndpointDma h fn .unexpected) s = vio 3 0)) ∧
    (x.siteDie = true →
      ((x.siteWin c va data.length).isSome = true → x.writable c va data.length = true →
        exec (.siteDieWrite h c va data) s = .next (s.mod h (fun z => (z.commitBytes c (placeBytes va data)).settle))) ∧
      ((x.siteWin c va data.length).isSome = false ∨ x.writable c va data.length = false →
        exec (.siteDieWrite h c va data) s = .next (s.mod h (fun z => z.violate (.partner 8) 0x08 2 1 0 va))) ∧
      ((x.siteWin c va 8).isSome = true → x.syncBad c va = false → (x.wordAt c va).full = false →
        exec (.siteDieFill h c va v) s = .next (s.mod h (fun z => (z.fillWord c va v).settle))) ∧
      ((x.siteWin c va 8).isSome = true → x.syncBad c va = false → (x.wordAt c va).full = true →
        exec (.siteDieFill h c va v) s = .next s) ∧
      ((x.siteWin c va 8).isSome = false ∨ x.syncBad c va = true →
        exec (.siteDieFill h c va v) s = .next (s.mod h (fun z => z.violate (.partner 8) 0x08 2 1 0 va)))) ∧
    (∀ f, exec (.rootPortLinkDown h f) s = .next (s.mod h (fun z =>
      ((z.ptn.entries.filter (fun p => 16 ≤ p.num && p.kind = 5 && f.all (fun g => p.ident = g.setWidth 64))).foldl
        (fun (w : Half) p => w.ptnAbsent p.num) z).announce 77)))

/-! ### Ethernet and time (spec/16_time_and_ethernet.md) -/

/-- ETH_RECEIVE_FRAME with a good FCS on a working port: a frame that a flow takes goes to the flow with its ingress timestamp; one that no
flow takes goes to the receive ring of its priority, and on a port that bridges to the ports, the link and the stack that filtering names
(R402, R403, R405, R409); a gPTP frame where gPTP is not carried is counted in PTP_DROPS; a frame with a bad FCS goes nowhere. MAC_TRANSMIT of
a descriptor that the MAC owns sends the bytes of a mapped frame of 60 to 9,600 bytes with its timestamp, drops it and counts GATE_DROPS
behind a closed gate, and answers every other with ERROR (R401, spec/14_cores.md R372). ETH_LINK_CHANGE moves the port's link and roles (R417).
BRIDGE_FRAME_RECEIVE takes the oldest crossing frame to this half's ports and stack (R409), and a crossing Sync to its master ports (R410). -/
def Obligations.FramesFollowTheirRules : Prop :=
  ∀ (h : HalfId) (port t : Nat) (f : List Byte) (r : Ring) (q : RelaySync) (s : State),
    let x := s.half h
    (x.macLive port = true →
      exec (.ethReceiveFrame h port f false t) s = .next s ∧
      (frameType f ≠ 0x88F7 → ∀ k, x.flowOf port f = some k →
        exec (.ethReceiveFrame h port f true t) s = .next (s.mod h (fun y => y.toFlow port f k (t - (y.port port).ingressLat.toNat)))) ∧
      (frameType f ≠ 0x88F7 → x.flowOf port f = none → x.cfg.bridge = false ∨ 4 ≤ port →
        exec (.ethReceiveFrame h port f true t) s = .next (s.mod h (fun y => y.toRing port f (t - (y.port port).ingressLat.toNat)))) ∧
      (frameType f ≠ 0x88F7 → x.flowOf port f = none → x.cfg.bridge = true → port < 4 →
        exec (.ethReceiveFrame h port f true t) s = .next (s.mod h (fun y =>
          let u := (y.learn (frameSrc f) (bridgePort h port)).bridgeLocal (bridgePort h port) f
          let v := if u.bridgeCrosses f then u.bridgeCross port f else u
          if v.forStack (frameDst f) then v.toRing port f (t - (y.port port).ingressLat.toNat) else v))) ∧
      (frameType f = 0x88F7 → x.carriesPtp port = false → exec (.ethReceiveFrame h port f true t) s =
        .next (s.mod h (fun y => y.modPort port (fun k => { k with ptpDrops := k.ptpDrops + 1 })))) ∧
      (frameType f = 0x88F7 → x.carriesPtp port = true → netNat f (frameBody f + 4) 1 = x.cfgb.domain →
        exec (.ethReceiveFrame h port f true t) s = .next s)) ∧
    (x.cfgb.rings.find? (fun q => q.port = port && q.num = r.num && q.tx) = some r → x.macLive port = true →
      (x.port port).txOff[r.num]?.getD false = false → x.vnat r.ctx (x.ringDesc r + 0x0A) 1 % 2 = 1 →
      let len := x.vnat r.ctx (x.ringDesc r + 0x08) 2
      (len < 60 ∨ 9600 < len → exec (.macTransmit h port r.num t) s = .next (s.mod h (fun y => y.ringDone r len true none))) ∧
      (60 ≤ len → len ≤ 9600 → (∃ p, r.pair = some p ∧ x.ump.gates.getLsbD p = false) →
        exec (.macTransmit h port r.num t) s = .next (s.mod h (fun y =>
          (({ (y.modPort port (fun p => { p with gateDrops := p.gateDrops + 1 })) with
              cores := { y.cores with gateDrops := y.cores.gateDrops + 1 } } : Half).ringDone r len true none)))) ∧
      (60 ≤ len → len ≤ 9600 → (∀ p, r.pair = some p → x.ump.gates.getLsbD p = true) →
        (x.mapped r.ctx (x.vnat r.ctx (x.ringDesc r) 8) len = true → exec (.macTransmit h port r.num t) s =
          .next (s.mod h (fun y => (y.sendOn port (.frame (y.vread r.ctx (y.vnat r.ctx (y.ringDesc r) 8) len))).ringDone r len false (some (t + (y.port port).egressLat.toNat))))) ∧
        (x.mapped r.ctx (x.vnat r.ctx (x.ringDesc r) 8) len = false → exec (.macTransmit h port r.num t) s =
          .next (s.mod h (fun y => y.ringDone r len true none))))) ∧
    (x.alive = true → port < 5 →
      exec (.ethLinkChange h port true) s =
        .next (s.mod h (fun y => (y.modPort port (fun k => { k with linkUp := true })).bmca)).relayRoles ∧
      exec (.ethLinkChange h port false) s = .next (s.mod h (fun y =>
        let z := if y.tim.lead = true ∧ y.tim.source = 1 ∧ y.tim.sourcePort.toNat = port then y.loseSource else y
        (z.modPort port (fun k => { k with
          linkUp := false, asCapable := false, announce := none, pendSync := none, reqTime := none, pdResp := none
          pdPrev := none, relay := none })).bmca)).relayRoles) ∧
    (∀ rest, (s.half (other h)).takeOut LinkMsg.crossing = some (.inr q, rest) → x.alive = true → x.handoffUp = true → x.cfg.bridge = true →
      exec (.bridgeFrameReceive h) s =
        .next ((s.mod (other h) (fun o => { o with links := { o.links with outbox := rest } })).mod h (fun y => y.relayOut none q))) ∧
    (∀ p rest, (s.half (other h)).takeOut LinkMsg.crossing = some (.inl (p, f), rest) → x.alive = true → x.handoffUp = true →
      x.cfg.bridge = true →
      exec (.bridgeFrameReceive h) s =
        .next ((s.mod (other h) (fun o => { o with links := { o.links with
            outbox := rest, bridgeHeld := o.links.bridgeHeld - f.length } })).mod h (fun y =>
          let z := (y.learn (frameSrc f) p).bridgeLocal p f
          if z.forStack (frameDst f) = true then z.toRing (p % 4) f (y.st * 1000) else z)))

/-- The gPTP commands on a port whose message the time unit takes (R405, R407, R410). GPTP_SYNC_RECEIVE: a one-step Sync measures, a two-step
one waits for its GPTP_FOLLOW_UP_RECEIVE, which measures with it: a lead's slave port gives origin time plus correction plus link delay, less
the ingress time with the port's latency and asymmetry taken off, and on every other port the Sync is only counted. GPTP_ANNOUNCE_RECEIVE is
recorded and the roles are assigned again; a GPTP_PDELAY_RECEIVE request is answered with a response and its Follow_Up, the answer to the
part's own request completes in two messages. On a master port GPTP_SYNC_TRANSMIT sends the Sync that the relay holds with the residence time
and the ingress port's link delay added, or the part's own with its egress time, and ANNOUNCE_TRANSMIT an Announce; PDELAY_REQ_TRANSMIT sends
a request and keeps its egress time.
The clock (R411 to R422): SYNC_RECEIPT_TIMEOUT and FOLLOWER_EXCHANGE_TIMEOUT lose the source, and the clock free-runs
(R417); ANNOUNCE_RECEIPT_TIMEOUT forgets the announce (R418); TIME_EXCHANGE with the lead is recorded as INTER_HALF and followed (R416);
START_WAIT_EXPIRY ends the wait (R414); TIM_SYNC_LOAD gives the synchronised time and latches the local counter, both at one instant (R421);
TIM_STATUS returns the registers (R422) and TIM_PORT_ASYM sets a port's asymmetry within 1,000,000 ps (R406). -/
def Obligations.GptpAndTimeCommandsComplete : Prop :=
  (∀ (h : HalfId) (m : Ptp) (port origin vec steps t2 t : Nat) (corr : Int) (gm : BitVec 64) (s : State),
      let x := s.half h
      let y := (x.takePtp m).1
      let got := fun (at' : Nat) =>
        let z := y.modPort m.port (fun k => { k with syncRx := k.syncRx + 1, pendSync := none })
        let k := y.port m.port
        let off := ((origin : Int) + corr + (k.linkDelay.toNat : Int) -
          ((at' : Int) - (k.ingressLat.toNat : Int) - k.asym.toInt)) / 1000
        if k.role = 1 ∧ k.asCapable = true ∧ y.tim.lead = true then
          ((({ z with timx := { z.timx with lastSync := z.now } } : Half).acquire 1 m.port).measured off)
        else z
      ((x.takePtp m).2 = true →
        (x.cfg.bridge = false → y.cfg.bridge = false → exec (.gptpSyncReceive h m false origin corr) s = .next (s.setHalf h (got m.t))) ∧
        exec (.gptpSyncReceive h m false origin corr) s = .next (s.takeSync h y m.port m.t origin corr) ∧
        exec (.gptpSyncReceive h m true origin corr) s =
          .next (s.setHalf h (y.modPort m.port (fun k => { k with pendSync := some (m.seq, m.t) }))) ∧
        (∀ t1, (y.port m.port).pendSync = some (m.seq, t1) →
          exec (.gptpFollowUpReceive h m origin corr) s = .next (s.takeSync h y m.port t1 origin corr)) ∧
        (∀ q t1, (y.port m.port).pendSync = some (q, t1) → q ≠ m.seq →
          exec (.gptpFollowUpReceive h m origin corr) s = .next (s.setHalf h y)) ∧
        exec (.gptpAnnounceReceive h m vec gm steps) s = .next (s.setHalf h
          ((y.modPort m.port (fun k => { k with announce := some (vec, gm, steps), lastAnn := y.now })).bmca)).relayRoles ∧
        (∃ t3, exec (.gptpPdelayReceive h m .req) s = .next (s.setHalf h
          ((y.took.sendOn m.port (.pdelayResp (m.t - (y.port m.port).ingressLat.toNat))).sendOn m.port (.pdelayFollowUp t3))).relayRoles) ∧
        exec (.gptpPdelayReceive h m (.resp t2)) s = .next (s.setHalf h
          (y.modPort m.port (fun q => { q with pdResp := some (t2, m.t - (y.port m.port).ingressLat.toNat) }))).relayRoles) ∧
      ((x.takePtp m).2 = false → exec (.gptpSyncReceive h m false origin corr) s = .next (s.setHalf h y) ∧
        exec (.gptpFollowUpReceive h m origin corr) s = .next (s.setHalf h y) ∧
        exec (.gptpAnnounceReceive h m vec gm steps) s = .next (s.setHalf h y)) ∧
      (x.ptpLive port = true →
        ((x.port port).role = 2 →
          let out := t + (x.port port).egressLat.toNat
          (∀ r, (x.port port).relay = some r → exec (.gptpSyncTransmit h { port := port, t := t }) s = .next (s.mod h (fun z =>
            (z.sendOn port (.sync r.origin (r.corr + ((out : Int) - r.ingress) * (1000000000 + r.rate) / 1000000000 + r.delay))).modPort
              port (fun k => { k with relay := none })))) ∧
          ((x.port port).relay = none → x.cfg.bridge = false →
            exec (.gptpSyncTransmit h { port := port, t := t }) s = .next (s.mod h (fun z => z.sendOn port (.sync out 0)))) ∧
          exec (.announceTransmit h port) s = .next (s.mod h (fun z => z.sendOn port .announce))) ∧
        exec (.pdelayReqTransmit h port t) s = .next (s.mod h (fun z =>
          (z.sendOn port .pdelayReq).modPort port (fun k => { k with reqTime := some (t + k.egressLat.toNat), pdResp := none }))))) ∧
  (∀ (h : HalfId) (ag : Agent) (slot port : Nat) (ps : Int) (s : State),
      let x := s.half h
      let m := x.msg slot
      (x.alive = true → x.tim.lead = true → x.tim.source = 1 →
        x.timx.lastSync + x.cfgb.syncTimeout * logInterval x.cfgb.logSync ≤ x.now →
        ∃ t, exec (.syncReceiptTimeout h) s = .next t ∧ (t.half h).tim.source = 0 ∧ bitAt (t.half h).tim.events 1 = true ∧
          (x.tim.st ≠ .unset → (t.half h).tim.st = .freeRun) ∧ (t.half h).tim.rate = x.tim.rate ∧ (t.half h).mem = x.mem ∧
          (t.half h).sched = x.sched) ∧
      (x.alive = true → x.tim.lead = false → x.tim.source = 2 → x.timx.lastExch + 3000000 ≤ x.now →
        ∃ t, exec (.followerExchangeTimeout h) s = .next t ∧ (t.half h).tim.source = 0 ∧ bitAt (t.half h).tim.events 1 = true ∧
          (x.tim.st ≠ .unset → (t.half h).tim.st = .freeRun) ∧ (t.half h).mem = x.mem ∧ (t.half h).sched = x.sched) ∧
      (x.alive = true → (x.port port).announce.isSome = true →
        (x.port port).lastAnn + x.cfgb.annTimeout * logInterval x.cfgb.logAnn ≤ x.now →
        exec (.announceReceiptTimeout h port) s = .next (s.mod h (fun y => (y.modPort port (fun k => { k with announce := none })).bmca)).relayRoles) ∧
      (x.alive = true → (s.half (other h)).alive = true → (s.half (other h)).tim.running = true → x.handoffUp = true →
        x.tim.lead = false → (s.half (other h)).tim.lead = true →
        ∃ t, exec (.timeExchange h ps) s = .next t ∧ (t.half h).tim.interHalf = BitVec.ofInt 32 ps ∧ (t.half h).tim.source = 2 ∧
          (t.half h).tim.gm = (s.half (other h)).tim.gm ∧ (t.half h).tim.offset = (s.half (other h)).tim.offset ∧
          (t.half h).timx.lastExch = x.now ∧ (t.half h).mem = x.mem ∧ (t.half h).sched = x.sched ∧
          t.half (other h) = s.half (other h)) ∧
      (x.tim.running = true → x.tim.startedAt + x.cfgb.startWaitMs * 1000000 ≤ x.now →
        exec (.startWaitExpiry h) s = .next (s.mod h (fun y => { y with timx := { y.timx with startWait := true } }))) ∧
      (x.alive = true → (∀ a, ag ≠ .tool a) →
        exec (.timSyncLoad h ag 8 false) s = .next { (s.mod h (fun y => { y with tim := { y.tim with latch := BitVec.ofNat 64 y.now } }))
          with resp := .data (x.st % 2 ^ 64) } ∧
        exec (.timSyncLoad h ag 4 true) s = .next { (s.mod h (fun y => { y with tim := { y.tim with latch := BitVec.ofNat 64 y.now } }))
          with resp := .data (x.st / 2 ^ 32 % 2 ^ 32) }) ∧
      (x.sends slot 0x0801 0 = true → exec (.timStatus h slot) s = .next (s.mod h (fun y => y.finish slot stOk
        [(0x00, 64, x.timState.toNat), (0x08, 64, x.tim.offset.toNat), (0x10, 64, x.timRate.toNat), (0x18, 64, x.tim.gm.toNat),
         (0x20, 64, x.tim.freeSince.toNat), (0x28, 64, x.tim.interHalf.toNat)]))) ∧
      (x.sends slot 0x0802 8 = true → pay m 0 8 ≤ 4 → payBits m 1 0 24 = 0 → (decInt 32 (pay m 4 32)).natAbs ≤ 1000000 →
        exec (.timPortAsym h slot) s = .next (s.mod h (fun y =>
          (y.modPort (pay m 0 8) (fun p => { p with asym := BitVec.ofNat 32 (pay m 4 32) })).finish slot stOk []))))


/-! ### Links (spec/15_die_to_die_links.md) -/

/-- FLIT_CRC_ERROR of a working link is counted with its replay, on both halves for the Handoff link, and the eighth failed replay of one flit
(the fourth on the Tether, the model's choice, log 31) starts a retrain and counts against the link's partner (R384); LANE_FAULT_DETECTED
records the interval's result and retrains a working link when it makes the lane faulty (R385); SIDEBAND_LOSS of a site retrains it and is
counted against its partner (R389); LNK_RETRAIN starts a retrain whose end completes the message (R390); RETRAIN_COMPLETE brings a link up at
its width and rate and completes that message, or counts a failure (R386, R389), and a first training that fails is a failed discovery step
(R379); LINK_RECOVERY_CAUSE_CLEAR: deadline-mode cause 4 clears once every link is 1 ms past its retrain
(spec/13_bandwidth_regulation.md R350).
A retrain (R389): the link is RETRAINING for the reason given, RETRAINS counts it, and deadline-mode cause 4 is set; on the open
site captures stop. A retrain of the Handoff link is one for both halves, and of any other link does not touch the other half. -/
def Obligations.LinkEventsComplete : Prop :=
  (∀ (h : HalfId) (i lane rate slot : Nat) (rx bad again : Bool) (lanes : List Nat) (die : List Byte) (s : State),
      let x := s.half h
      let l := x.link i
      let key := lane + (if rx then 256 else 0)
      let hist := (bad :: ((l.laneHist.find? (fun p => p.1 = key)).map (·.2)).getD []).take 8
      x.alive = true →
      (i < 19 → l.works = true →
        let tries := if again then l.flitTries + 1 else 0
        let one := fun (y : Half) => y.modLink i (fun k => { k with crc := k.crc + 1, flitTries := tries, replay := k.replay + 1 })
        let both := (s.mod h (fun y => y.modLink i (fun k => { k with crc := k.crc + 1, flitTries := tries }))).mod (other h)
          (fun y => y.modLink i (fun k => { k with replay := k.replay + 1 }))
        (i ≠ handoffLink →
          (tries < 4 → exec (.flitCrcError h i again) s = .next (s.mod h one)) ∧
          (i ≠ tetherLink → tries < 8 → exec (.flitCrcError h i again) s = .next (s.mod h one)) ∧
          (i ≠ tetherLink → 8 ≤ tries → exec (.flitCrcError h i again) s =
            .next (((s.mod h one).retrain h i 3).mod h (fun z => z.linkVio i 1))) ∧
          (i = tetherLink → 4 ≤ tries → exec (.flitCrcError h i again) s =
            .next (((s.mod h one).retrain h i 3).mod h (fun z => z.linkVio i 2)))) ∧
        (i = handoffLink →
          (tries < 8 → exec (.flitCrcError h i again) s = .next both) ∧
          (8 ≤ tries → exec (.flitCrcError h i again) s = .next (both.retrain h i 3)))) ∧
      (i < 18 → l.works = true ∨ l.st = .retraining → lane < lnkData i + lnkSpares i + (if i = handoffLink then 1 else 0) →
        let y := s.mod h (fun y => y.modLink i (fun k => { k with laneHist := (key, hist) :: k.laneHist.filter (fun p => p.1 ≠ key) }))
        (l.works = false ∨ key ∉ ((y.half h).link i).runFaulty → exec (.laneFaultDetected h i lane rx bad) s = .next y) ∧
        (l.works = true → key ∈ ((y.half h).link i).runFaulty → exec (.laneFaultDetected h i lane rx bad) s = .next (y.retrain h i 2))) ∧
      (i ≤ 16 → l.works = true → exec (.sidebandLoss h i) s =
        .next ((s.retrain h i 4).mod h (fun y => y.linkVio i 3))) ∧
      (x.sends slot 0x0903 1 = true → pay (x.msg slot) 0 8 = i → i ≤ 18 → l.st ≠ .training → l.st ≠ .retraining →
        (i = handoffLink → l.st ≠ .disabled) → x.heldLink i = false →
        exec (.lnkRetrain h slot) s =
          .next (((s.retrain h i 5).mod h (fun y => y.modLink i (fun k => { k with slot := some slot }))).holdMsg h slot)) ∧
      (i < 17 → l.st = .retraining ∨ l.st = .training → x.heldLink i = false → lnkWidth i (lanes ++ l.runFaulty).eraseDups ≠ 0 → rate ≠ 0 →
        let y := x.trained i rate (lanes ++ l.runFaulty).eraseDups
        exec (.retrainComplete h i true rate lanes die) s = .next (s.setHalf h
          ((if (y.link i).works then y.discovered i die else y).retrainReply i))) ∧
      (i = tetherLink → l.st = .retraining ∨ l.st = .training → x.heldLink i = false →
        lnkWidth i (lanes ++ l.runFaulty).eraseDups ≠ 0 → rate ≠ 0 →
        exec (.retrainComplete h i true rate lanes die) s =
          .next (s.mod h (fun y => (y.tetherTrained rate (lanes ++ l.runFaulty).eraseDups).retrainReply i))) ∧
      (i < 17 → l.st = .training → x.heldLink i = false → exec (.retrainComplete h i false rate lanes die) s =
        .next (s.mod h (fun y => (y.stepFails i (if rate = 0 then 1 else 2)).retrainReply i))) ∧
      (i < 17 ∨ i = tetherLink → l.st = .retraining → x.heldLink i = false → l.slot = none → l.fails < 2 →
        exec (.retrainComplete h i false rate lanes die) s = .next (s.mod h (fun y => y.modLink i (fun k => { k with
          fails := k.fails + 1, retrains := satInc k.retrains })))) ∧
      ((∀ k ∈ x.links.recs, k.st ≠ .retraining ∧ ∀ t, k.recoveryDue = some t → t ≤ x.now) →
        ∃ t, exec (.linkRecoveryCauseClear h) s = .next t ∧ bitAt (t.half h).qos.causes 4 = false ∧
          (∀ k ∈ (t.half h).links.recs, k.recoveryDue = none) ∧ (t.half h).mem = x.mem ∧ (t.half h).sched = x.sched)) ∧
  (∀ (h : HalfId) (i reason : Nat) (s : State), i < (s.half h).links.recs.length → i < (s.half (other h)).links.recs.length → reason < 256 →
      let t := s.retrain h i reason
      let ends := fun (g : HalfId) =>
        ((t.half g).link i).st = .retraining ∧ ((t.half g).link i).reason.toNat = reason ∧
        ((t.half g).link i).retrains = satInc ((s.half g).link i).retrains ∧ bitAt (t.half g).qos.causes 4 = true ∧
        (∀ j, j ≠ i → (t.half g).link j = (s.half g).link j) ∧ (i ≠ 16 → (t.half g).mem = (s.half g).mem)
      ends h ∧ (i = 16 → (t.half h).sched.pipe.sideReset = true) ∧ (i = handoffLink → ends (other h)) ∧
      (i ≠ handoffLink → t.half (other h) = s.half (other h)))

/-- The Tether (spec/17_partners.md R433, R434). TETHER_LINK_UP: it comes up at its width and rate, the half then awaiting its peer's
identity, with a report that takes a leaf of the device key where one is left. TETHER_IDENTITY_RECEIVE: a peer with the configured serial (any,
when it is 0), of the same half and with a report that verifies is admitted, any other is quarantined. TETHER_LINK_DOWN: the peer is ABSENT,
its remote operations end, and it is no longer admitted. -/
def Obligations.TetherAdmitsItsPeer : Prop :=
  ∀ (h : HalfId) (rate half : Nat) (bad : List Nat) (serial : BitVec 64) (report : List Byte) (s : State),
    let x := s.half h
    let ok := (x.cfg.peerSerial = 0 ∨ serial = x.cfg.peerSerial) ∧ half = halfCode x.me ∧ Config.reportVerifies report = true
    x.alive = true →
    ((x.link tetherLink).works = false → x.heldLink tetherLink = false → lnkWidth tetherLink bad ≠ 0 → rate ≠ 0 →
      ∃ t, exec (.tetherLinkUp h rate bad) s = .next t ∧ (t.half h).link tetherLink = (x.trained tetherLink rate bad).link tetherLink ∧
        (t.half h).ptn.tetherUp = some x.now ∧ (t.half h).ptn.admitted = false ∧ (t.half h).sec.tetherReport = true ∧
        (t.half h).sec.leaves = (if x.sec.tetherReport = false ∧ x.sec.life ≠ 0 ∧ x.sec.leaves < 2 ^ 30 then x.sec.leaves + 1 else x.sec.leaves) ∧
        (t.half h).mem = x.mem) ∧
    ((x.link tetherLink).works = true → x.ptn.tetherUp.isSome = true → (x.partner 11).st ≠ .quarantined → 11 < x.ptn.entries.length →
      (ok → ∃ t, exec (.tetherIdentityReceive h serial half report) s = .next t ∧ (t.half h).ptn.admitted = true ∧
        (t.half h).ptn.tetherUp = none ∧ ((t.half h).partner 11).st = .present ∧ ((t.half h).partner 11).ident = serial ∧
        (t.half h).mem = x.mem) ∧
      (¬ ok → ∃ t, exec (.tetherIdentityReceive h serial half report) s = .next t ∧ (t.half h).ptn.tetherUp = none ∧
        ((t.half h).partner 11).st = .quarantined ∧ (t.half h).ptn.admitted = x.ptn.admitted)) ∧
    exec (.tetherLinkDown h) s = .next (s.mod h Half.tetherGone)

/-! ### The Umpire (spec/18_safety.md) -/

/-- The monitors of the Umpire (R440): CAPTAIN_HEARTBEAT_LOSS after 3 ms, REFCLK_FAILURE, SUPPLY_OUT_OF_WINDOW, CAPTAIN_MEMORY_UE,
JUNCTION_OVERTEMP and HBM_OVERTEMP after 10 ms each bring their half a half fault; the loss of the Captain's heartbeat does not while
INVASIVE is open (spec/19_security_debug_power.md R487). PAIR_LOCKSTEP_DISAGREE: a pair that fails closes its gate and waits for its reset;
unless INVASIVE is open on a half that can carry the chain, that is a half fault with no other pair running, and the loop pair's is otherwise
a pair switch (spec/14_cores.md R373). UMPIRE_SELF_FAILURE asserts KILL (R455).
A half fault (R453, Table — Fault reaction): the half enters its safe state with its gates closed, only domain 0 powered, its work
and its memory gone, any debug level ended (spec/19_security_debug_power.md R488), its end of the Handoff link DISABLED and FAULT on
both heartbeat paths; SAFE_ENTRIES counts it; domains that do not fall assert KILL. With the other half not running the device is in
SOLO. -/
def Obligations.MonitorsBringHalfFaults : Prop :=
  (∀ (h : HalfId) (p : Nat) (falls : Bool) (s : State),
      let x := s.half h
      let f := Host.Outcome.next (s.halfFault h falls)
      let y := s.mod h (fun z => ((z.closeGate p).stopPair p).revertPair p)
      (x.umpireRuns = true → exec (.umpireSelfFailure h) s =
        .next (s.mod h (fun z => { z with ump := { z.ump with kill := true, killed := true } }))) ∧
      (x.alive = true → x.umpireRuns = true →
        (x.ump.captainBeat + 3000000 ≤ x.ump.clock → x.sec.debug ≠ 2 → exec (.captainHeartbeatLoss h falls) s = f) ∧
        exec (.refclkFailure h falls) s = f ∧ exec (.supplyOutOfWindow h falls) s = f ∧ exec (.captainMemoryUe h falls) s = f ∧
        (∀ k ∈ x.powx.pairs, ∀ t, k.over118 = some t → t + 10000000 ≤ x.now → exec (.junctionOvertemp h falls) s = f) ∧
        (∀ k ∈ x.powx.stks, ∀ t, k.over100 = some t → t + 10000000 ≤ x.now → exec (.hbmOvertemp h falls) s = f)) ∧
      (x.alive = true → p < 2 → (x.pair p).running = true →
        (x.onlyLogs = true → exec (.pairLockstepDisagree h p falls) s = .next y) ∧
        (x.onlyLogs = false →
          ((x.pair (1 - p)).running = false → exec (.pairLockstepDisagree h p falls) s = .next (y.halfFault h falls)) ∧
          ((x.pair (1 - p)).running = true → p = x.cores.loopPair → exec (.pairLockstepDisagree h p falls) s =
            .next (y.mod h (fun z => z.pairSwitch (x.ump.gates.getLsbD p)))) ∧
          ((x.pair (1 - p)).running = true → p ≠ x.cores.loopPair → exec (.pairLockstepDisagree h p falls) s = .next y)))) ∧
  (∀ (h : HalfId) (falls : Bool) (s : State), (s.half h).alive = true → handoffLink < (s.half h).links.recs.length →
      let x := s.half h
      let t := s.halfFault h falls
      let y := t.half h
      y.umpx.safe = true ∧ y.alive = false ∧ y.ump.gates = 0 ∧ y.ump.role = 0 ∧ y.pow.domains = 1 ∧ y.sched.cmds = [] ∧
      y.mem.cells = [] ∧ y.mem.tpt = [] ∧ y.sec.debug = 0 ∧ (y.link handoffLink).st = .disabled ∧ y.links.outbox = [.fault] ∧
      y.links.busOut = x.links.busOut ++ [.fault] ∧ y.ump.safeEntries = satInc x.ump.safeEntries ∧
      (falls = false → y.ump.kill = true ∧ y.ump.killed = true) ∧ (falls = true → y.ump.killed = x.ump.killed) ∧
      y.ptn.log = x.ptn.log ∧ y.svc.flashA = x.svc.flashA ∧ y.svc.flashB = x.svc.flashB ∧ y.sec.life = x.sec.life ∧
      ((s.half (other h)).alive = false → t.dev.mode = .solo ∧ t.dev.soloFault = true ∧ t.dev.change = none) ∧
      ((s.half (other h)).alive = true → t.dev = s.dev ∧ (t.half (other h)).mem = (s.half (other h)).mem ∧
        (t.half (other h)).sched = (s.half (other h)).sched))

/-- The exchange of the two Umpires and of the Captain with its own. UMPIRE_HEARTBEAT_SEND puts a heartbeat on both paths, and
UMPIRE_HEARTBEAT_RECEIVE takes one (R441); CHECKPOINT_RECEIVE keeps the first checkpoint that waits (R447); SUBSTITUTE_RECEIVE takes the chain
and closes the other half's gates, and GATE_CLOSED_RECEIVE ends the substitution (R450); PEER_LOSS and FAULT_RECEIVE leave the device in SOLO
on this half (R441, R454, spec/01_two_halves.md R29); GATE_PERMIT_REFRESH and GATE_PERMIT_EXPIRY keep the permits (R442); MBX_HEARTBEAT_TICK
counts MBX_HEARTBEAT (spec/02_captain_and_mailboxes.md R34). -/
def Obligations.UmpireExchangesComplete : Prop :=
  ∀ (h : HalfId) (pre post : List LinkMsg) (s : State),
    let x := s.half h
    let o := s.half (other h)
    let out := s.mod (other h) (fun y => { y with links := { y.links with outbox := pre ++ post } })
    let bus := s.mod (other h) (fun y => { y with links := { y.links with busOut := pre ++ post } })
    (x.umpireRuns = true →
      exec (.umpireHeartbeatSend h) s = .next (s.mod h (fun y =>
        let z := if y.handoffStands then y.send .heartbeat else y
        { z with links := { z.links with busOut := z.links.busOut ++ [.heartbeat] } })) ∧
      (LinkMsg.heartbeat ∉ pre → o.links.busOut = pre ++ .heartbeat :: post → exec (.umpireHeartbeatReceive h true) s =
        .next (bus.mod h (fun y => { y with ump := { y.ump with lastBus := y.ump.clock, peerBus := true } }))) ∧
      (LinkMsg.heartbeat ∉ pre → o.handoffUp = true → o.links.outbox = pre ++ .heartbeat :: post →
        exec (.umpireHeartbeatReceive h false) s =
          .next (out.mod h (fun y => { y with ump := { y.ump with lastHandoff := y.ump.clock, peerHandoff := true } })))) ∧
    (∀ fr fu pl mask marks lp grid, (∀ m ∈ pre, m.asCheckpoint = none) → x.alive = true → o.handoffUp = true →
      o.links.outbox = pre ++ .checkpoint fr fu pl mask marks lp grid :: post →
      exec (.checkpointReceive h) s = .next (out.mod h (fun y => { y with
        ump := { y.ump with checkpoints := (({ frame := fr, fusion := fu, plan := pl, mask := mask, marks := marks, loop := lp
                                               grid := grid, crossed := true } : Checkpoint) ::
          y.ump.checkpoints.filter (fun k => k.frame ≠ fr)).take 2 }
        umpx := { y.umpx with gotCheck := true, untrusted := false } }))) ∧
    (∀ fr, (∀ f, LinkMsg.substitute f ∉ pre) → x.alive = true → x.umpireRuns = true → o.handoffUp = true →
      o.links.outbox = pre ++ .substitute fr :: post →
      ∃ t, exec (.substituteReceive h) s = .next t ∧ (t.half h).umpx.sub = .restored ∧ (t.half h).umpx.untrusted = true ∧
        bitAt (t.half h).ump.events 3 = true ∧ (t.half (other h)).ump.gates = 0 ∧ t.dev = s.dev) ∧
    (LinkMsg.gateClosed ∉ pre → x.alive = true → x.umpireRuns = true → o.handoffUp = true →
      o.links.outbox = pre ++ .gateClosed :: post →
      (x.umpx.sub = .restored → exec (.gateClosedReceive h) s =
        .next ((((out.mod h (fun y => { y with umpx := { y.umpx with sub := .none } })).mod (other h)
          Half.becomeStandby).moveChain h).openChain h)) ∧
      (x.umpx.sub ≠ .restored → s.dev.chain = h → exec (.gateClosedReceive h) s = .next (out.openChain h)) ∧
      (x.umpx.sub ≠ .restored → s.dev.chain ≠ h → exec (.gateClosedReceive h) s = .next out)) ∧
    (x.umpireRuns = true → x.alive = true → x.ump.lastHandoff + 3000000 ≤ x.ump.clock → x.ump.lastBus + 3000000 ≤ x.ump.clock →
      (x.ump.peerHandoff = true ∨ x.ump.peerBus = true ∨ s.dev.mode ≠ .solo) →
      exec (.peerLoss h) s = .next ((s.mod h (fun y => { y with ump := { y.ump with peerHandoff := false, peerBus := false } })).lostPeer h)) ∧
    (x.umpireRuns = true → x.alive = true → LinkMsg.fault ∈ o.links.outbox ∨ LinkMsg.fault ∈ o.links.busOut →
      ∃ t, exec (.faultReceive h) s = .next t ∧ t.dev.mode = .solo ∧ t.dev.chain = h) ∧
    ((s.lostPeer h).dev.mode = .solo ∧ (s.lostPeer h).dev.chain = h) ∧
    (x.umpireRuns = true → x.permits = true → ∃ t, exec (.gatePermitRefresh h) s = .next t ∧ (t.half h).ump.gates = x.ump.gates ∧
      (∀ j < x.ump.permit.length,
        (t.half h).ump.permit[j]? = if x.ump.gates.getLsbD j then some x.ump.clock else x.ump.permit[j]?)) ∧
    (∃ t, exec (.gatePermitExpiry h) s = .next t ∧ (t.half h).mem = x.mem ∧ (t.half h).sched = x.sched ∧ ∀ j < 2,
      (t.half h).ump.gates.getLsbD j = (x.ump.gates.getLsbD j && decide (x.ump.clock < x.ump.permit[j]?.getD 0 + 2000000))) ∧
    (x.captainRuns = true → ∃ t, exec (.mbxHeartbeatTick h) s = .next t ∧ (t.half h).mbx.heartbeat = x.mbx.heartbeat + 1 ∧
      (t.half h).ump.captainBeat = x.ump.clock ∧ (t.half h).mbx.slots = x.mbx.slots ∧ (t.half h).mem = x.mem)

/-- UMPIRE_VERDICT: a warm-up agrees when every element of its output matches the known output, where a NaN matches only a NaN, an infinity
only one of its sign, and nothing finite either of them (spec/03_arithmetic_formats.md R88). An engine that no rule of a spare, a swap or a
rerun concerns has passed for the frame when it agrees (R443); its first disagreement starts the reruns (R445), and makes the previous frame
untrusted where the engine carried the chain's work in it (R445, R449). COMPARE_RECORD_RECEIVE, of the records that the halves exchange in
MIRROR: one that matches is noted and any other counts as a mismatch, and so does one that is late by 2 ms, at COMPARE_RECORD_TIMEOUT
(R451, R452). -/
def Obligations.UmpireJudgesWarmupsAndRecords : Prop :=
  ∀ (h : HalfId) (n : Nat) (out : List WarmElem) (tol : List (Nat × Nat)) (w : WarmElem) (pre post : List LinkMsg) (s : State),
    let x := s.half h
    let chain := (n ∈ x.ump.prevMask ∨ (x.engine n).st = .quick) ∧ s.dev.chain = h ∧ s.dev.evacuated = false ∧ x.powx.ready = true
    x.alive = true → x.umpireRuns = true →
    ((x.engine n).warmDone = true →
      (x.warmAgrees out = true → exec (.umpireVerdict h n out) s = .next ((s.mod h (fun y => y.verdict n true)).trustCopies h)) ∧
      (x.warmAgrees out = false → x.firstDisagree n = true → chain → exec (.umpireVerdict h n out) s =
        .next ((((s.mod h (fun y => y.verdict n false)).trustCopies h).untrustedFrame h x.ump.prevFrame).setRoles)) ∧
      (x.warmAgrees out = false → x.firstDisagree n = false ∨ ¬ chain →
        exec (.umpireVerdict h n out) s = .next ((s.mod h (fun y => y.verdict n false)).trustCopies h))) ∧
    (x.warmAgrees out = true ↔ ∀ e ∈ out, bandMatch x.cfgb.tol e = true) ∧
    (let y := warmNum w.fmt w.y w.yScale
     let r := warmNum w.fmt w.r w.rScale
     (y = .nan → (bandMatch tol w = true ↔ r = .nan)) ∧ (r = .nan → (bandMatch tol w = true ↔ y = .nan)) ∧
     (∀ b, y = .inf b → (bandMatch tol w = true ↔ r = .inf b)) ∧ (∀ b, r = .inf b → (bandMatch tol w = true ↔ y = .inf b))) ∧
    (x.firstDisagree n = true → n < x.sched.engines.length →
      ((x.verdict n true).engine n).warmup = 1 ∧ ((x.verdict n true).engine n).passedFrame = true ∧
      ((x.verdict n true).engine n).warmDone = false ∧ (∀ k, k ≠ n → (x.verdict n true).engine k = x.engine k) ∧
      ((x.verdict n false).engine n).passedFrame = false ∧ (x.verdict n false).ump.rerun = (n, 0, x.frame) :: x.ump.rerun ∧
      (x.verdict n false).umpx.badFrame = some x.frame ∧ (∀ k, k ≠ n → (x.verdict n false).engine k = x.engine k)) ∧
    (∀ plan frame data at' ours, (∀ p f d, LinkMsg.compare p f d ∉ pre) → (s.half (other h)).handoffUp = true →
      (s.half (other h)).links.outbox = pre ++ .compare plan frame data :: post →
      x.umpx.ownRec.find? (fun r => r.1 = plan && r.2.1 = frame) = some (plan, frame, at', ours) →
      let good := if plan then x.planMatches ours data else x.fusedMatches ours data
      exec (.compareRecordReceive h) s =
        .next (((s.mod (other h) (fun o => { o with links := { o.links with outbox := pre ++ post } })).mod h (fun y =>
          let z := y.dropOwn plan frame
          if good then { z with umpx := { z.umpx with matched := ((plan, frame) :: z.umpx.matched).take 8 } }
          else z.mismatch frame)).noteCompare)) ∧
    (∀ plan frame at' ours, x.umpx.ownRec = [(plan, frame, at', ours)] → (s.half (other h)).umpx.ownRec = [] →
      at' + 2000000 ≤ x.now → ∃ t, exec (.compareRecordTimeout h) s = .next t ∧ (t.half h).umpx.ownRec = [] ∧
        (t.half h).ump.mismatches = satInc x.ump.mismatches ∧ bitAt (t.half h).ump.events 5 = true)

/-! ### Modes, diagnostics and the frame boundary (spec/01_two_halves.md, spec/18_safety.md R456 to R463) -/

/-- SAF_STATUS and SAF_SELFTEST_STATUS return their tables (R462, R459). SAF_MODE_REQUEST of the mode in force completes at once (the
model's choice, log 39); from DUAL or MIRROR a change is in progress until its boundary, and from SOLO the return begins (R461,
spec/01_two_halves.md R29, R30). DIAG_RUN starts its test with deadline-mode cause 1, a gate test closing its pair's gate, and its second
execution ends it with the result (R463, spec/13_bandwidth_regulation.md R350). HALF_READY makes a half ready; at power-on the device enters
its mode once both are, or SOLO on the first where the second passes the boot bound (R28). -/
def Obligations.SafetyMessagesComplete : Prop :=
  ∀ (h : HalfId) (slot : Nat) (pass : Bool) (s : State),
    let x := s.half h
    let m := x.msg slot
    let mode := pay m 0 8
    let half : HalfId := if pay m 1 8 = 0 then .a else .b
    let r := other s.dev.chain
    (x.sends slot 0x0502 0 = true → exec (.safStatus h slot) s = .next (s.mod h (fun y => y.finish slot stOk (safFields s h)))) ∧
    (x.sends slot 0x0503 0 = true → exec (.safSelftestStatus h slot) s =
      .next (s.mod h (fun y => y.finish slot stOk (selftestFields x)))) ∧
    (x.sends slot 0x0501 3 = true → mode ≤ 2 → pay m 1 8 ≤ 1 → (mode < 2 → half = s.dev.chain ∧ pay m 2 8 = 0) →
      (mode = 2 → (s.half half).alive = true ∧ pay m 2 8 ≤ 2) → s.changing = false → s.dev.inMode ≠ 0 → s.substituting = false →
      let target : DevMode := if mode = 0 then .dual else if mode = 1 then .mirror else .solo
      (s.dev.mode = target → (mode = 2 → half = s.dev.chain) →
        exec (.safModeRequest h slot) s = .next (s.mod h (fun y => y.finish slot stOk []))) ∧
      (s.dev.mode ≠ .solo → s.dev.mode ≠ target → exec (.safModeRequest h slot) s =
        .next (({ s with dev := { s.dev with change := some (
          { kind := .request, target := target, half := half, leave := pay m 2 8, slot := some (h, slot)
            left := if target = .mirror then 2 else 1 } : Change) } } : State).holdMsg h slot)) ∧
      (s.dev.mode = .solo → mode < 2 → (s.half r).sec.debug ≠ 2 → (s.half r).unreachable = false →
        let u := s.startRejoin { half := r, target := target, slot := some (h, slot)
                                 kept := (s.half r).alive && !(s.half r).powx.held }
        u.dev.rejoin.isSome = true → exec (.safModeRequest h slot) s = .next (u.holdMsg h slot))) ∧
    (x.sends slot 0x0A02 2 = true → 1 ≤ mode → mode ≤ 4 →
      pay m 1 8 ≤ (if mode = 1 then 17 else if mode = 2 then 9 else if mode = 3 then 1 else 11) →
      (mode = 2 ∨ mode = 3 → x.cfg.mode = 3 ∨ x.cfg.mode = 5) → (mode = 1 → (x.engine (pay m 1 8)).st ≠ .retired) →
      (mode = 4 → pay m 1 8 ∈ x.mem.slicesOut) →
      exec (.diagRun h slot pass) s = .next ((s.mod h (fun y => (y.cause 1 true).diagWork mode (pay m 1 8) true false)).holdMsg h slot)) ∧
    (∀ n < 2, x.ump.gates.getLsbD n = true → ((x.diagWork 3 n true false).ump.gates.getLsbD n) = false ∧
      (x.diagWork 3 n true false).umpx.diagGate = some n ∧ (x.diagWork 3 n true false).mem = x.mem) ∧
    (x.captainRuns = true → (x.slot slot).st = .acked → (x.slot slot).started = true → msgOp m = 0x0A02 →
      exec (.diagRun h slot pass) s = .next (s.mod h (fun y => y.diagEnd slot pass))) ∧
    (x.canBeReady = true →
      let t := s.mod h Half.becomeReady
      let o := s.half (other h)
      (s.dev.started = false → o.alive = true → o.powx.ready = true → x.bootBound < x.now → exec (.halfReady h) s =
        .next ((t.enterMode .solo (other h)).mod h (fun y => { y with powx := { y.powx with held := true } }))) ∧
      (s.dev.started = false → o.alive = true → o.powx.ready = true → x.now ≤ x.bootBound →
        exec (.halfReady h) s = .next (t.enterMode (t.half .a).cfg.bootMode (t.half .a).cfg.primary)) ∧
      (s.dev.started = false → o.alive = false ∨ o.powx.ready = false → exec (.halfReady h) s = .next t) ∧
      (s.dev.started = true → ∀ q, s.dev.rejoin = some q →
        (q.half = h → q.step = 1 → exec (.halfReady h) s = .next (t.rejoinStep1 q).setRoles) ∧
        (q.half ≠ h ∨ q.step ≠ 1 → exec (.halfReady h) s = .next t.setRoles)) ∧
      (s.dev.started = true → s.dev.rejoin = none →
        (s.dev.chain = h ∨ o.alive = false → exec (.halfReady h) s = .next ((t.moveChain h).openChain h)) ∧
        (s.dev.chain ≠ h → o.alive = true →
          (s.dev.mode = .solo → exec (.halfReady h) s =
            .next (t.mod h (fun y => { y with powx := { y.powx with held := true } })).setRoles) ∧
          (s.dev.mode ≠ .solo → exec (.halfReady h) s = .next t.setRoles))))

/-- FRAME_BOUNDARY (R32): before the half's synchronised time has reached the next boundary it changes nothing. At one, the half's frame
is the newest, a held clock step is made (spec/16_time_and_ethernet.md R414), then on the chain-carrying half the device's part and on
either the half's own (R29); a change that is due puts the device into its target mode. -/
def Obligations.FrameBoundaryTakesEffect : Prop :=
  ∀ (h : HalfId) (k : Nat) (s : State) (c : Change),
    let x := s.half h
    let t := s.mod h (fun y => (y.beginFrame y.frameNow).heldStep)
    let u := if s.dev.chain = h then t.deviceBoundary h else t
    (x.frameNow ≤ x.frame → exec (.frameBoundary h) s = .next s) ∧
    (x.alive = true → x.powx.ready = true → x.tim.running = true → x.frame < x.frameNow → s.dev.started = true →
      s.dev.rejoin = none → (s.dev.chain = h ∨ ((s.half (other h)).alive = true ∧ (s.half (other h)).powx.ready = true)) →
      (u.half h).alive = true → (u.half h).powx.ready = true →
      exec (.frameBoundary h) s = .next ((u.pairBoundary h).mod h Half.ownBoundary).setRoles) ∧
    ((x.beginFrame k).frame = k ∧ (x.beginFrame k).ump.prevFrame = x.frame ∧ (x.beginFrame k).ump.chainMask = [] ∧
      (∀ n ∈ x.ump.chainMask, n ∈ (x.beginFrame k).ump.prevMask) ∧ (x.beginFrame k).mem = x.mem ∧ (x.beginFrame k).sched = x.sched) ∧
    (s.dev.change = some c → c.kind = .request → c.left = 1 →
      s.changeBoundary.dev.mode = c.target ∧ (c.target = .solo → s.changeBoundary.dev.chain = c.half) ∧
      (c.target ≠ .solo → s.changeBoundary.dev.chain = s.dev.chain))

/-- The periodic self-test and live calibration. SELFTEST_SLICE: a passing slice of an element counts, and the last of a pass completes it
(R457); a failing one of an element without a pair is a half fault, and of a pair's a failure of that pair (R440). SELFTEST_INTERVAL_MISSED: an
interval without a pass counts as missed once, and the tenth in a row sets event 7 and forces the next pass (R458). CALIBRATION_SLICE stores its
result in the non-volatile store, a thermal sensor's offset within 1 °C of the one before; an engine then owes its warm-up and a compute-die
module is retrained (spec/21_configuration_and_update.md R535). -/
def Obligations.SelfTestsAndCalibrationComplete : Prop :=
  ∀ (h : HalfId) (e pair item target : Nat) (falls : Bool) (result : BitVec 64) (s : State),
    let x := s.half h
    let t := x.test e
    let n := ((testSlices[e]?).map (·.1)).getD 1
    (x.sliceStarts e = true →
      exec (.selftestSlice h e true pair falls) s = .next (s.mod h (fun y => y.modTest e (fun k =>
        if k.slices + 1 < n then { k with slices := k.slices + 1 }
        else { k with slices := 0, passed := true, forced := false, missed := 0, passTime := some x.now, passSt := x.st }))) ∧
      (e ≠ 0 → exec (.selftestSlice h e false pair falls) s =
        .next ((s.mod h (fun y => y.modTest e (fun k => { k with slices := 0, passed := false }))).halfFault h falls)) ∧
      (e = 0 → pair < 2 → (x.pair pair).running = true → exec (.selftestSlice h e false pair falls) s =
        .next ((s.mod h (fun y => y.modTest e (fun k => { k with slices := 0, passed := false }))).pairFails h pair falls))) ∧
    (x.alive = true → e < 10 → e < x.tests.length → x.testInterval e ≠ 0 →
      let win := x.now / x.testInterval e - 1
      (t.missWin = some win ∨ (∃ p, t.passTime = some p ∧ win * x.testInterval e ≤ p) →
        exec (.selftestIntervalMissed h e) s = .next s) ∧
      (t.missWin ≠ some win → (∀ p, t.passTime = some p → p < win * x.testInterval e) →
        ∃ u, exec (.selftestIntervalMissed h e) s = .next u ∧ ((u.half h).test e).missed = satInc t.missed ∧
          ((u.half h).test e).forced = (t.forced || decide (10 ≤ (satInc t.missed).toNat)) ∧
          (satInc t.missed = 10 → bitAt (u.half h).ump.events 7 = true) ∧ (u.half h).mem = x.mem ∧ (u.half h).sched = x.sched)) ∧
    (x.alive = true → x.umpx.sub = .none → target < ([18, 4, 32, 64, 16][item]?).getD 0 →
      (item = 0 → (x.engine target).st = .active ∧ x.running target = false ∧ ∀ k ∈ x.sched.engines, k.st ≠ .draining) →
      (item = 4 → (x.link target).works = true ∧ ∀ k < 16, (x.link k).st ≠ .retraining) →
      let old := (((x.svc.trims.zip x.svc.trimData).find? (fun p => p.1 = (item, target))).map (·.2)).getD 0
      let kept : BitVec 64 := if item = 2 then BitVec.ofInt 64 (max (old.toInt - 16) (min (old.toInt + 16) result.toInt)) else result
      ∃ u, exec (.calibrationSlice h item target result) s = .next u ∧
        (x.svc.trims.length = x.svc.trimData.length → ((item, target), kept) ∈ (u.half h).svc.trims.zip (u.half h).svc.trimData) ∧
        (item = 0 → target < x.sched.engines.length → ((u.half h).engine target).rerunNext = true) ∧
        (item = 4 → target < x.links.recs.length →
          ((u.half h).link target).st = .retraining ∧ ((u.half h).link target).reason = 5))

/-! ### Power, thermal limits, resets and wakes (spec/20_power_thermal_reset.md, spec/22_package_and_electrical.md R544 to R549) -/

/-- PWR_STATE_REQUEST (R495, R496): the state already held completes at once; RUN and DIM take effect at once, DOZE at the frame boundary,
HIBERNATE and OFF after R497's steps, which HIBERNATE_HOLD_EXPIRY ends; it waits while a lifecycle request runs. PWR_CAP_SET of 60 W to 480 W
waits for the boundary, and is ST_BUSY while the other half runs out of reach (R501); THM_COOLANT_REPORT applies to both halves, to the other
one while the Handoff link stands (R510; log 85). POWER_SAMPLE gives the measured power. DOMAIN_POWER_GOOD: a domain that the power state wants
is on, an engine that was off then owing its warm-up (R494, R496); FORCED_DIM_RELEASE ends FORCED_DIM 1 s after the power has come down
(R505). -/
def Obligations.PowerMessagesComplete : Prop :=
  ∀ (h : HalfId) (slot d : Nat) (power : BitVec 16) (s : State),
    let x := s.half h
    let m := x.msg slot
    let st := pay m 0 8
    let v := pay m 0 16
    (x.sec.pendLife.isSome = true → exec (.pwrStateRequest h slot) s = .next s) ∧
    (x.sends slot 0x0701 8 = true → x.sec.pendLife = none → st ≤ 4 → payBits m 1 0 24 = 0 → (st < 3 → pay m 4 32 = 0) →
      (2 ≤ st → pwrOf st ≠ x.pow.st → s.dev.mode = .solo ∧ (s.dev.chain = h → x.cfg.suspended = true)) →
      s.changing = false → s.substituting = false → x.mem.mapOut = none → x.powx.pend = none → x.powx.holdSlot = none →
      let held := pwrOf st = x.pow.st ∧ ¬ (st = 1 ∧ x.pow.forcedDim = true ∧ x.pow.reqDim = false)
      (held → exec (.pwrStateRequest h slot) s = .next (s.mod h (fun y => y.finish slot stOk []))) ∧
      (¬ held → st < 2 → exec (.pwrStateRequest h slot) s =
        .next (s.mod h (fun y => (y.goRunDim (pwrOf st)).finish slot stOk []))) ∧
      (¬ held → st = 2 → exec (.pwrStateRequest h slot) s =
        .next ((s.mod h (fun y => { y with powx := { y.powx with pend := some (.doze, slot) } })).holdMsg h slot)) ∧
      (¬ held → 3 ≤ st → exec (.pwrStateRequest h slot) s = .next (s.mod h (fun y =>
        let z := y.sleepSteps (some slot)
        ({ z with powx := { z.powx with
            holdSlot := some (slot, z.now + 5000000, pwrOf st)
            wakeAt := if pay m 4 32 = 0 then none else some (z.ump.clock + pay m 4 32 * 980000) } } : Half).finish slot stOk [])))) ∧
    (∀ k t dst, x.powx.holdSlot = some (k, t, dst) → x.alive = true → t ≤ x.now →
      let u := (s.mod h (fun y => { y with powx := { y.powx with holdSlot := none } })).reachSleep h dst
      exec (.hibernateHoldExpiry h) s = .next (if x.powx.wakeLatched then u.wake h else u)) ∧
    (∀ dst, (x.asleep dst).pow.st = dst ∧ (x.asleep dst).ump.gates = 0 ∧ (x.asleep dst).sched.cmds = [] ∧
      (x.asleep dst).mem.cells = (if dst = .off then [] else x.mem.cells) ∧ (dst = .off → (x.asleep dst).pow.domains = 0)) ∧
    (x.sends slot 0x0702 2 = true → 60 ≤ v → v ≤ 480 → otherState x (s.half (other h)) = 7 → exec (.pwrCapSet h slot) s =
      .next (s.mod h (fun y => y.finishBad slot { bad := true, st := stBusy, retry := some 100000 }))) ∧
    (x.sends slot 0x0702 2 = true → 60 ≤ v → v ≤ 480 → otherState x (s.half (other h)) ≠ 7 → exec (.pwrCapSet h slot) s =
      .next (({ s with dev := { s.dev with pendCap := s.dev.pendCap ++ [(h, slot, v)] } } : State).holdMsg h slot)) ∧
    (x.sends slot 0x0703 2 = true →
      let up := fun (y : Half) => if y.alive then y.coolantReport (BitVec.ofNat 16 v) else y
      exec (.thmCoolantReport h slot) s = .next ((if x.handoffStands then (s.mod h up).mod (other h) up else s.mod h up).mod h (fun y => y.finish slot stOk []))) ∧
    (x.alive = true → exec (.powerSample h power) s = .next (s.mod h (fun y => { y with pow := { y.pow with power := power } }))) ∧
    (∀ t, x.alive = true → x.pow.forcedDim = true → x.powx.goodSince = some t → t + 1000000000 ≤ x.now →
      ∃ u, exec (.forcedDimRelease h) s = .next u ∧ (u.half h).pow.forcedDim = false ∧
        (u.half h).pow.st = (if x.pow.reqDim = true ∨ x.pow.st = .doze then x.pow.st else .run) ∧ (u.half h).mem = x.mem ∧
        (u.half h).sched.cmds = x.sched.cmds) ∧
    (x.powx.booted = true → x.umpx.safe = false → x.powx.inReset = false → d < 56 → x.wantDomain d = true →
      x.pow.domains.getLsbD d = false →
      ∃ u, exec (.domainPowerGood h d) s = .next u ∧ (u.half h).pow.domains = setBit x.pow.domains d ∧
        (1 ≤ d → d ≤ 18 → (x.engine (d - 1)).st = .off → d - 1 < x.sched.engines.length →
          ((u.half h).engine (d - 1)).st = .active ∧ ((u.half h).engine (d - 1)).wantWarmup = true) ∧
        (u.half h).sched.cmds = x.sched.cmds ∧ (u.half h).mem = x.mem)

/-- The thermal loop. THERMAL_LIMIT_UPDATE: the limits and the budget follow the readings (R503, R504). THETA_ESTIMATE: the thermal
resistances move by a quarter towards an estimate after a change of 15 W or more, within 0.05 to 1.00 °C/W (R502), and THETA_PROBE: after 600 s
without one the budget is raised for 10 s. TEMPERATURE_SAMPLE: a sample's valid sensors give the greater reading, from 110 °C a hot spot that is
slow until below 105 °C (R507, R508), and from 85 °C a stack refreshes twice as often (R509). COOLANT_REPORT_TIMEOUT: without a report for 3 s
the coolant counts as 65 °C (R510). -/
def Obligations.ThermalEventsComplete : Prop :=
  ∀ (h : HalfId) (p tj tm tin : Int) (pairs : List (BitVec 16 × BitVec 16)) (stks : List (BitVec 16)) (s : State),
    let x := s.half h
    (x.alive = true →
      (∃ t, exec (.thermalLimitUpdate h) s = .next t ∧ (t.half h).pow.thermal = power16 (min x.limits.1 x.limits.2) ∧
        (t.half h).pow.budget = BitVec.ofNat 16 (min 0xFFFF (x.nextBudget (s.share h)).1) ∧
        (t.half h).pow.limiter = BitVec.ofNat 4 (x.nextBudget (s.share h)).2 ∧ (t.half h).mem = x.mem ∧
        (t.half h).sched.cmds = x.sched.cmds ∧ t.half (other h) = s.half (other h)) ∧
      (x.powx.estAt + 10000000000 ≤ x.now →
        ∃ t, exec (.thetaEstimate h p tj tm tin) s = .next t ∧ (t.half h).powx.est = some (p, tj, tm, tin) ∧
          (x.powx.est = none → (t.half h).pow = x.pow) ∧
          (∀ p0 tj0 tm0 tin0, x.powx.est = some (p0, tj0, tm0, tin0) →
            ((p - p0).natAbs < 150 → (t.half h).pow = x.pow) ∧
            (150 ≤ (p - p0).natAbs →
              (t.half h).pow.thetaJ = BitVec.ofNat 16 (thetaNext x.pow.thetaJ.toNat ((tj - tj0) - (tin - tin0)) (p - p0)) ∧
              (t.half h).pow.thetaM = BitVec.ofNat 16 (thetaNext x.pow.thetaM.toNat ((tm - tm0) - (tin - tin0)) (p - p0)) ∧
              (t.half h).pow.thetaTime = BitVec.ofNat 64 x.st))) ∧
      (x.powx.lastEst + 600000000000 ≤ x.now → x.powx.probe = none → exec (.thetaProbe h) s =
        .next (s.mod h (fun y => { y with powx := { y.powx with probe := some (y.now + 10000000000) } }))) ∧
      (∃ t, exec (.temperatureSample h pairs stks) s = .next t ∧
        (∀ (i : Nat) (r : BitVec 16 × BitVec 16) (k : HotSpot), pairs[i]? = some r → x.powx.pairs[i]? = some k →
          (t.half h).powx.pairs[i]? = some (k.sample x.now r.1 r.2)) ∧
        (∀ (i : Nat) (v : BitVec 16) (k : StackT), stks[i]? = some v → x.powx.stks[i]? = some k → (t.half h).powx.stks[i]? = some (k.sample x.now v)) ∧
        (t.half h).mem = x.mem ∧ (t.half h).sched.cmds = x.sched.cmds) ∧
      (x.powx.lastCoolant + 3000000000 ≤ x.now → ∃ t, exec (.coolantReportTimeout h) s = .next t ∧
        (t.half h).pow.coolant = 0x410 ∧ bitAt (t.half h).pow.events 5 = true ∧ (t.half h).mem = x.mem ∧
        (t.half h).sched = x.sched)) ∧
    (∀ (k : HotSpot) now (a b : BitVec 16), -800 ≤ a.toInt → a.toInt ≤ 2400 → -800 ≤ b.toInt → b.toInt ≤ 2400 →
      (k.sample now a b).used.toInt = max a.toInt b.toInt ∧ (k.sample now a b).hot = decide (1760 ≤ max a.toInt b.toInt) ∧
      (k.sample now a b).slow = (decide (1760 ≤ max a.toInt b.toInt) || (k.slow && decide (1680 ≤ max a.toInt b.toInt)))) ∧
    (∀ (k : StackT) now (v : BitVec 16), (k.sample now v).temp = v ∧ (k.sample now v).refresh = if 1360 ≤ v.toInt then 1 else 0) ∧
    (∀ old dT dP, 50 ≤ thetaNext old dT dP ∧ thetaNext old dT dP ≤ 1000)

/-- What the resets keep (R512, R514, Table — Retention; spec/22_package_and_electrical.md R544 to R549): PWR_OK_FALL stops both
halves and HALF_RESET_ASSERT its half, with memory, work, slots and gates gone, the lifecycle state and the boot flash kept, and over a half
reset the partners' counts and the log; the other half's end of the Handoff link is DISABLED (spec/15_die_to_die_links.md R391).
DEVICE_POWER_ON and HALF_RESET_RELEASE boot, which BOOT_COUNT counts; a half whose self-test fails stays in its safe state. -/
def Obligations.ResetsKeepWhatIsRetained : Prop :=
  ∀ (h : HalfId) (la ua lb ub : Bool) (s : State),
    let x := s.half h
    let same := fun (y z : Half) => y.me = z.me ∧ y.sec.life = z.sec.life ∧ y.sec.devKey = z.sec.devKey ∧ y.sec.seqs = z.sec.seqs ∧
      y.svc.flashA = z.svc.flashA ∧ y.svc.flashB = z.svc.flashB ∧ y.svc.overlays = z.svc.overlays
    let off := fun (y z : Half) => same y z ∧ y.alive = false ∧ y.mem.cells = [] ∧ y.mem.tpt = [] ∧ y.sched.cmds = [] ∧
      y.sched.queues = [] ∧ y.mbx = {} ∧ y.ump.gates = 0 ∧ y.ump.role = 0 ∧ y.sec.debug = 0 ∧ y.pow.coolant = 0x410
    (s.dev.pwrOk = false → ∃ t, exec (.devicePowerOn la ua lb ub) s = .next t ∧ t.dev.pwrOk = true ∧ t.dev.serial = partSerial ∧
      t.dev.started = false ∧ t.pending = s.pending ∧ same t.a s.a ∧ same t.b s.b ∧
      (s.a.powx.inReset = false → t.a.sec.bootCount = s.a.sec.bootCount + 1) ∧
      (s.b.powx.inReset = false → t.b.sec.bootCount = s.b.sec.bootCount + 1)) ∧
    (s.dev.pwrOk = true → ∃ t, exec .pwrOkFall s = .next t ∧ t.dev.pwrOk = false ∧ t.dev.serial = s.dev.serial ∧
      off t.a s.a ∧ off t.b s.b ∧ t.a.ptn = {} ∧ t.b.ptn = {}) ∧
    (s.dev.pwrOk = true → x.powx.inReset = false → ∃ t, exec (.halfResetAssert h) s = .next t ∧ off (t.half h) x ∧
      (t.half h).powx.inReset = true ∧ (t.half h).ptn.log = x.ptn.log ∧
      (∀ n, ((t.half h).partner n).viol = (x.partner n).viol ∧
        ((x.partner n).st = .quarantined → ((t.half h).partner n).st = .quarantined) ∧
        ((x.partner n).st = .present → ((t.half h).partner n).st = .absent)) ∧
      ((s.half (other h)).alive = true → handoffLink < (s.half (other h)).links.recs.length →
        ((t.half (other h)).link handoffLink).st = .disabled)) ∧
    (s.dev.pwrOk = true → x.powx.inReset = true → ∃ t, exec (.halfResetRelease h la ua) s = .next t ∧ same (t.half h) x ∧
      (t.half h).powx.inReset = false ∧ (t.half h).sec.bootCount = x.sec.bootCount + 1 ∧ (t.half h).powx.ready = false ∧
      (la = false → (t.half h).alive = false ∧ (t.half h).umpx.safe = true))

/-- Wakes and subsystem resets: WAKE_PIN, WAKE_TIMER_EXPIRY at its time and PEER_WAKE each start the exit from HIBERNATE or OFF, are latched
during entry (R498, R499), and do nothing else; UNIT_WATCHDOG_EXPIRY: a command that its unit does not end within twice its budget and 10 ms has
the unit's subsystem reset (R512), and SUBSYSTEM_RESET_COMPLETE restarts a pair or releases what waited (R513). -/
def Obligations.WakesAndSubsystemResetsComplete : Prop :=
  ∀ (h : HalfId) (n code : Nat) (s : State) (c : Cmd),
    let x := s.half h
    let w := s.wakeOrLatch h
    (exec (.wakePin h) s = .next w ∧ (∀ t, x.powx.wakeAt = some t → (t ≤ x.ump.clock → exec (.wakeTimerExpiry h) s = .next w) ∧
        (x.ump.clock < t → exec (.wakeTimerExpiry h) s = .next s)) ∧
      (x.powx.wakeLine = true → exec (.peerWake h) s =
        .next ((s.mod h (fun y => { y with powx := { y.powx with wakeLine := false } })).wakeOrLatch h))) ∧
    (x.powx.holdSlot.isSome = true → w = s.mod h (fun y => { y with powx := { y.powx with wakeLatched := true } })) ∧
    (x.powx.holdSlot = none → x.umpx.safe = true ∨ x.powx.inReset = true ∨ s.dev.pwrOk = false ∨
      (x.pow.st ≠ .hibernate ∧ x.pow.st ≠ .off) → w = s) ∧
    (x.powx.holdSlot = none → x.umpx.safe = false → x.powx.inReset = false → s.dev.pwrOk = true →
      (x.pow.st = .hibernate → w = s.wakeHibernate h) ∧
      (x.pow.st = .off → w = (s.mod h (fun y => y.offReset.bootChain s.dev.serial true true (s.runner h))).trainHandoff h)) ∧
    (∀ sv, x.powx.saved = some sv → (∀ p ∈ x.svc.running, x.imageOk s.dev.serial p.1 p.2 = true) →
      let y := (s.wakeHibernate h).half h
      y.sched.clients = sv.clients ∧ y.sched.ctxs = sv.ctxs ∧ y.sched.queues = sv.queues ∧ y.mem.tpt = sv.tpt ∧
      y.mem.cells = x.mem.cells ∧ y.pow.st = .run) ∧
    (x.cmd n = some c → x.captainRuns = true → c.st ≠ .waiting → c.started + (2 * budgetUs c * 1000 + 10000000) ≤ x.now →
      x.subsystemOf c = some code → exec (.unitWatchdogExpiry h n) s = .next ((s.mod h Half.took).subsystemReset h code)) ∧
    (x.alive = true → code ∈ x.powx.subReset →
      let t := s.mod h (fun y => { y with powx := { y.powx with subReset := y.powx.subReset.filter (fun k => k ≠ code) } })
      (code = 4 ∨ code = 5 → exec (.subsystemResetComplete h code) s = .next (t.mod h (fun y => y.pairRestart (code - 4)))) ∧
      (code ≠ 4 → code ≠ 5 → exec (.subsystemResetComplete h code) s = .next (t.mod h Half.settle)))

/-! ### Security (spec/19_security_debug_power.md) -/

/-- The signed messages: a request that passes its checks raises its signer's stored SEQ on the halves it names (R471); that of
SEC_LIFECYCLE then waits on each of them for the frame boundary (R482), and SEC_DEBUG_AUTH opens its level on each for DURATION_S (R486), with
INVASIVE closing the gates (R487). A chunk that is not the last is staged (R481). SEC_DEBUG_END ends the level of the halves it names, and a
half whose INVASIVE level ended resets (R488). SEC_ATTEST returns a chunk of the report or certificate, or with the long form all of it, a new
nonce making a new report that takes a leaf and draws from the bucket (R478 to R480).
The events of the security block: KEYGEN_COMPLETE generates a key (R482), FIELD_DEBUG_TIME_SAVE and FIELD_DEBUG_EXPIRY keep the time of
FIELD-DEBUG (R483, R467), DEBUG_LEVEL_EXPIRY ends a level at its time (R488), UPLOAD_STAGE_IDLE_TIMEOUT empties a stage that has been idle for
10 s (R481), ATTEST_BUCKET_REFILL fills the bucket (R480), and TREE_GENERATION_COMPLETE makes the next tree of one-time keys (R469). -/
def Obligations.SecurityCommandsComplete : Prop :=
  (∀ (h : HalfId) (slot : Nat) (s : State),
      let x := s.half h
      let m := x.msg slot
      let b := x.vread (msgCtx m) (inAddr m) (inLen m)
      let halves := [HalfId.a, .b].filter (names (rqMask b))
      let longOk := fun (op : Nat) => x.sendsLong slot op 67108864 = true ∧ (inLen m = 128 ∨ inLen m = 3412) ∧ outLen m = 0
      (longOk 0x0602 →
        let key := decide (rq b 0 2 = 3) || decide (rqArg1 b = 2)
        let dur := if rq b 0 2 = 1 ∧ rqArg1 b = 0 ∧ rqArg0 b = 3 then (3600, 2592000) else (0, 0)
        let one := decide (rqArg1 b = 1) || (decide (rqArg1 b = 0) && decide (rqArg0 b = 4))
        worst (x.requestChecks s.dev.serial [1, 3] b (x.lifeAllows b) key dur) = none → (rqArg1 b ≠ 0 → rqArg0 b = 0) →
        (rq b 0 2 = 3 → x.sec.devKey = some (rqKey b)) → s.securityBusy = false → s.otherMissing h (rqMask b) = false →
        (one = false → rqMask b = 3) → x.sec.pendLife = none →
        let hold := fun (k : Nat) (y : Half) => { y with sec := { y.sec with pendLife := some (k, rqMask b, b) } }
        let t := (s.raiseSeq b).mod h (hold slot)
        exec (.secLifecycle h slot) s = .next ((if names (rqMask b) (other h) then t.mod (other h) (hold 64) else t).holdMsg h slot)) ∧
      (longOk 0x0603 → worst (x.requestChecks s.dev.serial [2] b
          (x.debugSigner b && !(decide (rqArg0 b = 2) && halves.any (fun g => decide ((s.half g).sec.life = 2)))) false (1, 86400)) = none →
        1 ≤ rqArg0 b → rqArg0 b ≤ 2 → rqArg1 b = 0 → s.securityBusy = false → s.otherMissing h (rqMask b) = false →
        (rqArg0 b = 2 → ∀ g ∈ halves, s.invasiveOk g = true) →
        exec (.secDebugAuth h slot) s = .next ((halves.foldl (fun u g => u.mod g (fun y => y.openDebug (rqArg0 b) (rqDur b)))
          (s.raiseSeq b)).mod h (fun y => y.finish slot stOk []))) ∧
      (∀ op ∈ [0x0602, 0x0603], ∀ k, x.sends slot op 0x30 = true → (pay m 4 32 = 128 ∧ pay m 2 16 = 4 ∨ pay m 4 32 = 3412 ∧ pay m 2 16 = 86) →
        takeChunk x.sec.upload slot op (pay m 0 16) (pay m 2 16) (pay m 4 32) x.now (chunkData m) = .more k →
        let t := (s.mod h (fun y => { y with sec := { y.sec with upload := some k } })).mod h (fun y => y.finish slot stOk [])
        (op = 0x0602 → exec (.secLifecycle h slot) s = .next t) ∧ (op = 0x0603 → exec (.secDebugAuth h slot) s = .next t)) ∧
      (x.sends slot 0x0604 1 = true → pay m 0 8 ≤ 3 → s.otherMissing h (pay m 0 8) = false →
        exec (.secDebugEnd h slot) s = .next (State.afterDebug s ((([HalfId.a, .b].filter (names (pay m 0 8))).foldl
          (fun u g => u.mod g Half.endDebug) s).mod h (fun y => y.finish slot stOk [])))) ∧
      (x.sends slot 0x0601 0x28 = true → worst (attestChecks x m) = none →
        let chunk := rq (attestReq x m) 2 2
        let nonce := rq (attestReq x m) 8 32
        let fresh := rq (attestReq x m) 0 1 = 0 ∧ chunk = 0 ∧ x.cached nonce = false
        let cert := if x.sec.life = 0 then x.certBody s.dev.serial else x.sec.cert
        let len := if rq (attestReq x m) 0 1 = 0 then 3796 else if x.sec.life = 0 then 128 else 3412
        let y := if fresh then x.newReport s.dev (BitVec.ofNat 256 nonce) else x
        let obj := if rq (attestReq x m) 0 1 = 0 then (y.sec.report.map (·.2)).getD [] else cert
        exec (.secAttest h slot) s = .next ((s.setHalf h y).mod h (fun z => z.finish slot stOk
          [(0x00, 16, cdiv len 40), (0x02, 16, chunk), (0x04, 32, len), (0x08, 320, bytesAt obj (40 * chunk) 40)])) ∧
        (fresh → 0 < x.sec.bucket → y.sec.leaves = x.sec.leaves + 1 ∧ y.sec.bucket + 1 = x.sec.bucket ∧ y.mem = x.mem ∧ y.sched = x.sched)) ∧
      (x.sendsLong slot 0x0601 67108864 = true → worst (attestChecks x m) = none →
        let nonce := rq (attestReq x m) 8 32
        let report := decide (rq (attestReq x m) 0 1 = 0)
        let y := if report && !x.cached nonce then x.newReport s.dev (BitVec.ofNat 256 nonce) else x
        let obj := if report then (y.sec.report.map (·.2)).getD [] else if x.sec.life = 0 then x.certBody s.dev.serial else x.sec.cert
        let len := if report then 3796 else if x.sec.life = 0 then 128 else 3412
        exec (.secAttest h slot) s = .next ((s.setHalf h (y.commitBytes (msgCtx m) (placeBytes (outAddr m) (layout len [(0, obj)]))).settle).mod h
          (fun z => z.finish slot stOk [(0x00, 32, len)])))) ∧
  (∀ (h : HalfId) (s : State),
      let x := s.half h
      (x.umpireRuns = true →
        (x.sec.keygen = true → ∃ t, exec (.keygenComplete h) s = .next t ∧
          (t.half h).sec = { x.sec with keygen := false, devKey := some (Config.deviceKey x.seed), leaves := 0 } ∧
          (t.half h).mem = x.mem ∧ (t.half h).sched = x.sched) ∧
        (512 ≤ x.sec.leaves % 1024 → exec (.treeGenerationComplete h) s =
          .next (s.mod h (fun y => { y with sec := { y.sec with nextTree := true } })))) ∧
      (x.alive = true →
        (x.sec.life = 3 → x.sec.fdMark + 60000000000 ≤ x.now → exec (.fieldDebugTimeSave h) s =
          .next (s.mod h (fun y => { y with sec := { y.sec with
            fdTime := x.sec.fdTime - 60, fdSaved := x.sec.fdTime - 60, fdMark := x.sec.fdMark + 60000000000 } }))) ∧
        (x.sec.life = 3 → x.sec.fdMark + x.sec.fdTime * 1000000000 ≤ x.now → exec (.fieldDebugExpiry h) s =
          .next (s.mod h (fun y => { y with sec := { y.sec with fdTime := 0, fdSaved := 0 } }))) ∧
        (x.sec.debug = 1 → x.sec.debugEnd ≤ x.now → exec (.debugLevelExpiry h) s = .next (s.mod h Half.endDebug)) ∧
        (x.sec.debug = 2 → x.sec.debugEnd ≤ x.now → exec (.debugLevelExpiry h) s = .next ((s.mod h Half.endDebug).rebootHalf h)) ∧
        (x.sec.bucket < 16 → x.sec.refill + 1000000000 ≤ x.now → exec (.attestBucketRefill h) s =
          .next (s.mod h (fun y => { y with sec := { y.sec with
            bucket := x.sec.bucket + 1, refill := x.sec.refill + 1000000000 } })))) ∧
      (∀ k, x.sec.upload = some k → k.used + 10000000000 ≤ x.now →
        exec (.uploadStageIdleTimeout h) s = .next (s.mod h (fun y => { y with sec := { y.sec with upload := none } }))))


/-! ### Overlays, images and evacuation (spec/21_configuration_and_update.md, spec/17_partners.md R435, R436) -/

/-- OVL_SUBMIT of a removal or of an overlay that passes its checks is held for a frame boundary (R520 to R522); UPD_STAGE writes the
inactive slot of the image's kind, valid or marked invalid, and an image of a kind without slots, or one that comes while a mode change, a
substitution or an activation of its kind runs, is not written (R529, R537); a chunk that is not the last is staged (R520);
TRANSFER_STAGE_IDLE_TIMEOUT drops a transfer idle for 10 s; OVL_STATUS returns its table (R527); and OVERLAY_CONFIRM_RECEIVE: the other half's
Captain confirms or rejects the first entry that awaits it (R522). -/
def Obligations.OverlayAndImageMessagesComplete : Prop :=
  ∀ (h : HalfId) (slot : Nat) (s : State),
    let x := s.half h
    let o := s.half (other h)
    let m := x.msg slot
    let i := x.vread (msgCtx m) (inAddr m) (inLen m)
    let whole := outLen m = 0 ∧ inLen m = 0x1000 + imgLen (x.vread (msgCtx m) (inAddr m) 0x20)
    (x.sends slot 0x0301 2 = true → pay m 0 8 = 1 → pay m 1 8 ≤ 7 → worst (s.heldChecks h (pay m 1 8)) = none →
      exec (.ovlSubmit h slot) s = .next ((s.mod h (fun y => y.hold (pay m 1 8) none (some slot))).holdMsg h slot)) ∧
    (x.sendsLong slot 0x0301 67108864 = true → whole →
      worst (x.ovlImageChecks s.dev.serial i ++ [s.otherBase h i] ++ s.heldChecks h (ovlSlot (imgPayload i))) = none →
      exec (.ovlSubmit h slot) s =
        .next ((s.mod h (fun y => y.hold (ovlSlot (imgPayload i)) (some i) (some slot))).holdMsg h slot)) ∧
    (x.sendsLong slot 0x0401 0x10001000 = true → whole → s.changing = false → s.substituting = false →
      slotKinds.contains (imgKind i) = true → imgKind i ≠ 0x11 → x.activating (imgKind i) = false →
      (worst (x.imageChecks s.dev.serial (imgKind i) 0x10000000 i) = none → exec (.updStage h slot) s =
        .next (s.mod h (fun y => (y.writeSlot (imgKind i) i true).finish slot stOk []))) ∧
      (∀ c, worst (x.imageChecks s.dev.serial (imgKind i) 0x10000000 i) = some c → exec (.updStage h slot) s =
        .next (s.mod h (fun y => (y.writeSlot (imgKind i) i false).finishBad slot c)))) ∧
    (x.sendsLong slot 0x0401 0x10001000 = true → whole →
      s.changing = true ∨ s.substituting = true ∨ slotKinds.contains (imgKind i) = false ∨ imgKind i = 0x11 ∨ x.activating (imgKind i) = true →
      ∃ c, exec (.updStage h slot) s = .next (s.mod h (fun y => y.finishBad slot c))) ∧
    (∀ op ∈ [0x0301, 0x0401], ∀ k, x.sends slot op 0x30 = true → 
      takeChunk x.svc.stage slot op (pay m 0 32) (pay m 4 32) 0 x.now (chunkData m) = .more k →
      (0 < pay m 0 32 → pay m 4 32 = imgChunks (imgLen k.data)) →
      let t := (s.mod h (fun y => { y with svc := { y.svc with stage := some k } })).mod h (fun y => y.finish slot stOk [])
      (op = 0x0301 → exec (.ovlSubmit h slot) s = .next t) ∧ (op = 0x0401 → exec (.updStage h slot) s = .next t)) ∧
    (∀ k, x.svc.stage = some k → k.used + 10000000000 ≤ x.now →
      exec (.transferStageIdleTimeout h) s = .next (s.mod h (fun y => { y with svc := { y.svc with stage := none } }))) ∧
    (x.sends slot 0x0302 1 = true → pay m 0 8 ≤ 7 →
      exec (.ovlStatus h slot) s = .next (s.mod h (fun y => y.finish slot stOk (ovlFields s x (pay m 0 8))))) ∧
    (∀ e, s.paired = true → x.alive = true → o.alive = true → x.handoffUp = true →
      x.svc.held.find? (fun e => e.confirmed.isNone) = some e →
      let own : Chk := { bad := o.svc.held.any (fun k => k.slot = e.slot), st := stBusy, retry := some 1000000 }
      let checks := (match e.image with
        | some i => o.ovlImageChecks s.dev.serial i
        | none => []) ++ [own]
      (∀ c, worst checks = some c → exec (.overlayConfirmReceive h) s = .next (s.mod h (fun y => y.dropHeld e c))) ∧
      (worst checks = none → exec (.overlayConfirmReceive h) s = .next (s.mod h (fun y => { y with svc := { y.svc with
        held := y.svc.held.map (fun (k : Held) => if k.slot = e.slot then { k with confirmed := some y.now } else k) } }))))

/-- UPD_ACTIVATE of an inactive slot that holds a verified image makes it the active one (R530): of a pair's firmware and of engine
microcode (unless the half is in DOZE) as a rollout that waits for the boundaries (R532, R534), of the other kinds on a half held for update,
for its next boot. EVACUATE (spec/17_partners.md R435): a region that cannot be read or copied ends the message with a failure, an
evacuation without the chain ends when its regions are copied, one with it waits for the hand-over. EVACUATE_ACCEPT_RECEIVE: an ACCEPT of the
frame's checkpoint at least 1 ms before the boundary is answered with COMMIT. EVACUATE_COMMIT_RECEIVE: a receiver records COMMIT and holds the
overlay that comes with it (R436). -/
def Obligations.ActivationAndEvacuationComplete : Prop :=
  ∀ (h : HalfId) (slot copied : Nat) (receiver : Bool) (gm : Option (BitVec 64)) (commit : Bool) (s : State),
    let x := s.half h
    let m := x.msg slot
    let kind := pay m 0 16
    let b := x.vread (msgCtx m) (inAddr m) (inLen m)
    (x.sends slot 0x0402 2 = true → slotKinds.contains kind = true →
      (x.goodSlot s.dev.serial kind (!decide (kind ∈ x.svc.selB))).isSome = true → s.changing = false → s.substituting = false →
      x.activating kind = false → (heldKinds.contains kind = true → x.powx.held = true) →
      (kind = 4 → exec (.updActivate h slot) s = .next ((s.mod h (fun y =>
        let z := (y.switchSlot 4).waitBoundary slot true
        { z with svc := { z.svc with updPair := some { kind := 4, slot := some slot } } })).holdMsg h slot)) ∧
      (kind = 5 → x.pow.st ≠ .doze → exec (.updActivate h slot) s = .next ((s.mod h (fun y =>
        let z := (y.switchSlot 5).waitBoundary slot true
        { z with svc := { z.svc with upd := some { kind := 5, slot := some slot } } })).holdMsg h slot)) ∧
      (kind = 5 → x.pow.st = .doze → exec (.updActivate h slot) s =
        .next (s.mod h (fun y => (y.switchSlot 5).finish slot stOk []))) ∧
      (kind ≠ 4 → kind ≠ 5 → exec (.updActivate h slot) s = .next (s.mod h (fun y => (y.toggleSlot kind).finish slot stOk [])))) ∧
    (x.sendsLong slot 0x0405 67108864 = true → outLen m = 0 → bytesAt b 2 2 ≤ 256 → inLen m = 64 + 32 * bytesAt b 2 2 →
      x.evacOk b = true →
      let chain := decide (bytesAt b 0 1 % 2 = 1)
      (chain = true → s.dev.chain = h ∧ s.dev.evacuated = false) → s.evacReady h chain receiver gm = true →
      let lost := (evacRegions b).any (fun r => (x.firstBad r.1 [(r.2.2.1, r.2.2.2)]).isSome)
      let u := s.mod h (fun y => y.announce 78)
      let bad := fun (st : Nat) => Host.Outcome.next ((u.mod h Half.took).mod h (fun y =>
        y.finishBad slot { bad := true, st := evacStatus x.seed st }))
      (lost = true → exec (.evacuate h slot receiver gm copied) s = bad stDataLost) ∧
      (lost = false → copied ≠ stOk → exec (.evacuate h slot receiver gm copied) s = bad copied) ∧
      (lost = false → copied = stOk → chain = false → exec (.evacuate h slot receiver gm copied) s =
        .next (u.mod h (fun y => y.finish slot stOk []))) ∧
      (lost = false → copied = stOk → chain = true → exec (.evacuate h slot receiver gm copied) s =
        .next (({ u with dev := { u.dev with
          evac := some { half := h, slot := slot, chain := true, seen := (x.ump.checkpoints.head?).map (·.frame) } } } : State).holdMsg h slot))) ∧
    (∀ e, s.dev.evac = some e → e.half = h → x.alive = true → x.ptn.admitted = true → e.step = 4 →
      x.evacSent e = true → x.st + 1000000 ≤ x.boundaryNs (x.frame + 1) → exec (.evacuateAcceptReceive h) s = .next
        (({ s with dev := { s.dev with evac := some { e with step := 6 } } } : State).mod h (fun y => y.waitBoundary e.slot true))) ∧
    (∀ seed, (∀ st ∈ [stDiscarded, stMalformed, stDenied, stBusy], evacStatus seed st = st) ∧
      evacStatus seed stDataLost ∈ [stMalformed, stTimeout, stDenied, stBusy, stUnsupported]) ∧
    (x.alive = true → x.ptn.admitted = true → x.cfg.evacReceiver = true → (x.link tetherLink).works = true →
      x.tetherRefused true = false → exec (.evacuateCommitReceive h [] commit) s = .next (s.mod h (fun y =>
        ({ y with svc := { y.svc with evacCommit := y.svc.evacCommit || commit } } : Half).announce 78)) ∧
      ∀ i, exec (.evacuateCommitReceive h [i] commit) s = .next ((s.evacOverlay h i).mod h (fun y =>
        ({ y with svc := { y.svc with evacCommit := y.svc.evacCommit || commit } } : Half).announce 78)))


/-! ### The control space and the TAP (spec/01_two_halves.md R18, R22, R23, spec/19_security_debug_power.md R485) -/

/-- REGISTER_WRITE by a core or pair (R23): an access that is not aligned, of another size or to an unassigned offset is dropped and
counted; a store to a read-only field is ignored; W1C and enable registers follow their bits; and a store of a field that has a command
of its own is that command. THM_CLUSTER_MHZ_WRITE takes 600 to 2,400 MHz (spec/20_power_thermal_reset.md R506). A tool's store reaches only the
pages of slots 60 to 63 (spec/02_captain_and_mailboxes.md R33). -/
def Obligations.RegisterStoresFollowTheirFields : Prop :=
  ∀ (h : HalfId) (ag : Agent) (off size v slot d c : Nat) (s : State),
    let x := s.half h
    let st := fun o => exec (.registerWrite h ag o 8 v) s
    let vio := fun (code o : Nat) => Host.Outcome.next (s.mod h (fun y => y.ctrlVio ag code o))
    (∀ a, ag = .tool a → toolPage off = false → exec (.registerWrite h ag off size v) s = .next s) ∧
    (x.alive = true → (∀ a, ag ≠ .tool a) →
      (aligned off size = false ∨ assigned off = false → exec (.registerWrite h ag off size v) s = vio 1 off) ∧
      (assigned off = true → (0x600000 ≤ off ∧ off < 0x700000) ∨ (0x1000000 ≤ off ∧ off < 0x2200000) → aligned off size = true →
        exec (.registerWrite h ag off size v) s = .next s) ∧
      (∀ o ∈ [0x140010, 0x200000, 0x200008, 0x200020, 0x400000, 0x400008, 0x400010, 0x400018, 0x400020, 0x400028, 0x400030, 0x400038,
        0x400040, 0x500000, 0x500008, 0x500010, 0x500018, 0x500030, 0x500038], st o = .next s) ∧
      (∃ t, st 0x140000 = .next t ∧ (t.half h).mbx.irqStatus = x.mbx.irqStatus &&& ~~~(BitVec.ofNat 64 v) ∧
        (t.half h).mbx.slots = x.mbx.slots ∧ (t.half h).mem = x.mem) ∧
      (∃ t, st 0x140008 = .next t ∧ (t.half h).mbx = { x.mbx with irqEnable := BitVec.ofNat 64 v } ∧ (t.half h).mem = x.mem) ∧
      (∃ t, st 0x200010 = .next t ∧ (t.half h).ump = { x.ump with events := x.ump.events &&& ~~~(BitVec.ofNat 15 v) }) ∧
      (∃ t, st 0x200018 = .next t ∧ (t.half h).ump = { x.ump with irqEnable := BitVec.ofNat 15 v }) ∧
      (∃ t, st 0x400048 = .next t ∧ (t.half h).tim = { x.tim with events := x.tim.events &&& ~~~(BitVec.ofNat 6 v) }) ∧
      (∃ t, st 0x500020 = .next t ∧ (t.half h).pow = { x.pow with events := x.pow.events &&& ~~~(BitVec.ofNat 10 v) }) ∧
      (∃ t, st 0x500028 = .next t ∧ (t.half h).pow = { x.pow with irqEnable := BitVec.ofNat 10 v }) ∧
      (∃ t, st 0x3002000 = .next t ∧ (t.half h).links = { x.links with irqStatus := x.links.irqStatus &&& ~~~(BitVec.ofNat 19 v) }) ∧
      (∃ t, st 0x3002008 = .next t ∧ (t.half h).links = { x.links with irqEnable := BitVec.ofNat 19 v }) ∧
      (slot < 64 → x.toolIgnored ag = false →
        (v.testBit 8 = true → st (0x100080 + slot * 0x1000) = exec (.mbxOwnerClaim h ag slot (BitVec.ofNat 8 v)) s) ∧
        (v.testBit 8 = false → st (0x100080 + slot * 0x1000) = exec (.mbxOwnerRelease h ag slot) s) ∧
        (d < 8 → st (0x100000 + slot * 0x1000 + 8 * d) = exec (.mbxInWrite h ag slot true d (BitVec.ofNat 64 v)) s)) ∧
      (off < 0x100000 → exec (.registerWrite h ag (0x300000 + off) size v) s = exec (.qosRegisterWrite h ag off size v) s) ∧
      (d < 4096 → st (0x700000 + d * 0x100) = exec (.doorbellStore h ag d (BitVec.ofNat 64 v)) s) ∧
      (d < 4096 → exec (.registerWrite h ag (0x700000 + d * 0x100) 4 v) s = vio 3 (0x700000 + d * 0x100)) ∧
      (c < 4 → st (0x500040 + 8 * c) = exec (.thmClusterMhzWrite h ag c (BitVec.ofNat 16 v)) s) ∧
      (c < 4 → ∀ mhz : BitVec 16,
        (600 ≤ mhz.toNat → mhz.toNat ≤ 2400 → ∃ t, exec (.thmClusterMhzWrite h ag c mhz) s = .next t ∧
          (t.half h).pow.clusters.map (·.2) = (x.pow.clusters.modify c (fun p => (p.1, mhz))).map (·.2) ∧
          (t.half h).sched.cmds = x.sched.cmds ∧ (t.half h).mem = x.mem) ∧
        (mhz.toNat < 600 ∨ 2400 < mhz.toNat → exec (.thmClusterMhzWrite h ag c mhz) s = vio 1 (0x500040 + 8 * c))))

/-- REMOTE_CONTROL_ACCESS (R18): with the other half's control space out of reach a load errs, a store is dropped, and the event is
recorded on the core's own half; otherwise the store acts on the other half and the load answers from it. TAP_INSTRUCTION (R485, Table —
Debug reach): IDCODE, BYPASS and SAMPLE always answer on a running half, EXTEST in MANUFACTURE and RETURNED, OBSERVE from its level on, and the
halts, reads, writes and private instructions in INVASIVE only, where the private ones are refused: the spec does not give their effect. -/
def Obligations.RemoteAccessesAndTapFollowTheirReach : Prop :=
  ∀ (h : HalfId) (core client off size n ctx va : Nat) (halt : Bool) (v : Nat) (data : List Byte) (s : State),
    let x := s.half h
    let ag : Agent := .core core client
    let none' := Host.Outcome.next { s with resp := Resp.none }
    (x.coreRuns core = true →
      (s.farCut h = true →
        exec (.remoteControlAccess h core client off size none) s =
          .next { (s.mod h (fun y => y.coreVio ag 1 off (ctrlBase (other h) + off))) with resp := .busError } ∧
        exec (.remoteControlAccess h core client off size (some v)) s =
          .next { (s.mod h (fun y => y.coreVio ag 1 off (ctrlBase (other h) + off))) with resp := .dropped }) ∧
      (s.farCut h = false →
        exec (.remoteControlAccess h core client off size (some v)) s =
          .next { ((s.mod h Half.crosses).mod (other h) (fun y => y.ctrlStore ag off size v)) with resp := .ok } ∧
        (aligned off size = true → assigned off = true → toolPage off = false →
          ∃ t, exec (.remoteControlAccess h core client off size none) s = .next t ∧
            t.resp = .data (accLoad ((((s.mod h Half.crosses).mod (other h) Half.crosses)).ctrlWord (other h) (off / 8 * 8)) off size) ∧
            (t.half (other h)).mem = (s.half (other h)).mem ∧ (t.half h).mem = x.mem))) ∧
    (x.pow.st = .off → x.umpx.safe = false → ∀ op, exec (.tapInstruction h op) s = none') ∧
    (x.alive = true →
      exec (.tapInstruction h .idcode) s = .next { s with resp := .data (Config.idcode (halfCode h)) } ∧
      exec (.tapInstruction h .bypass) s = .next { s with resp := .ok } ∧
      (∃ r t, exec (.tapInstruction h .sample) s = .next t ∧ t.resp = .data r ∧ (t.half h).mem = x.mem) ∧
      exec (.tapInstruction h .extest) s =
        .next { s with resp := if (x.sec.life = 0 ∨ x.sec.life = 4) ∧ (x.sec.debug = 0 ∨ x.sec.debug = 2) then .ok else .none } ∧
      (x.sec.debug = 0 → exec (.tapInstruction h .observe) s = none') ∧
      (x.sec.debug ≠ 0 → ∃ r t, exec (.tapInstruction h .observe) s = .next t ∧ t.resp = .data r ∧ (t.half h).mem = x.mem) ∧
      (x.sec.debug ≠ 2 → ∀ op ∈ [TapOp.captain halt, .core n halt, .pair n halt, .read ctx va n, .write ctx va data, .load off size,
        .store off size v, .priv], exec (.tapInstruction h op) s = none') ∧
      (x.sec.debug = 2 →
        exec (.tapInstruction h .priv) s = .refused .privateTap ∧
        exec (.tapInstruction h (.captain halt)) s = .next (s.mod h (fun y => { y with captainBad := halt })) ∧
        (∃ t, exec (.tapInstruction h (.core n halt)) s = .next t ∧
          (t.half h).cores.app[n]? = (x.cores.app[n]?).map (fun k => { k with halted := halt })) ∧
        (∃ t, exec (.tapInstruction h (.pair n halt)) s = .next t ∧
          (t.half h).cores.pairs[n]? = (x.cores.pairs[n]?).map (fun k => { k with halted := halt })) ∧
        (x.mapped ctx va n = true → exec (.tapInstruction h (.read ctx va n)) s =
          .next { s with resp := .data (leNat (x.vread ctx va n)) }) ∧
        (x.mapped ctx va data.length = true → exec (.tapInstruction h (.write ctx va data)) s =
          .next { (s.mod h (fun y => (y.commitBytes ctx (placeBytes va data)).settle)) with resp := .ok }) ∧
        (x.mapped ctx va n = false → exec (.tapInstruction h (.read ctx va n)) s = .next { s with resp := .busError }) ∧
        (x.mapped ctx va data.length = false → exec (.tapInstruction h (.write ctx va data)) s = .next { s with resp := .busError }) ∧
        exec (.tapInstruction h (.load off size)) s = .next (s.ctrlLoad h off size) ∧
        (aligned off size = false ∨ assigned off = false →
          exec (.tapInstruction h (.store off size v)) s = .next { s with resp := .dropped }) ∧
        (aligned off size = true → assigned off = true → exec (.tapInstruction h (.store off size v)) s =
          .next { (s.mod h (fun y => y.ctrlStore (.core 0 0) off size v)) with resp := .ok })))
end

