-- ==== Sys2Proof/Laws/Exec.lean ====
section
/-! SUPPORT. The effect of each command by its own name. -/

namespace Sys2Proof.Machine

@[simp] theorem exec_mbxOwnerClaim (h : HalfId) (ag : Agent) (slot : Nat) (client : BitVec 8) (s : State) :
    exec (.mbxOwnerClaim h ag slot client) s = execMbxOwnerClaim h ag slot client s := rfl
@[simp] theorem exec_mbxOwnerRelease (h : HalfId) (ag : Agent) (slot : Nat) (s : State) :
    exec (.mbxOwnerRelease h ag slot) s = execMbxOwnerRelease h ag slot s := rfl
@[simp] theorem exec_mbxInWrite (h : HalfId) (ag : Agent) (slot : Nat) (wide : Bool) (word : Nat) (v : BitVec 64) (s : State) :
    exec (.mbxInWrite h ag slot wide word v) s = execMbxInWrite h ag slot wide word v s := rfl
@[simp] theorem exec_messageAcknowledge (h : HalfId) (s : State) : exec (.messageAcknowledge h) s = execMessageAcknowledge h s := rfl
@[simp] theorem exec_sysNop (h : HalfId) (slot : Nat) (s : State) : exec (.sysNop h slot) s = execSysNop h slot s := rfl
@[simp] theorem exec_sysIdentify (h : HalfId) (slot : Nat) (s : State) : exec (.sysIdentify h slot) s = execSysIdentify h slot s := rfl
@[simp] theorem exec_sysStatus (h : HalfId) (slot : Nat) (s : State) : exec (.sysStatus h slot) s = execSysStatus h slot s := rfl
@[simp] theorem exec_clientRegister (h : HalfId) (slot : Nat) (s : State) :
    exec (.clientRegister h slot) s = execClientRegister h slot s := rfl
@[simp] theorem exec_clientRelease (h : HalfId) (slot : Nat) (s : State) :
    exec (.clientRelease h slot) s = execClientRelease h slot s := rfl
@[simp] theorem exec_ctxCreate (h : HalfId) (slot : Nat) (s : State) : exec (.ctxCreate h slot) s = execCtxCreate h slot s := rfl
@[simp] theorem exec_ctxDestroy (h : HalfId) (slot : Nat) (s : State) : exec (.ctxDestroy h slot) s = execCtxDestroy h slot s := rfl
@[simp] theorem exec_queueCreate (h : HalfId) (slot : Nat) (s : State) : exec (.queueCreate h slot) s = execQueueCreate h slot s := rfl
@[simp] theorem exec_queueDestroy (h : HalfId) (slot : Nat) (s : State) :
    exec (.queueDestroy h slot) s = execQueueDestroy h slot s := rfl
@[simp] theorem exec_queueBindDoorbell (h : HalfId) (slot : Nat) (s : State) :
    exec (.queueBindDoorbell h slot) s = execQueueBindDoorbell h slot s := rfl
@[simp] theorem exec_tptMap (h : HalfId) (slot : Nat) (s : State) : exec (.tptMap h slot) s = execTptMap h slot s := rfl
@[simp] theorem exec_tptUnmap (h : HalfId) (slot : Nat) (s : State) : exec (.tptUnmap h slot) s = execTptUnmap h slot s := rfl
@[simp] theorem exec_clientCounters (h : HalfId) (slot : Nat) (s : State) :
    exec (.clientCounters h slot) s = execClientCounters h slot s := rfl
@[simp] theorem exec_ovlSubmit (h : HalfId) (slot : Nat) (s : State) : exec (.ovlSubmit h slot) s = execOvlSubmit h slot s := rfl
@[simp] theorem exec_overlayConfirmReceive (h : HalfId) (s : State) :
    exec (.overlayConfirmReceive h) s = execOverlayConfirmReceive h s := rfl
@[simp] theorem exec_ovlStatus (h : HalfId) (slot : Nat) (s : State) : exec (.ovlStatus h slot) s = execOvlStatus h slot s := rfl
@[simp] theorem exec_updStage (h : HalfId) (slot : Nat) (s : State) : exec (.updStage h slot) s = execUpdStage h slot s := rfl
@[simp] theorem exec_updActivate (h : HalfId) (slot : Nat) (s : State) : exec (.updActivate h slot) s = execUpdActivate h slot s := rfl
@[simp] theorem exec_engRetire (h : HalfId) (slot : Nat) (s : State) : exec (.engRetire h slot) s = execEngRetire h slot s := rfl
@[simp] theorem exec_mapOut (h : HalfId) (slot : Nat) (s : State) : exec (.mapOut h slot) s = execMapOut h slot s := rfl
@[simp] theorem exec_evacuate (h : HalfId) (slot : Nat) (receiver : Bool) (gm : Option (BitVec 64)) (copied : Nat) (s : State) :
    exec (.evacuate h slot receiver gm copied) s = execEvacuate h slot receiver gm copied s := rfl
@[simp] theorem exec_evacuateAcceptReceive (h : HalfId) (s : State) :
    exec (.evacuateAcceptReceive h) s = execEvacuateAcceptReceive h s := rfl
@[simp] theorem exec_evacuateCommitReceive (h : HalfId) (overlays : List (List Byte)) (commit : Bool) (s : State) :
    exec (.evacuateCommitReceive h overlays commit) s = execEvacuateCommitReceive h overlays commit s := rfl
@[simp] theorem exec_safModeRequest (h : HalfId) (slot : Nat) (s : State) :
    exec (.safModeRequest h slot) s = execSafModeRequest h slot s := rfl
@[simp] theorem exec_safStatus (h : HalfId) (slot : Nat) (s : State) : exec (.safStatus h slot) s = execSafStatus h slot s := rfl
@[simp] theorem exec_safSelftestStatus (h : HalfId) (slot : Nat) (s : State) :
    exec (.safSelftestStatus h slot) s = execSafSelftestStatus h slot s := rfl
@[simp] theorem exec_secAttest (h : HalfId) (slot : Nat) (s : State) : exec (.secAttest h slot) s = execSecAttest h slot s := rfl
@[simp] theorem exec_secLifecycle (h : HalfId) (slot : Nat) (s : State) :
    exec (.secLifecycle h slot) s = execSecLifecycle h slot s := rfl
@[simp] theorem exec_secDebugAuth (h : HalfId) (slot : Nat) (s : State) :
    exec (.secDebugAuth h slot) s = execSecDebugAuth h slot s := rfl
@[simp] theorem exec_secDebugEnd (h : HalfId) (slot : Nat) (s : State) : exec (.secDebugEnd h slot) s = execSecDebugEnd h slot s := rfl
@[simp] theorem exec_pwrStateRequest (h : HalfId) (slot : Nat) (s : State) :
    exec (.pwrStateRequest h slot) s = execPwrStateRequest h slot s := rfl
@[simp] theorem exec_hibernateHoldExpiry (h : HalfId) (s : State) :
    exec (.hibernateHoldExpiry h) s = execHibernateHoldExpiry h s := rfl
@[simp] theorem exec_pwrCapSet (h : HalfId) (slot : Nat) (s : State) : exec (.pwrCapSet h slot) s = execPwrCapSet h slot s := rfl
@[simp] theorem exec_thmCoolantReport (h : HalfId) (slot : Nat) (s : State) :
    exec (.thmCoolantReport h slot) s = execThmCoolantReport h slot s := rfl
@[simp] theorem exec_timStatus (h : HalfId) (slot : Nat) (s : State) : exec (.timStatus h slot) s = execTimStatus h slot s := rfl
@[simp] theorem exec_timPortAsym (h : HalfId) (slot : Nat) (s : State) : exec (.timPortAsym h slot) s = execTimPortAsym h slot s := rfl
@[simp] theorem exec_ptnList (h : HalfId) (slot : Nat) (s : State) : exec (.ptnList h slot) s = execPtnList h slot s := rfl
@[simp] theorem exec_ptnRelease (h : HalfId) (slot : Nat) (s : State) : exec (.ptnRelease h slot) s = execPtnRelease h slot s := rfl
@[simp] theorem exec_lnkRetrain (h : HalfId) (slot : Nat) (s : State) : exec (.lnkRetrain h slot) s = execLnkRetrain h slot s := rfl
@[simp] theorem exec_logRead (h : HalfId) (slot : Nat) (s : State) : exec (.logRead h slot) s = execLogRead h slot s := rfl
@[simp] theorem exec_diagRun (h : HalfId) (slot : Nat) (pass : Bool) (s : State) :
    exec (.diagRun h slot pass) s = execDiagRun h slot pass s := rfl
@[simp] theorem exec_doorbellStore (h : HalfId) (ag : Agent) (d : Nat) (v : BitVec 64) (s : State) :
    exec (.doorbellStore h ag d v) s = execDoorbellStore h ag d v s := rfl
@[simp] theorem exec_descriptorFetch (h : HalfId) (queue : Nat) (s : State) :
    exec (.descriptorFetch h queue) s = execDescriptorFetch h queue s := rfl
@[simp] theorem exec_registerWrite (h : HalfId) (ag : Agent) (off size v : Nat) (s : State) :
    exec (.registerWrite h ag off size v) s = execRegisterWrite h ag off size v s := rfl
@[simp] theorem exec_qosRegisterWrite (h : HalfId) (ag : Agent) (off size v : Nat) (s : State) :
    exec (.qosRegisterWrite h ag off size v) s = execQosRegisterWrite h ag off size v s := rfl
@[simp] theorem exec_thmClusterMhzWrite (h : HalfId) (ag : Agent) (cluster : Nat) (mhz : BitVec 16) (s : State) :
    exec (.thmClusterMhzWrite h ag cluster mhz) s = execThmClusterMhzWrite h ag cluster mhz s := rfl
@[simp] theorem exec_timSyncLoad (h : HalfId) (ag : Agent) (size : Nat) (high : Bool) (s : State) :
    exec (.timSyncLoad h ag size high) s = execTimSyncLoad h ag size high s := rfl
@[simp] theorem exec_remoteControlAccess (h : HalfId) (core client off size : Nat) (store : Option Nat) (s : State) :
    exec (.remoteControlAccess h core client off size store) s = execRemoteControlAccess h core client off size store s := rfl
@[simp] theorem exec_nvctxWrite (h : HalfId) (core : Nat) (v : BitVec 64) (s : State) :
    exec (.nvctxWrite h core v) s = execNvctxWrite h core v s := rfl
@[simp] theorem exec_nvclassWrite (h : HalfId) (core : Nat) (v : BitVec 64) (s : State) :
    exec (.nvclassWrite h core v) s = execNvclassWrite h core v s := rfl
@[simp] theorem exec_apertureLoad (h : HalfId) (ap : Aperture) (addr size : Nat) (s : State) :
    exec (.apertureLoad h ap addr size) s = execApertureLoad h ap addr size s := rfl
@[simp] theorem exec_apertureStore (h : HalfId) (ap : Aperture) (addr size v : Nat) (s : State) :
    exec (.apertureStore h ap addr size v) s = execApertureStore h ap addr size v s := rfl
@[simp] theorem exec_gemm (h : HalfId) (cmd : Nat) (s : State) : exec (.gemm h cmd) s = execGemm h cmd s := rfl
@[simp] theorem exec_elementwise (h : HalfId) (cmd : Nat) (s : State) : exec (.elementwise h cmd) s = execElementwise h cmd s := rfl
@[simp] theorem exec_reduce (h : HalfId) (cmd : Nat) (s : State) : exec (.reduce h cmd) s = execReduce h cmd s := rfl
@[simp] theorem exec_norm (h : HalfId) (cmd : Nat) (s : State) : exec (.norm h cmd) s = execNorm h cmd s := rfl
@[simp] theorem exec_softmax (h : HalfId) (cmd : Nat) (s : State) : exec (.softmax h cmd) s = execSoftmax h cmd s := rfl
@[simp] theorem exec_convert (h : HalfId) (cmd : Nat) (s : State) : exec (.convert h cmd) s = execConvert h cmd s := rfl
@[simp] theorem exec_warmup (h : HalfId) (n : Nat) (s : State) : exec (.warmup h n) s = execWarmup h n s := rfl
@[simp] theorem exec_quickWarmupSlice (h : HalfId) (s : State) : exec (.quickWarmupSlice h) s = execQuickWarmupSlice h s := rfl
@[simp] theorem exec_quickWarmupForce (h : HalfId) (s : State) : exec (.quickWarmupForce h) s = execQuickWarmupForce h s := rfl
@[simp] theorem exec_warmupDeadlineKill (h : HalfId) (s : State) : exec (.warmupDeadlineKill h) s = execWarmupDeadlineKill h s := rfl
@[simp] theorem exec_conv (h : HalfId) (cmd : Nat) (s : State) : exec (.conv h cmd) s = execConv h cmd s := rfl
@[simp] theorem exec_poolMax (h : HalfId) (cmd : Nat) (s : State) : exec (.poolMax h cmd) s = execPoolMax h cmd s := rfl
@[simp] theorem exec_poolAvg (h : HalfId) (cmd : Nat) (s : State) : exec (.poolAvg h cmd) s = execPoolAvg h cmd s := rfl
@[simp] theorem exec_kvPoolInit (h : HalfId) (cmd : Nat) (s : State) : exec (.kvPoolInit h cmd) s = execKvPoolInit h cmd s := rfl
@[simp] theorem exec_kvPoolDestroy (h : HalfId) (cmd : Nat) (s : State) :
    exec (.kvPoolDestroy h cmd) s = execKvPoolDestroy h cmd s := rfl
@[simp] theorem exec_kvAppend (h : HalfId) (cmd : Nat) (s : State) : exec (.kvAppend h cmd) s = execKvAppend h cmd s := rfl
@[simp] theorem exec_kvPin (h : HalfId) (cmd : Nat) (s : State) : exec (.kvPin h cmd) s = execKvPin h cmd s := rfl
@[simp] theorem exec_kvEvict (h : HalfId) (cmd : Nat) (s : State) : exec (.kvEvict h cmd) s = execKvEvict h cmd s := rfl
@[simp] theorem exec_kvCompact (h : HalfId) (cmd : Nat) (s : State) : exec (.kvCompact h cmd) s = execKvCompact h cmd s := rfl
@[simp] theorem exec_kvRelease (h : HalfId) (cmd : Nat) (s : State) : exec (.kvRelease h cmd) s = execKvRelease h cmd s := rfl
@[simp] theorem exec_attend (h : HalfId) (cmd : Nat) (s : State) : exec (.attend h cmd) s = execAttend h cmd s := rfl
@[simp] theorem exec_attendBwd (h : HalfId) (cmd : Nat) (s : State) : exec (.attendBwd h cmd) s = execAttendBwd h cmd s := rfl
@[simp] theorem exec_gather (h : HalfId) (cmd : Nat) (s : State) : exec (.gather h cmd) s = execGather h cmd s := rfl
@[simp] theorem exec_bagSum (h : HalfId) (cmd : Nat) (s : State) : exec (.bagSum h cmd) s = execBagSum h cmd s := rfl
@[simp] theorem exec_bagMean (h : HalfId) (cmd : Nat) (s : State) : exec (.bagMean h cmd) s = execBagMean h cmd s := rfl
@[simp] theorem exec_bagMax (h : HalfId) (cmd : Nat) (s : State) : exec (.bagMax h cmd) s = execBagMax h cmd s := rfl
@[simp] theorem exec_hotLoad (h : HalfId) (cmd : Nat) (s : State) : exec (.hotLoad h cmd) s = execHotLoad h cmd s := rfl
@[simp] theorem exec_ingestBind (h : HalfId) (cmd : Nat) (s : State) : exec (.ingestBind h cmd) s = execIngestBind h cmd s := rfl
@[simp] theorem exec_ingestUnbind (h : HalfId) (cmd : Nat) (s : State) : exec (.ingestUnbind h cmd) s = execIngestUnbind h cmd s := rfl
@[simp] theorem exec_batch (h : HalfId) (cmd : Nat) (s : State) : exec (.batch h cmd) s = execBatch h cmd s := rfl
@[simp] theorem exec_decodeComplete (h : HalfId) (cmd slot : Nat) (s : State) :
    exec (.decodeComplete h cmd slot) s = execDecodeComplete h cmd slot s := rfl
@[simp] theorem exec_sampleBudgetExpiry (h : HalfId) (cmd slot : Nat) (s : State) :
    exec (.sampleBudgetExpiry h cmd slot) s = execSampleBudgetExpiry h cmd slot s := rfl
@[simp] theorem exec_batchBudgetExpiry (h : HalfId) (cmd : Nat) (s : State) :
    exec (.batchBudgetExpiry h cmd) s = execBatchBudgetExpiry h cmd s := rfl
@[simp] theorem exec_swdecAttach (h : HalfId) (cmd : Nat) (s : State) : exec (.swdecAttach h cmd) s = execSwdecAttach h cmd s := rfl
@[simp] theorem exec_swdecReturn (h : HalfId) (cmd : Nat) (s : State) : exec (.swdecReturn h cmd) s = execSwdecReturn h cmd s := rfl
@[simp] theorem exec_swdecDetach (h : HalfId) (cmd : Nat) (s : State) : exec (.swdecDetach h cmd) s = execSwdecDetach h cmd s := rfl
@[simp] theorem exec_swdecDeadlineExpiry (h : HalfId) (entry : Nat) (s : State) :
    exec (.swdecDeadlineExpiry h entry) s = execSwdecDeadlineExpiry h entry s := rfl
@[simp] theorem exec_fuseOpen (h : HalfId) (cmd : Nat) (s : State) : exec (.fuseOpen h cmd) s = execFuseOpen h cmd s := rfl
@[simp] theorem exec_fuseClose (h : HalfId) (cmd : Nat) (s : State) : exec (.fuseClose h cmd) s = execFuseClose h cmd s := rfl
@[simp] theorem exec_fuseStep (h : HalfId) (cmd : Nat) (s : State) : exec (.fuseStep h cmd) s = execFuseStep h cmd s := rfl
@[simp] theorem exec_planOpen (h : HalfId) (cmd : Nat) (s : State) : exec (.planOpen h cmd) s = execPlanOpen h cmd s := rfl
@[simp] theorem exec_planClose (h : HalfId) (cmd : Nat) (s : State) : exec (.planClose h cmd) s = execPlanClose h cmd s := rfl
@[simp] theorem exec_planStep (h : HalfId) (cmd : Nat) (s : State) : exec (.planStep h cmd) s = execPlanStep h cmd s := rfl
@[simp] theorem exec_copy (h : HalfId) (cmd : Nat) (s : State) : exec (.copy h cmd) s = execCopy h cmd s := rfl
@[simp] theorem exec_copyOut (h : HalfId) (cmd : Nat) (s : State) : exec (.copyOut h cmd) s = execCopyOut h cmd s := rfl
@[simp] theorem exec_remoteCopyReceive (h : HalfId) (tether : Option RemoteCopy) (s : State) :
    exec (.remoteCopyReceive h tether) s = execRemoteCopyReceive h tether s := rfl
@[simp] theorem exec_remoteAnswerReceive (h : HalfId) (tether : Option RemoteAnswer) (s : State) :
    exec (.remoteAnswerReceive h tether) s = execRemoteAnswerReceive h tether s := rfl
@[simp] theorem exec_windowBind (h : HalfId) (cmd : Nat) (s : State) : exec (.windowBind h cmd) s = execWindowBind h cmd s := rfl
@[simp] theorem exec_windowUnbind (h : HalfId) (cmd : Nat) (s : State) : exec (.windowUnbind h cmd) s = execWindowUnbind h cmd s := rfl
@[simp] theorem exec_fill (h : HalfId) (cmd : Nat) (s : State) : exec (.fill h cmd) s = execFill h cmd s := rfl
@[simp] theorem exec_drain (h : HalfId) (cmd : Nat) (s : State) : exec (.drain h cmd) s = execDrain h cmd s := rfl
@[simp] theorem exec_waitFull (h : HalfId) (cmd : Nat) (s : State) : exec (.waitFull h cmd) s = execWaitFull h cmd s := rfl
@[simp] theorem exec_waitEmpty (h : HalfId) (cmd : Nat) (s : State) : exec (.waitEmpty h cmd) s = execWaitEmpty h cmd s := rfl
@[simp] theorem exec_peek (h : HalfId) (cmd : Nat) (s : State) : exec (.peek h cmd) s = execPeek h cmd s := rfl
@[simp] theorem exec_signalRemote (h : HalfId) (cmd : Nat) (s : State) : exec (.signalRemote h cmd) s = execSignalRemote h cmd s := rfl
@[simp] theorem exec_remoteSignalReceive (h : HalfId) (tether : Option RemoteSignal) (s : State) :
    exec (.remoteSignalReceive h tether) s = execRemoteSignalReceive h tether s := rfl
@[simp] theorem exec_remoteBind (h : HalfId) (cmd : Nat) (s : State) : exec (.remoteBind h cmd) s = execRemoteBind h cmd s := rfl
@[simp] theorem exec_remoteUnbind (h : HalfId) (cmd : Nat) (s : State) : exec (.remoteUnbind h cmd) s = execRemoteUnbind h cmd s := rfl
@[simp] theorem exec_huddleOpen (h : HalfId) (cmd : Nat) (s : State) : exec (.huddleOpen h cmd) s = execHuddleOpen h cmd s := rfl
@[simp] theorem exec_huddleArrive (h : HalfId) (cmd : Nat) (s : State) : exec (.huddleArrive h cmd) s = execHuddleArrive h cmd s := rfl
@[simp] theorem exec_commandCommit (h : HalfId) (cmd : Nat) (s : State) :
    exec (.commandCommit h cmd) s = execCommandCommit h cmd s := rfl
@[simp] theorem exec_preemption (h : HalfId) (s : State) : exec (.preemption h) s = execPreemption h s := rfl
@[simp] theorem exec_budgetExpiry (h : HalfId) (cmd : Nat) (s : State) : exec (.budgetExpiry h cmd) s = execBudgetExpiry h cmd s := rfl
@[simp] theorem exec_unitWatchdogExpiry (h : HalfId) (cmd : Nat) (s : State) :
    exec (.unitWatchdogExpiry h cmd) s = execUnitWatchdogExpiry h cmd s := rfl
@[simp] theorem exec_engineResetComplete (h : HalfId) (n : Nat) (s : State) :
    exec (.engineResetComplete h n) s = execEngineResetComplete h n s := rfl
@[simp] theorem exec_frameBoundary (h : HalfId) (s : State) : exec (.frameBoundary h) s = execFrameBoundary h s := rfl
@[simp] theorem exec_checkpointReceive (h : HalfId) (s : State) : exec (.checkpointReceive h) s = execCheckpointReceive h s := rfl
@[simp] theorem exec_umpireVerdict (h : HalfId) (n : Nat) (out : List WarmElem) (s : State) :
    exec (.umpireVerdict h n out) s = execUmpireVerdict h n out s := rfl
@[simp] theorem exec_substituteReceive (h : HalfId) (s : State) : exec (.substituteReceive h) s = execSubstituteReceive h s := rfl
@[simp] theorem exec_gateClosedReceive (h : HalfId) (s : State) : exec (.gateClosedReceive h) s = execGateClosedReceive h s := rfl
@[simp] theorem exec_compareRecordReceive (h : HalfId) (s : State) :
    exec (.compareRecordReceive h) s = execCompareRecordReceive h s := rfl
@[simp] theorem exec_compareRecordTimeout (h : HalfId) (s : State) :
    exec (.compareRecordTimeout h) s = execCompareRecordTimeout h s := rfl
@[simp] theorem exec_captainHeartbeatLoss (h : HalfId) (falls : Bool) (s : State) :
    exec (.captainHeartbeatLoss h falls) s = execCaptainHeartbeatLoss h falls s := rfl
@[simp] theorem exec_refclkFailure (h : HalfId) (falls : Bool) (s : State) :
    exec (.refclkFailure h falls) s = execRefclkFailure h falls s := rfl
@[simp] theorem exec_supplyOutOfWindow (h : HalfId) (falls : Bool) (s : State) :
    exec (.supplyOutOfWindow h falls) s = execSupplyOutOfWindow h falls s := rfl
@[simp] theorem exec_junctionOvertemp (h : HalfId) (falls : Bool) (s : State) :
    exec (.junctionOvertemp h falls) s = execJunctionOvertemp h falls s := rfl
@[simp] theorem exec_hbmOvertemp (h : HalfId) (falls : Bool) (s : State) :
    exec (.hbmOvertemp h falls) s = execHbmOvertemp h falls s := rfl
@[simp] theorem exec_captainMemoryUe (h : HalfId) (falls : Bool) (s : State) :
    exec (.captainMemoryUe h falls) s = execCaptainMemoryUe h falls s := rfl
@[simp] theorem exec_umpireSelfFailure (h : HalfId) (s : State) : exec (.umpireSelfFailure h) s = execUmpireSelfFailure h s := rfl
@[simp] theorem exec_pairLockstepDisagree (h : HalfId) (pair : Nat) (falls : Bool) (s : State) :
    exec (.pairLockstepDisagree h pair falls) s = execPairLockstepDisagree h pair falls s := rfl
@[simp] theorem exec_umpireHeartbeatReceive (h : HalfId) (bus : Bool) (s : State) :
    exec (.umpireHeartbeatReceive h bus) s = execUmpireHeartbeatReceive h bus s := rfl
@[simp] theorem exec_peerLoss (h : HalfId) (s : State) : exec (.peerLoss h) s = execPeerLoss h s := rfl
@[simp] theorem exec_faultReceive (h : HalfId) (s : State) : exec (.faultReceive h) s = execFaultReceive h s := rfl
@[simp] theorem exec_gatePermitExpiry (h : HalfId) (s : State) : exec (.gatePermitExpiry h) s = execGatePermitExpiry h s := rfl
@[simp] theorem exec_selftestSlice (h : HalfId) (e : Nat) (ok : Bool) (pair : Nat) (falls : Bool) (s : State) :
    exec (.selftestSlice h e ok pair falls) s = execSelftestSlice h e ok pair falls s := rfl
@[simp] theorem exec_selftestIntervalMissed (h : HalfId) (e : Nat) (s : State) :
    exec (.selftestIntervalMissed h e) s = execSelftestIntervalMissed h e s := rfl
@[simp] theorem exec_calibrationSlice (h : HalfId) (item target : Nat) (result : BitVec 64) (s : State) :
    exec (.calibrationSlice h item target result) s = execCalibrationSlice h item target result s := rfl
@[simp] theorem exec_memoryUeDetected (h : HalfId) (by' : UeReader) (s : State) :
    exec (.memoryUeDetected h by') s = execMemoryUeDetected h by' s := rfl
@[simp] theorem exec_correctedError (h : HalfId) (site : CorrSite) (s : State) :
    exec (.correctedError h site) s = execCorrectedError h site s := rfl
@[simp] theorem exec_sramUncorrectable (h : HalfId) (site : SramSite) (s : State) :
    exec (.sramUncorrectable h site) s = execSramUncorrectable h site s := rfl
@[simp] theorem exec_scrubRead (h : HalfId) (stack frame block : Nat) (found : Scrub) (s : State) :
    exec (.scrubRead h stack frame block found) s = execScrubRead h stack frame block found s := rfl
@[simp] theorem exec_qosWindowEnd (h : HalfId) (busy : BitVec 8) (s : State) :
    exec (.qosWindowEnd h busy) s = execQosWindowEnd h busy s := rfl
@[simp] theorem exec_portTransactionRequest (h : HalfId) (port blocks : Nat) (turn : QTurn)
    (cmd core : Option Nat) (s : State) : exec (.portTransactionRequest h port blocks turn cmd core) s =
      execPortTransactionRequest h port blocks turn cmd core s := rfl
@[simp] theorem exec_portTransactionComplete (h : HalfId) (turn : QTurn) (s : State) :
    exec (.portTransactionComplete h turn) s = execPortTransactionComplete h turn s := rfl
@[simp] theorem exec_captureWrite (h : HalfId) (c : Capture) (s : State) : exec (.captureWrite h c) s = execCaptureWrite h c s := rfl
@[simp] theorem exec_forwardedCaptureReceive (h : HalfId) (s : State) :
    exec (.forwardedCaptureReceive h) s = execForwardedCaptureReceive h s := rfl
@[simp] theorem exec_arrivalMark (h : HalfId) (s : State) : exec (.arrivalMark h) s = execArrivalMark h s := rfl
@[simp] theorem exec_pcieEndpointDma (h : HalfId) (fn : BitVec 48) (req : EndpointReq) (s : State) :
    exec (.pcieEndpointDma h fn req) s = execPcieEndpointDma h fn req s := rfl
@[simp] theorem exec_siteDieWrite (h : HalfId) (ctx va : Nat) (data : List Byte) (s : State) :
    exec (.siteDieWrite h ctx va data) s = execSiteDieWrite h ctx va data s := rfl
@[simp] theorem exec_siteDieFill (h : HalfId) (ctx va : Nat) (v : BitVec 64) (s : State) :
    exec (.siteDieFill h ctx va v) s = execSiteDieFill h ctx va v s := rfl
@[simp] theorem exec_ethReceiveFrame (h : HalfId) (port : Nat) (frame : List Byte) (fcs : Bool) (t : Nat) (s : State) :
    exec (.ethReceiveFrame h port frame fcs t) s = execEthReceiveFrame h port frame fcs t s := rfl
@[simp] theorem exec_macTransmit (h : HalfId) (port ring t : Nat) (s : State) :
    exec (.macTransmit h port ring t) s = execMacTransmit h port ring t s := rfl
@[simp] theorem exec_gptpSyncReceive (h : HalfId) (m : Ptp) (twoStep : Bool) (origin : Nat) (corr : Int) (s : State) :
    exec (.gptpSyncReceive h m twoStep origin corr) s = execGptpSyncReceive h m twoStep origin corr s := rfl
@[simp] theorem exec_gptpAnnounceReceive (h : HalfId) (m : Ptp) (vec : Nat) (gm : BitVec 64) (steps : Nat) (s : State) :
    exec (.gptpAnnounceReceive h m vec gm steps) s = execGptpAnnounceReceive h m vec gm steps s := rfl
@[simp] theorem exec_gptpPdelayReceive (h : HalfId) (m : Ptp) (k : Pdelay) (s : State) :
    exec (.gptpPdelayReceive h m k) s = execGptpPdelayReceive h m k s := rfl
@[simp] theorem exec_gptpSyncTransmit (h : HalfId) (out : Departure) (s : State) :
    exec (.gptpSyncTransmit h out) s = execGptpSyncTransmit h out s := rfl
@[simp] theorem exec_syncReceiptTimeout (h : HalfId) (s : State) : exec (.syncReceiptTimeout h) s = execSyncReceiptTimeout h s := rfl
@[simp] theorem exec_announceReceiptTimeout (h : HalfId) (port : Nat) (s : State) :
    exec (.announceReceiptTimeout h port) s = execAnnounceReceiptTimeout h port s := rfl
@[simp] theorem exec_timeExchange (h : HalfId) (ps : Int) (s : State) : exec (.timeExchange h ps) s = execTimeExchange h ps s := rfl
@[simp] theorem exec_followerExchangeTimeout (h : HalfId) (s : State) :
    exec (.followerExchangeTimeout h) s = execFollowerExchangeTimeout h s := rfl
@[simp] theorem exec_startWaitExpiry (h : HalfId) (s : State) : exec (.startWaitExpiry h) s = execStartWaitExpiry h s := rfl
@[simp] theorem exec_halfReady (h : HalfId) (s : State) : exec (.halfReady h) s = execHalfReady h s := rfl
@[simp] theorem exec_mtimeCompare (h : HalfId) (pair : Nat) (cmp : BitVec 64) (s : State) :
    exec (.mtimeCompare h pair cmp) s = execMtimeCompare h pair cmp s := rfl
@[simp] theorem exec_mbxHeartbeatTick (h : HalfId) (s : State) : exec (.mbxHeartbeatTick h) s = execMbxHeartbeatTick h s := rfl
@[simp] theorem exec_flitCrcError (h : HalfId) (link : Nat) (again : Bool) (s : State) :
    exec (.flitCrcError h link again) s = execFlitCrcError h link again s := rfl
@[simp] theorem exec_laneFaultDetected (h : HalfId) (link lane : Nat) (rx bad : Bool) (s : State) :
    exec (.laneFaultDetected h link lane rx bad) s = execLaneFaultDetected h link lane rx bad s := rfl
@[simp] theorem exec_sidebandLoss (h : HalfId) (link : Nat) (s : State) :
    exec (.sidebandLoss h link) s = execSidebandLoss h link s := rfl
@[simp] theorem exec_retrainComplete (h : HalfId) (link : Nat) (ok : Bool) (rate : Nat) (bad : List Nat) (die : List Byte) (s : State) :
    exec (.retrainComplete h link ok rate bad die) s = execRetrainComplete h link ok rate bad die s := rfl
@[simp] theorem exec_tetherLinkUp (h : HalfId) (rate : Nat) (bad : List Nat) (s : State) :
    exec (.tetherLinkUp h rate bad) s = execTetherLinkUp h rate bad s := rfl
@[simp] theorem exec_tetherIdentityReceive (h : HalfId) (serial : BitVec 64) (half : Nat) (report : List Byte) (s : State) :
    exec (.tetherIdentityReceive h serial half report) s = execTetherIdentityReceive h serial half report s := rfl
@[simp] theorem exec_partnerAbsentTimeout (h : HalfId) (n : Nat) (s : State) :
    exec (.partnerAbsentTimeout h n) s = execPartnerAbsentTimeout h n s := rfl
@[simp] theorem exec_quarantineReleaseTimeout (h : HalfId) (n : Nat) (s : State) :
    exec (.quarantineReleaseTimeout h n) s = execQuarantineReleaseTimeout h n s := rfl
@[simp] theorem exec_mgmtAlertResponse (h : HalfId) (s : State) : exec (.mgmtAlertResponse h) s = execMgmtAlertResponse h s := rfl
@[simp] theorem exec_tapInstruction (h : HalfId) (op : TapOp) (s : State) :
    exec (.tapInstruction h op) s = execTapInstruction h op s := rfl
@[simp] theorem exec_powerSample (h : HalfId) (power : BitVec 16) (s : State) :
    exec (.powerSample h power) s = execPowerSample h power s := rfl
@[simp] theorem exec_forcedDimRelease (h : HalfId) (s : State) : exec (.forcedDimRelease h) s = execForcedDimRelease h s := rfl
@[simp] theorem exec_thermalLimitUpdate (h : HalfId) (s : State) : exec (.thermalLimitUpdate h) s = execThermalLimitUpdate h s := rfl
@[simp] theorem exec_thetaEstimate (h : HalfId) (p tj tm tin : Int) (s : State) :
    exec (.thetaEstimate h p tj tm tin) s = execThetaEstimate h p tj tm tin s := rfl
@[simp] theorem exec_thetaProbe (h : HalfId) (s : State) : exec (.thetaProbe h) s = execThetaProbe h s := rfl
@[simp] theorem exec_temperatureSample (h : HalfId) (pairs : List (BitVec 16 × BitVec 16)) (stks : List (BitVec 16)) (s : State) :
    exec (.temperatureSample h pairs stks) s = execTemperatureSample h pairs stks s := rfl
@[simp] theorem exec_coolantReportTimeout (h : HalfId) (s : State) :
    exec (.coolantReportTimeout h) s = execCoolantReportTimeout h s := rfl
@[simp] theorem exec_domainPowerGood (h : HalfId) (d : Nat) (s : State) :
    exec (.domainPowerGood h d) s = execDomainPowerGood h d s := rfl
@[simp] theorem exec_wakePin (h : HalfId) (s : State) : exec (.wakePin h) s = execWakePin h s := rfl
@[simp] theorem exec_wakeTimerExpiry (h : HalfId) (s : State) : exec (.wakeTimerExpiry h) s = execWakeTimerExpiry h s := rfl
@[simp] theorem exec_peerWake (h : HalfId) (s : State) : exec (.peerWake h) s = execPeerWake h s := rfl
@[simp] theorem exec_devicePowerOn (lifeA umpA lifeB umpB : Bool) (s : State) :
    exec (.devicePowerOn lifeA umpA lifeB umpB) s = execDevicePowerOn lifeA umpA lifeB umpB s := rfl
@[simp] theorem exec_pwrOkFall (s : State) : exec .pwrOkFall s = execPwrOkFall s := rfl
@[simp] theorem exec_halfResetAssert (h : HalfId) (s : State) : exec (.halfResetAssert h) s = execHalfResetAssert h s := rfl
@[simp] theorem exec_halfResetRelease (h : HalfId) (lifeOk umpOk : Bool) (s : State) :
    exec (.halfResetRelease h lifeOk umpOk) s = execHalfResetRelease h lifeOk umpOk s := rfl
@[simp] theorem exec_fieldDebugTimeSave (h : HalfId) (s : State) : exec (.fieldDebugTimeSave h) s = execFieldDebugTimeSave h s := rfl
@[simp] theorem exec_fieldDebugExpiry (h : HalfId) (s : State) : exec (.fieldDebugExpiry h) s = execFieldDebugExpiry h s := rfl
@[simp] theorem exec_debugLevelExpiry (h : HalfId) (s : State) : exec (.debugLevelExpiry h) s = execDebugLevelExpiry h s := rfl
@[simp] theorem exec_uploadStageIdleTimeout (h : HalfId) (s : State) :
    exec (.uploadStageIdleTimeout h) s = execUploadStageIdleTimeout h s := rfl
@[simp] theorem exec_transferStageIdleTimeout (h : HalfId) (s : State) :
    exec (.transferStageIdleTimeout h) s = execTransferStageIdleTimeout h s := rfl
@[simp] theorem exec_attestBucketRefill (h : HalfId) (s : State) : exec (.attestBucketRefill h) s = execAttestBucketRefill h s := rfl
@[simp] theorem exec_treeGenerationComplete (h : HalfId) (s : State) :
    exec (.treeGenerationComplete h) s = execTreeGenerationComplete h s := rfl
@[simp] theorem exec_keygenComplete (h : HalfId) (s : State) : exec (.keygenComplete h) s = execKeygenComplete h s := rfl
@[simp] theorem exec_ethLinkChange (h : HalfId) (port : Nat) (up : Bool) (s : State) :
    exec (.ethLinkChange h port up) s = execEthLinkChange h port up s := rfl
@[simp] theorem exec_rootPortLinkDown (h : HalfId) (fn : Option (BitVec 48)) (s : State) :
    exec (.rootPortLinkDown h fn) s = execRootPortLinkDown h fn s := rfl
@[simp] theorem exec_tetherLinkDown (h : HalfId) (s : State) : exec (.tetherLinkDown h) s = execTetherLinkDown h s := rfl
@[simp] theorem exec_gptpFollowUpReceive (h : HalfId) (m : Ptp) (origin : Nat) (corr : Int) (s : State) :
    exec (.gptpFollowUpReceive h m origin corr) s = execGptpFollowUpReceive h m origin corr s := rfl
@[simp] theorem exec_pdelayReqTransmit (h : HalfId) (port t : Nat) (s : State) :
    exec (.pdelayReqTransmit h port t) s = execPdelayReqTransmit h port t s := rfl
@[simp] theorem exec_announceTransmit (h : HalfId) (port : Nat) (s : State) :
    exec (.announceTransmit h port) s = execAnnounceTransmit h port s := rfl
@[simp] theorem exec_umpireHeartbeatSend (h : HalfId) (s : State) :
    exec (.umpireHeartbeatSend h) s = execUmpireHeartbeatSend h s := rfl
@[simp] theorem exec_gatePermitRefresh (h : HalfId) (s : State) : exec (.gatePermitRefresh h) s = execGatePermitRefresh h s := rfl
@[simp] theorem exec_subsystemResetComplete (h : HalfId) (code : Nat) (s : State) :
    exec (.subsystemResetComplete h code) s = execSubsystemResetComplete h code s := rfl
@[simp] theorem exec_frameMoveComplete (h : HalfId) (s : State) : exec (.frameMoveComplete h) s = execFrameMoveComplete h s := rfl
@[simp] theorem exec_linkRecoveryCauseClear (h : HalfId) (s : State) :
    exec (.linkRecoveryCauseClear h) s = execLinkRecoveryCauseClear h s := rfl
@[simp] theorem exec_bridgeFrameReceive (h : HalfId) (s : State) : exec (.bridgeFrameReceive h) s = execBridgeFrameReceive h s := rfl
@[simp] theorem exec_mgmtBusFramingError (h : HalfId) (tool : Nat) (s : State) :
    exec (.mgmtBusFramingError h tool) s = execMgmtBusFramingError h tool s := rfl

end Sys2Proof.Machine
end

