-- ==== Sys2Proof/Laws/Memory.lean ====
section
/-! SUPPORT. What the memory operations do: each keeps the canonical form of the memory, a byte written is read back, and every other
byte reads as before. -/

namespace Sys2Proof.Laws.Memory
open Sys2Proof Sys2Proof.Machine

/-- An address is above a bound. -/
def aboveBound (lo : Option Nat) (a : Nat) : Prop := match lo with
  | none => True
  | some l => l < a

/-- The canonical form, address by address. -/
theorem memWfFrom_cons (lo : Option Nat) (b : Nat) (w : Byte) (m : List Host.Cell) :
    memWfFrom lo ((b, w) :: m) = true ↔ aboveBound lo b ∧ w ≠ 0 ∧ memWfFrom (some b) m = true := by
  cases lo <;> simp [memWfFrom, aboveBound, and_assoc]

/-- A canonical memory is canonical above any lower bound. -/
theorem memWfFrom_mono (m : List Host.Cell) (lo lo' : Option Nat) (h : ∀ a, aboveBound lo a → aboveBound lo' a)
    (hm : memWfFrom lo m = true) : memWfFrom lo' m = true := by
  cases m with
  | nil => rfl
  | cons c m =>
    obtain ⟨b, w⟩ := c
    rw [memWfFrom_cons] at hm ⊢
    exact ⟨h _ hm.1, hm.2⟩

/-- A write above the bound keeps the canonical form above it. -/
theorem memWrite_wfFrom (m : List Host.Cell) (lo : Option Nat) (a : Nat) (v : Byte) (ha : aboveBound lo a)
    (hm : memWfFrom lo m = true) : memWfFrom lo (memWrite m a v) = true := by
  induction m generalizing lo with
  | nil =>
    unfold memWrite
    split
    · rfl
    · rw [memWfFrom_cons]; exact ⟨ha, by assumption, rfl⟩
  | cons c m ih =>
    obtain ⟨b, w⟩ := c
    have hm' := hm
    rw [memWfFrom_cons] at hm
    obtain ⟨h1, h2, h3⟩ := hm
    unfold memWrite
    split
    · split
      · exact hm'
      · rw [memWfFrom_cons, memWfFrom_cons]; exact ⟨ha, by assumption, by assumption, h2, h3⟩
    · split
      · rename_i hab
        subst hab
        split
        · refine memWfFrom_mono m (some a) lo (fun x hx => ?_) h3
          cases lo with
          | none => trivial
          | some l => simp only [aboveBound] at *; omega
        · rw [memWfFrom_cons]; exact ⟨h1, by assumption, h3⟩
      · rw [memWfFrom_cons]
        exact ⟨h1, h2, ih (some b) (by simp only [aboveBound]; omega) h3⟩

/-- A write keeps the canonical form. -/
theorem memWrite_wf (m : List Host.Cell) (a : Nat) (v : Byte) (hm : Memory.wf m = true) : Memory.wf (memWrite m a v) = true :=
  memWrite_wfFrom m none a v trivial hm

/-- Writes of consecutive bytes keep the canonical form. -/
theorem memWrites_wf (bs : List Byte) (m : List Host.Cell) (a : Nat) (hm : Memory.wf m = true) :
    Memory.wf (memWrites m a bs) = true := by
  induction bs generalizing m a with
  | nil => exact hm
  | cons b bs ih => exact ih _ _ (memWrite_wf m a b hm)

/-- Removing cells keeps the canonical form. -/
theorem memFilter_wfFrom (p : Host.Cell → Bool) (m : List Host.Cell) (lo : Option Nat) (hm : memWfFrom lo m = true) :
    memWfFrom lo (m.filter p) = true := by
  induction m generalizing lo with
  | nil => exact hm
  | cons c m ih =>
    obtain ⟨b, w⟩ := c
    rw [memWfFrom_cons] at hm
    obtain ⟨h1, h2, h3⟩ := hm
    rw [List.filter_cons]
    split
    · rw [memWfFrom_cons]; exact ⟨h1, h2, ih _ h3⟩
    · refine ih _ (memWfFrom_mono m (some b) lo (fun x hx => ?_) h3)
      cases lo with
      | none => trivial
      | some l => simp only [aboveBound] at *; omega

/-- Clearing a range keeps the canonical form. -/
theorem memClear_wf (m : List Host.Cell) (lo n : Nat) (hm : Memory.wf m = true) : Memory.wf (memClear m lo n) = true :=
  memFilter_wfFrom _ m none hm

/-- Below its bound a canonical memory lists nothing. -/
theorem memRead_below (m : List Host.Cell) (l a : Nat) (hm : memWfFrom (some l) m = true) (ha : a ≤ l) : memRead m a = 0 := by
  induction m generalizing l with
  | nil => rfl
  | cons c m ih =>
    obtain ⟨b, w⟩ := c
    rw [memWfFrom_cons] at hm
    have h1 : l < b := hm.1
    unfold memRead
    rw [if_neg (by omega)]
    exact ih b hm.2.2 (by omega)

/-- A byte written is read back. -/
theorem memRead_memWrite_self (m : List Host.Cell) (lo : Option Nat) (a : Nat) (v : Byte) (hm : memWfFrom lo m = true) :
    memRead (memWrite m a v) a = v := by
  induction m generalizing lo with
  | nil =>
    unfold memWrite
    split
    · subst v; rfl
    · simp [memRead]
  | cons c m ih =>
    obtain ⟨b, w⟩ := c
    have hm' := hm
    rw [memWfFrom_cons] at hm
    unfold memWrite
    split
    · split
      · subst v
        simp only [memRead]
        rw [if_neg (by omega)]
        exact memRead_below m b a hm.2.2 (by omega)
      · simp [memRead]
    · split
      · rename_i hab
        subst hab
        split
        · subst v; exact memRead_below m a a hm.2.2 (Nat.le_refl a)
        · simp [memRead]
      · simp only [memRead]
        rw [if_neg (by assumption)]
        exact ih _ hm.2.2

/-- A write leaves every other byte alone. -/
theorem memRead_memWrite_ne (m : List Host.Cell) (lo : Option Nat) (a b : Nat) (v : Byte) (hm : memWfFrom lo m = true)
    (h : b ≠ a) : memRead (memWrite m a v) b = memRead m b := by
  induction m generalizing lo with
  | nil =>
    unfold memWrite
    split
    · rfl
    · simp [memRead, h]
  | cons c m ih =>
    obtain ⟨d, w⟩ := c
    rw [memWfFrom_cons] at hm
    unfold memWrite
    split
    · split
      · rfl
      · simp [memRead, h]
    · split
      · rename_i hab
        subst hab
        split
        · simp [memRead, h]
        · simp [memRead, h]
      · simp only [memRead]
        split
        · rfl
        · exact ih _ hm.2.2

/-- A filter that keeps an address keeps its byte. -/
theorem memRead_memClear_outside (m : List Host.Cell) (lo n a : Nat) (h : a < lo ∨ lo + n ≤ a) :
    memRead (memClear m lo n) a = memRead m a := by
  induction m with
  | nil => rfl
  | cons c m ih =>
    obtain ⟨b, w⟩ := c
    unfold memClear at ih ⊢
    rw [List.filter_cons]
    split
    · simp only [memRead]; rw [ih]
    · rename_i hb
      simp only [memRead]
      rw [ih, if_neg]
      intro hab
      subst hab
      simp at hb
      omega

/-- A cleared range reads zero. -/
theorem memRead_memClear_inside (m : List Host.Cell) (lo n a : Nat) (h : lo ≤ a ∧ a < lo + n) :
    memRead (memClear m lo n) a = 0 := by
  induction m with
  | nil => rfl
  | cons c m ih =>
    obtain ⟨b, w⟩ := c
    unfold memClear at ih ⊢
    rw [List.filter_cons]
    split
    · rename_i hb
      simp only [memRead]
      rw [if_neg, ih]
      intro hab
      subst hab
      simp at hb
      omega
    · exact ih

/-- Bytes outside consecutive written ones read as before. -/
theorem memRead_memWrites_outside (bs : List Byte) (m : List Host.Cell) (a b : Nat) (hm : Memory.wf m = true)
    (h : b < a ∨ a + bs.length ≤ b) : memRead (memWrites m a bs) b = memRead m b := by
  induction bs generalizing m a with
  | nil => rfl
  | cons v bs ih =>
    simp only [List.length_cons] at h
    rw [memWrites, ih _ _ (memWrite_wf m a v hm) (by omega), memRead_memWrite_ne m none a b v hm (by omega)]

/-- Each of consecutive written bytes is read back. -/
theorem memRead_memWrites_inside (bs : List Byte) (m : List Host.Cell) (a k : Nat) (hm : Memory.wf m = true)
    (h : k < bs.length) : memRead (memWrites m a bs) (a + k) = bs[k] := by
  induction bs generalizing m a k with
  | nil => simp at h
  | cons v bs ih =>
    rw [memWrites]
    cases k with
    | zero =>
      rw [memRead_memWrites_outside bs _ _ _ (memWrite_wf m a v hm) (by omega)]
      simpa using memRead_memWrite_self m none a v hm
    | succ k =>
      have := ih (memWrite m a v) (a + 1) k (memWrite_wf m a v hm) (by simpa using h)
      rw [show a + (k + 1) = a + 1 + k by omega, this]
      simp

/-! ### Virtual stores -/

/-- A virtual store keeps the canonical form of DRAM. -/
theorem vput_wf (x : Half) (ctx va : Nat) (b : Byte) (h : Memory.wf x.mem.cells = true) :
    Memory.wf (x.vput ctx va b).mem.cells = true := by
  unfold Half.vput
  split
  · split
    · exact memWrite_wf _ _ _ h
    · exact h
  · exact h

/-- A virtual store leaves the page table alone. -/
theorem vput_tpt (x : Half) (ctx va : Nat) (b : Byte) : (x.vput ctx va b).mem.tpt = x.mem.tpt := by
  unfold Half.vput
  split
  · split <;> rfl
  · rfl

/-- A list of virtual stores keeps the canonical form of DRAM. -/
theorem vputs_wf (l : List (Nat × Byte)) (x : Half) (ctx : Nat) (h : Memory.wf x.mem.cells = true) :
    Memory.wf (x.vputs ctx l).mem.cells = true := by
  unfold Half.vputs
  induction l generalizing x with
  | nil => exact h
  | cons p l ih => exact ih _ (vput_wf x ctx p.1 p.2 h)

/-- A list of virtual stores leaves the page table alone. -/
theorem vputs_tpt (l : List (Nat × Byte)) (x : Half) (ctx : Nat) : (x.vputs ctx l).mem.tpt = x.mem.tpt := by
  unfold Half.vputs
  induction l generalizing x with
  | nil => rfl
  | cons p l ih => exact (ih _).trans (vput_tpt x ctx p.1 p.2)

/-- A virtual write of consecutive bytes keeps the canonical form of DRAM. -/
theorem vwrite_wf (x : Half) (ctx va : Nat) (bs : List Byte) (h : Memory.wf x.mem.cells = true) :
    Memory.wf (x.vwrite ctx va bs).mem.cells = true := by
  unfold Half.vwrite
  generalize List.range bs.length = l
  induction l generalizing x with
  | nil => exact h
  | cons i l ih => exact ih _ (vput_wf x ctx (va + i) _ h)

/-- A byte stored at a mapped address of a frame is read back. -/
theorem vbyte_vput_self (x : Half) (ctx va : Nat) (b : Byte) (t : Tpt) (st f : Nat) (ht : x.tptAt ctx va = some t)
    (hd : t.dest = .frame st f) (h : Memory.wf x.mem.cells = true) : (x.vput ctx va b).vbyte ctx va = b := by
  have e : (x.vput ctx va b).tptAt ctx va = some t := by
    rw [← ht]; unfold Half.tptAt Half.tptOf; rw [vput_tpt]
  unfold Half.vbyte
  rw [e]
  simp only [hd]
  unfold Half.vput
  rw [ht]
  simp only [hd]
  exact memRead_memWrite_self _ none _ _ h

@[simp] theorem noteWritten_cells (x : Half) (ctx : Nat) (ws : List (Nat × Byte)) : (x.noteWritten ctx ws).mem.cells = x.mem.cells := by
  unfold Half.noteWritten; split <;> rfl
@[simp] theorem mendBlocks_cells (x : Half) (ctx : Nat) (ws : List (Nat × Byte)) : (x.mendBlocks ctx ws).mem.cells = x.mem.cells := by
  unfold Half.mendBlocks; split <;> rfl
@[simp] theorem dropHot_mem (x : Half) (ctx : Nat) (ws : List (Nat × Byte)) : (x.dropHot ctx ws).mem = x.mem := by
  unfold Half.dropHot; split <;> rfl
@[simp] theorem dropResidents_mem (x : Half) (ctx : Nat) (ps : List Nat) : (x.dropResidents ctx ps).mem = x.mem := rfl
@[simp] theorem touch_cells (x : Half) (ctx : Nat) (d : Bool) (vas : List Nat) : (x.touch ctx d vas).mem.cells = x.mem.cells := rfl

/-- A commit keeps the canonical form of DRAM. -/
theorem commitBytes_wf (x : Half) (ctx : Nat) (ws : List (Nat × Byte)) (h : Memory.wf x.mem.cells = true) :
    Memory.wf (x.commitBytes ctx ws).mem.cells = true := by
  unfold Half.commitBytes
  refine vputs_wf ws _ ctx ?_
  simpa using h

end Sys2Proof.Laws.Memory
end

