-- ==== Sys2Proof/Laws/State.lean ====
section
/-! SUPPORT. What each elementary update of a half or of the block leaves as it was, field by field, and what it changes. -/

namespace Sys2Proof.Machine

/-! ### The block -/

@[simp] theorem other_ne (h : HalfId) : other h ≠ h := by cases h <;> decide
@[simp] theorem ne_other (h : HalfId) : h ≠ other h := by cases h <;> decide
@[simp] theorem other_other (h : HalfId) : other (other h) = h := by cases h <;> rfl

@[simp] theorem State.setHalf_same (s : State) (h : HalfId) (x : Half) : (s.setHalf h x).half h = x := by cases h <;> rfl
@[simp] theorem State.setHalf_other (s : State) (h : HalfId) (x : Half) : (s.setHalf h x).half (other h) = s.half (other h) := by
  cases h <;> rfl
@[simp] theorem State.setHalf_at_other (s : State) (h : HalfId) (x : Half) : (s.setHalf (other h) x).half h = s.half h := by
  cases h <;> rfl
@[simp] theorem State.setHalf_dev (s : State) (h : HalfId) (x : Half) : (s.setHalf h x).dev = s.dev := by cases h <;> rfl
@[simp] theorem State.setHalf_resp (s : State) (h : HalfId) (x : Half) : (s.setHalf h x).resp = s.resp := by cases h <;> rfl
@[simp] theorem State.setHalf_pending (s : State) (h : HalfId) (x : Half) : (s.setHalf h x).pending = s.pending := by cases h <;> rfl
@[simp] theorem State.setHalf_half (s : State) (h : HalfId) : s.setHalf h (s.half h) = s := by cases h <;> rfl
@[simp] theorem State.setHalf_setHalf (s : State) (h : HalfId) (x y : Half) : (s.setHalf h x).setHalf h y = s.setHalf h y := by
  cases h <;> rfl

@[simp] theorem State.mod_same (s : State) (h : HalfId) (f : Half → Half) : (s.mod h f).half h = f (s.half h) := by simp [State.mod]
@[simp] theorem State.mod_other (s : State) (h : HalfId) (f : Half → Half) : (s.mod h f).half (other h) = s.half (other h) := by
  simp [State.mod]
@[simp] theorem State.mod_at_other (s : State) (h : HalfId) (f : Half → Half) : (s.mod (other h) f).half h = s.half h := by
  simp [State.mod]
@[simp] theorem State.mod_dev (s : State) (h : HalfId) (f : Half → Half) : (s.mod h f).dev = s.dev := by simp [State.mod]
@[simp] theorem State.mod_resp (s : State) (h : HalfId) (f : Half → Half) : (s.mod h f).resp = s.resp := by simp [State.mod]
@[simp] theorem State.mod_pending (s : State) (h : HalfId) (f : Half → Half) : (s.mod h f).pending = s.pending := by simp [State.mod]
@[simp] theorem State.mod_mod (s : State) (h : HalfId) (f g : Half → Half) : (s.mod h f).mod h g = s.mod h (fun x => g (f x)) := by
  simp [State.mod]

@[simp] theorem State.half_with (s : State) (d : Dev) (r : Resp) (p : List Instr) (h : HalfId) :
    (State.mk s.a s.b d r p).half h = s.half h := by cases h <;> rfl

/-- An update that changes nothing of its half changes nothing. -/
theorem State.mod_id (s : State) (h : HalfId) (f : Half → Half) (hf : f (s.half h) = s.half h) : s.mod h f = s := by
  simp [State.mod, hf]

/-! ### A half: the fields that an update does not touch -/

@[simp] theorem Half.took_frame (x : Half) :
    x.took.me = x.me ∧ x.took.ident = x.ident ∧ x.took.mbx = x.mbx ∧ x.took.sched = x.sched ∧ x.took.mem = x.mem ∧
    x.took.qos = x.qos ∧ x.took.cores = x.cores ∧ x.took.links = x.links ∧ x.took.tim = x.tim ∧ x.took.timx = x.timx ∧
    x.took.ptn = x.ptn ∧ x.took.ump = x.ump ∧ x.took.umpx = x.umpx ∧ x.took.tests = x.tests ∧ x.took.sec = x.sec ∧
    x.took.svc = x.svc ∧ x.took.pow = x.pow ∧ x.took.powx = x.powx ∧ x.took.cfg = x.cfg ∧ x.took.cfgb = x.cfgb ∧
    x.took.frame = x.frame ∧ x.took.frames = x.frames ∧ x.took.captainBad = x.captainBad := by
  and_intros <;> rfl

@[simp] theorem Half.modSlot_frame (x : Half) (s : Nat) (f : Slot → Slot) :
    (x.modSlot s f).me = x.me ∧ (x.modSlot s f).free = x.free ∧ (x.modSlot s f).ident = x.ident ∧
    (x.modSlot s f).sched = x.sched ∧ (x.modSlot s f).mem = x.mem ∧ (x.modSlot s f).qos = x.qos ∧
    (x.modSlot s f).cores = x.cores ∧ (x.modSlot s f).links = x.links ∧ (x.modSlot s f).tim = x.tim ∧
    (x.modSlot s f).timx = x.timx ∧ (x.modSlot s f).ptn = x.ptn ∧ (x.modSlot s f).ump = x.ump ∧ (x.modSlot s f).umpx = x.umpx ∧
    (x.modSlot s f).tests = x.tests ∧ (x.modSlot s f).sec = x.sec ∧ (x.modSlot s f).svc = x.svc ∧ (x.modSlot s f).pow = x.pow ∧
    (x.modSlot s f).powx = x.powx ∧ (x.modSlot s f).cfg = x.cfg ∧ (x.modSlot s f).cfgb = x.cfgb ∧
    (x.modSlot s f).frame = x.frame ∧ (x.modSlot s f).frames = x.frames ∧ (x.modSlot s f).captainBad = x.captainBad := by
  and_intros <;> rfl

@[simp] theorem Half.modApp_frame (x : Half) (n : Nat) (f : AppCore → AppCore) :
    (x.modApp n f).me = x.me ∧ (x.modApp n f).free = x.free ∧ (x.modApp n f).ident = x.ident ∧ (x.modApp n f).mbx = x.mbx ∧
    (x.modApp n f).sched = x.sched ∧ (x.modApp n f).mem = x.mem ∧ (x.modApp n f).qos = x.qos ∧ (x.modApp n f).links = x.links ∧
    (x.modApp n f).tim = x.tim ∧ (x.modApp n f).timx = x.timx ∧ (x.modApp n f).ptn = x.ptn ∧ (x.modApp n f).ump = x.ump ∧
    (x.modApp n f).umpx = x.umpx ∧ (x.modApp n f).tests = x.tests ∧ (x.modApp n f).sec = x.sec ∧ (x.modApp n f).svc = x.svc ∧
    (x.modApp n f).pow = x.pow ∧ (x.modApp n f).powx = x.powx ∧ (x.modApp n f).cfg = x.cfg ∧ (x.modApp n f).cfgb = x.cfgb ∧
    (x.modApp n f).frame = x.frame ∧ (x.modApp n f).frames = x.frames ∧ (x.modApp n f).captainBad = x.captainBad := by
  and_intros <;> rfl

@[simp] theorem Half.modPair_frame (x : Half) (n : Nat) (f : RtPair → RtPair) :
    (x.modPair n f).me = x.me ∧ (x.modPair n f).free = x.free ∧ (x.modPair n f).ident = x.ident ∧ (x.modPair n f).mbx = x.mbx ∧
    (x.modPair n f).sched = x.sched ∧ (x.modPair n f).mem = x.mem ∧ (x.modPair n f).qos = x.qos ∧
    (x.modPair n f).links = x.links ∧ (x.modPair n f).tim = x.tim ∧ (x.modPair n f).timx = x.timx ∧
    (x.modPair n f).ptn = x.ptn ∧ (x.modPair n f).ump = x.ump ∧ (x.modPair n f).umpx = x.umpx ∧
    (x.modPair n f).tests = x.tests ∧ (x.modPair n f).sec = x.sec ∧ (x.modPair n f).svc = x.svc ∧ (x.modPair n f).pow = x.pow ∧
    (x.modPair n f).powx = x.powx ∧ (x.modPair n f).cfg = x.cfg ∧ (x.modPair n f).cfgb = x.cfgb ∧
    (x.modPair n f).frame = x.frame ∧ (x.modPair n f).frames = x.frames ∧ (x.modPair n f).captainBad = x.captainBad := by
  and_intros <;> rfl

@[simp] theorem Half.rearm_frame (x : Half) (n : Nat) :
    (x.rearm n).me = x.me ∧ (x.rearm n).free = x.free ∧ (x.rearm n).ident = x.ident ∧ (x.rearm n).mbx = x.mbx ∧
    (x.rearm n).sched = x.sched ∧ (x.rearm n).mem = x.mem ∧ (x.rearm n).qos = x.qos ∧ (x.rearm n).links = x.links ∧
    (x.rearm n).tim = x.tim ∧ (x.rearm n).timx = x.timx ∧ (x.rearm n).ptn = x.ptn ∧ (x.rearm n).ump = x.ump ∧
    (x.rearm n).umpx = x.umpx ∧ (x.rearm n).tests = x.tests ∧ (x.rearm n).sec = x.sec ∧ (x.rearm n).svc = x.svc ∧
    (x.rearm n).pow = x.pow ∧ (x.rearm n).powx = x.powx ∧ (x.rearm n).cfg = x.cfg ∧ (x.rearm n).cfgb = x.cfgb ∧
    (x.rearm n).frame = x.frame ∧ (x.rearm n).frames = x.frames ∧ (x.rearm n).captainBad = x.captainBad := by
  and_intros <;> rfl

@[simp] theorem Half.pairLine_frame (x : Half) (n : Nat) :
    (x.pairLine n).me = x.me ∧ (x.pairLine n).free = x.free ∧ (x.pairLine n).ident = x.ident ∧ (x.pairLine n).mbx = x.mbx ∧
    (x.pairLine n).sched = x.sched ∧ (x.pairLine n).mem = x.mem ∧ (x.pairLine n).qos = x.qos ∧ (x.pairLine n).links = x.links ∧
    (x.pairLine n).tim = x.tim ∧ (x.pairLine n).timx = x.timx ∧ (x.pairLine n).ptn = x.ptn ∧ (x.pairLine n).ump = x.ump ∧
    (x.pairLine n).umpx = x.umpx ∧ (x.pairLine n).tests = x.tests ∧ (x.pairLine n).sec = x.sec ∧ (x.pairLine n).svc = x.svc ∧
    (x.pairLine n).pow = x.pow ∧ (x.pairLine n).powx = x.powx ∧ (x.pairLine n).cfg = x.cfg ∧ (x.pairLine n).cfgb = x.cfgb ∧
    (x.pairLine n).frame = x.frame ∧ (x.pairLine n).frames = x.frames ∧ (x.pairLine n).captainBad = x.captainBad := by
  and_intros <;> rfl

@[simp] theorem Half.timEvent_frame (x : Half) (n : Nat) :
    (x.timEvent n).me = x.me ∧ (x.timEvent n).free = x.free ∧ (x.timEvent n).ident = x.ident ∧ (x.timEvent n).mbx = x.mbx ∧
    (x.timEvent n).sched = x.sched ∧ (x.timEvent n).mem = x.mem ∧ (x.timEvent n).qos = x.qos ∧ (x.timEvent n).cores = x.cores ∧
    (x.timEvent n).links = x.links ∧ (x.timEvent n).timx = x.timx ∧ (x.timEvent n).ptn = x.ptn ∧ (x.timEvent n).ump = x.ump ∧
    (x.timEvent n).umpx = x.umpx ∧ (x.timEvent n).tests = x.tests ∧ (x.timEvent n).sec = x.sec ∧ (x.timEvent n).svc = x.svc ∧
    (x.timEvent n).pow = x.pow ∧ (x.timEvent n).powx = x.powx ∧ (x.timEvent n).cfg = x.cfg ∧ (x.timEvent n).cfgb = x.cfgb ∧
    (x.timEvent n).frame = x.frame ∧ (x.timEvent n).frames = x.frames ∧ (x.timEvent n).captainBad = x.captainBad := by
  and_intros <;> rfl

@[simp] theorem Half.cause_frame (x : Half) (n : Nat) (on : Bool) :
    (x.cause n on).me = x.me ∧ (x.cause n on).free = x.free ∧ (x.cause n on).ident = x.ident ∧ (x.cause n on).mbx = x.mbx ∧
    (x.cause n on).sched = x.sched ∧ (x.cause n on).mem = x.mem ∧ (x.cause n on).cores = x.cores ∧
    (x.cause n on).links = x.links ∧ (x.cause n on).tim = x.tim ∧ (x.cause n on).timx = x.timx ∧ (x.cause n on).ptn = x.ptn ∧
    (x.cause n on).ump = x.ump ∧ (x.cause n on).umpx = x.umpx ∧ (x.cause n on).tests = x.tests ∧ (x.cause n on).sec = x.sec ∧
    (x.cause n on).svc = x.svc ∧ (x.cause n on).pow = x.pow ∧ (x.cause n on).powx = x.powx ∧ (x.cause n on).cfg = x.cfg ∧
    (x.cause n on).cfgb = x.cfgb ∧ (x.cause n on).frame = x.frame ∧ (x.cause n on).frames = x.frames ∧
    (x.cause n on).captainBad = x.captainBad := by
  and_intros <;> rfl

@[simp] theorem Half.modPartner_frame (x : Half) (n : Nat) (f : Partner → Partner) :
    (x.modPartner n f).me = x.me ∧ (x.modPartner n f).free = x.free ∧ (x.modPartner n f).ident = x.ident ∧
    (x.modPartner n f).mbx = x.mbx ∧ (x.modPartner n f).sched = x.sched ∧ (x.modPartner n f).mem = x.mem ∧
    (x.modPartner n f).qos = x.qos ∧ (x.modPartner n f).cores = x.cores ∧ (x.modPartner n f).links = x.links ∧
    (x.modPartner n f).tim = x.tim ∧ (x.modPartner n f).timx = x.timx ∧ (x.modPartner n f).ump = x.ump ∧
    (x.modPartner n f).umpx = x.umpx ∧ (x.modPartner n f).tests = x.tests ∧ (x.modPartner n f).sec = x.sec ∧
    (x.modPartner n f).svc = x.svc ∧ (x.modPartner n f).pow = x.pow ∧ (x.modPartner n f).powx = x.powx ∧
    (x.modPartner n f).cfg = x.cfg ∧ (x.modPartner n f).cfgb = x.cfgb ∧ (x.modPartner n f).frame = x.frame ∧
    (x.modPartner n f).frames = x.frames ∧ (x.modPartner n f).captainBad = x.captainBad := by
  and_intros <;> rfl

@[simp] theorem Half.modLink_frame (x : Half) (n : Nat) (f : Link → Link) :
    (x.modLink n f).me = x.me ∧ (x.modLink n f).free = x.free ∧ (x.modLink n f).ident = x.ident ∧ (x.modLink n f).mbx = x.mbx ∧
    (x.modLink n f).sched = x.sched ∧ (x.modLink n f).mem = x.mem ∧ (x.modLink n f).qos = x.qos ∧
    (x.modLink n f).cores = x.cores ∧ (x.modLink n f).tim = x.tim ∧ (x.modLink n f).timx = x.timx ∧
    (x.modLink n f).ptn = x.ptn ∧ (x.modLink n f).ump = x.ump ∧ (x.modLink n f).umpx = x.umpx ∧
    (x.modLink n f).tests = x.tests ∧ (x.modLink n f).sec = x.sec ∧ (x.modLink n f).svc = x.svc ∧ (x.modLink n f).pow = x.pow ∧
    (x.modLink n f).powx = x.powx ∧ (x.modLink n f).cfg = x.cfg ∧ (x.modLink n f).cfgb = x.cfgb ∧
    (x.modLink n f).frame = x.frame ∧ (x.modLink n f).frames = x.frames ∧ (x.modLink n f).captainBad = x.captainBad := by
  and_intros <;> rfl

@[simp] theorem Half.modClient_frame (x : Half) (n : Nat) (f : Client → Client) :
    (x.modClient n f).me = x.me ∧ (x.modClient n f).free = x.free ∧ (x.modClient n f).ident = x.ident ∧
    (x.modClient n f).mbx = x.mbx ∧ (x.modClient n f).mem = x.mem ∧ (x.modClient n f).qos = x.qos ∧
    (x.modClient n f).cores = x.cores ∧ (x.modClient n f).links = x.links ∧ (x.modClient n f).tim = x.tim ∧
    (x.modClient n f).timx = x.timx ∧ (x.modClient n f).ptn = x.ptn ∧ (x.modClient n f).ump = x.ump ∧
    (x.modClient n f).umpx = x.umpx ∧ (x.modClient n f).tests = x.tests ∧ (x.modClient n f).sec = x.sec ∧
    (x.modClient n f).svc = x.svc ∧ (x.modClient n f).pow = x.pow ∧ (x.modClient n f).powx = x.powx ∧
    (x.modClient n f).cfg = x.cfg ∧ (x.modClient n f).cfgb = x.cfgb ∧ (x.modClient n f).frame = x.frame ∧
    (x.modClient n f).frames = x.frames ∧ (x.modClient n f).captainBad = x.captainBad := by
  and_intros <;> rfl

@[simp] theorem Half.modQueue_frame (x : Half) (n : Nat) (f : Queue → Queue) :
    (x.modQueue n f).me = x.me ∧ (x.modQueue n f).free = x.free ∧ (x.modQueue n f).ident = x.ident ∧
    (x.modQueue n f).mbx = x.mbx ∧ (x.modQueue n f).mem = x.mem ∧ (x.modQueue n f).qos = x.qos ∧
    (x.modQueue n f).cores = x.cores ∧ (x.modQueue n f).links = x.links ∧ (x.modQueue n f).tim = x.tim ∧
    (x.modQueue n f).timx = x.timx ∧ (x.modQueue n f).ptn = x.ptn ∧ (x.modQueue n f).ump = x.ump ∧
    (x.modQueue n f).umpx = x.umpx ∧ (x.modQueue n f).tests = x.tests ∧ (x.modQueue n f).sec = x.sec ∧
    (x.modQueue n f).svc = x.svc ∧ (x.modQueue n f).pow = x.pow ∧ (x.modQueue n f).powx = x.powx ∧
    (x.modQueue n f).cfg = x.cfg ∧ (x.modQueue n f).cfgb = x.cfgb ∧ (x.modQueue n f).frame = x.frame ∧
    (x.modQueue n f).frames = x.frames ∧ (x.modQueue n f).captainBad = x.captainBad := by
  and_intros <;> rfl

@[simp] theorem Half.modCmd_frame (x : Half) (n : Nat) (f : Cmd → Cmd) :
    (x.modCmd n f).me = x.me ∧ (x.modCmd n f).free = x.free ∧ (x.modCmd n f).ident = x.ident ∧ (x.modCmd n f).mbx = x.mbx ∧
    (x.modCmd n f).mem = x.mem ∧ (x.modCmd n f).qos = x.qos ∧ (x.modCmd n f).cores = x.cores ∧ (x.modCmd n f).links = x.links ∧
    (x.modCmd n f).tim = x.tim ∧ (x.modCmd n f).timx = x.timx ∧ (x.modCmd n f).ptn = x.ptn ∧ (x.modCmd n f).ump = x.ump ∧
    (x.modCmd n f).umpx = x.umpx ∧ (x.modCmd n f).tests = x.tests ∧ (x.modCmd n f).sec = x.sec ∧ (x.modCmd n f).svc = x.svc ∧
    (x.modCmd n f).pow = x.pow ∧ (x.modCmd n f).powx = x.powx ∧ (x.modCmd n f).cfg = x.cfg ∧ (x.modCmd n f).cfgb = x.cfgb ∧
    (x.modCmd n f).frame = x.frame ∧ (x.modCmd n f).frames = x.frames ∧ (x.modCmd n f).captainBad = x.captainBad := by
  and_intros <;> rfl

@[simp] theorem Half.modEngine_frame (x : Half) (n : Nat) (f : Engine → Engine) :
    (x.modEngine n f).me = x.me ∧ (x.modEngine n f).free = x.free ∧ (x.modEngine n f).ident = x.ident ∧
    (x.modEngine n f).mbx = x.mbx ∧ (x.modEngine n f).mem = x.mem ∧ (x.modEngine n f).qos = x.qos ∧
    (x.modEngine n f).cores = x.cores ∧ (x.modEngine n f).links = x.links ∧ (x.modEngine n f).tim = x.tim ∧
    (x.modEngine n f).timx = x.timx ∧ (x.modEngine n f).ptn = x.ptn ∧ (x.modEngine n f).ump = x.ump ∧
    (x.modEngine n f).umpx = x.umpx ∧ (x.modEngine n f).tests = x.tests ∧ (x.modEngine n f).sec = x.sec ∧
    (x.modEngine n f).svc = x.svc ∧ (x.modEngine n f).pow = x.pow ∧ (x.modEngine n f).powx = x.powx ∧
    (x.modEngine n f).cfg = x.cfg ∧ (x.modEngine n f).cfgb = x.cfgb ∧ (x.modEngine n f).frame = x.frame ∧
    (x.modEngine n f).frames = x.frames ∧ (x.modEngine n f).captainBad = x.captainBad := by
  and_intros <;> rfl

@[simp] theorem Half.modPipe_frame (x : Half) (f : Pipe → Pipe) :
    (x.modPipe f).me = x.me ∧ (x.modPipe f).free = x.free ∧ (x.modPipe f).ident = x.ident ∧ (x.modPipe f).mbx = x.mbx ∧
    (x.modPipe f).mem = x.mem ∧ (x.modPipe f).qos = x.qos ∧ (x.modPipe f).cores = x.cores ∧ (x.modPipe f).links = x.links ∧
    (x.modPipe f).tim = x.tim ∧ (x.modPipe f).timx = x.timx ∧ (x.modPipe f).ptn = x.ptn ∧ (x.modPipe f).ump = x.ump ∧
    (x.modPipe f).umpx = x.umpx ∧ (x.modPipe f).tests = x.tests ∧ (x.modPipe f).sec = x.sec ∧ (x.modPipe f).svc = x.svc ∧
    (x.modPipe f).pow = x.pow ∧ (x.modPipe f).powx = x.powx ∧ (x.modPipe f).cfg = x.cfg ∧ (x.modPipe f).cfgb = x.cfgb ∧
    (x.modPipe f).frame = x.frame ∧ (x.modPipe f).frames = x.frames ∧ (x.modPipe f).captainBad = x.captainBad := by
  and_intros <;> rfl

@[simp] theorem Half.modQos_frame (x : Half) (f : Qos → Qos) :
    (x.modQos f).me = x.me ∧ (x.modQos f).free = x.free ∧ (x.modQos f).ident = x.ident ∧ (x.modQos f).mbx = x.mbx ∧
    (x.modQos f).sched = x.sched ∧ (x.modQos f).mem = x.mem ∧ (x.modQos f).cores = x.cores ∧ (x.modQos f).links = x.links ∧
    (x.modQos f).tim = x.tim ∧ (x.modQos f).timx = x.timx ∧ (x.modQos f).ptn = x.ptn ∧ (x.modQos f).ump = x.ump ∧
    (x.modQos f).umpx = x.umpx ∧ (x.modQos f).tests = x.tests ∧ (x.modQos f).sec = x.sec ∧ (x.modQos f).svc = x.svc ∧
    (x.modQos f).pow = x.pow ∧ (x.modQos f).powx = x.powx ∧ (x.modQos f).cfg = x.cfg ∧ (x.modQos f).cfgb = x.cfgb ∧
    (x.modQos f).frame = x.frame ∧ (x.modQos f).frames = x.frames ∧ (x.modQos f).captainBad = x.captainBad := by
  and_intros <;> rfl

@[simp] theorem Half.modPort_frame (x : Half) (n : Nat) (f : TimPort → TimPort) :
    (x.modPort n f).me = x.me ∧ (x.modPort n f).free = x.free ∧ (x.modPort n f).ident = x.ident ∧ (x.modPort n f).mbx = x.mbx ∧
    (x.modPort n f).sched = x.sched ∧ (x.modPort n f).mem = x.mem ∧ (x.modPort n f).qos = x.qos ∧
    (x.modPort n f).cores = x.cores ∧ (x.modPort n f).links = x.links ∧ (x.modPort n f).tim = x.tim ∧
    (x.modPort n f).ptn = x.ptn ∧ (x.modPort n f).ump = x.ump ∧ (x.modPort n f).umpx = x.umpx ∧
    (x.modPort n f).tests = x.tests ∧ (x.modPort n f).sec = x.sec ∧ (x.modPort n f).svc = x.svc ∧ (x.modPort n f).pow = x.pow ∧
    (x.modPort n f).powx = x.powx ∧ (x.modPort n f).cfg = x.cfg ∧ (x.modPort n f).cfgb = x.cfgb ∧
    (x.modPort n f).frame = x.frame ∧ (x.modPort n f).frames = x.frames ∧ (x.modPort n f).captainBad = x.captainBad := by
  and_intros <;> rfl

@[simp] theorem Half.modTest_frame (x : Half) (n : Nat) (f : SelfTest → SelfTest) :
    (x.modTest n f).me = x.me ∧ (x.modTest n f).free = x.free ∧ (x.modTest n f).ident = x.ident ∧ (x.modTest n f).mbx = x.mbx ∧
    (x.modTest n f).sched = x.sched ∧ (x.modTest n f).mem = x.mem ∧ (x.modTest n f).qos = x.qos ∧
    (x.modTest n f).cores = x.cores ∧ (x.modTest n f).links = x.links ∧ (x.modTest n f).tim = x.tim ∧
    (x.modTest n f).timx = x.timx ∧ (x.modTest n f).ptn = x.ptn ∧ (x.modTest n f).ump = x.ump ∧ (x.modTest n f).umpx = x.umpx ∧
    (x.modTest n f).sec = x.sec ∧ (x.modTest n f).svc = x.svc ∧ (x.modTest n f).pow = x.pow ∧ (x.modTest n f).powx = x.powx ∧
    (x.modTest n f).cfg = x.cfg ∧ (x.modTest n f).cfgb = x.cfgb ∧ (x.modTest n f).frame = x.frame ∧
    (x.modTest n f).frames = x.frames ∧ (x.modTest n f).captainBad = x.captainBad := by
  and_intros <;> rfl

@[simp] theorem Half.tickSeq_frame (x : Half) :
    x.tickSeq.me = x.me ∧ x.tickSeq.free = x.free ∧ x.tickSeq.ident = x.ident ∧ x.tickSeq.mbx = x.mbx ∧ x.tickSeq.mem = x.mem ∧
    x.tickSeq.qos = x.qos ∧ x.tickSeq.cores = x.cores ∧ x.tickSeq.links = x.links ∧ x.tickSeq.tim = x.tim ∧
    x.tickSeq.timx = x.timx ∧ x.tickSeq.ptn = x.ptn ∧ x.tickSeq.ump = x.ump ∧ x.tickSeq.umpx = x.umpx ∧
    x.tickSeq.tests = x.tests ∧ x.tickSeq.sec = x.sec ∧ x.tickSeq.svc = x.svc ∧ x.tickSeq.pow = x.pow ∧
    x.tickSeq.powx = x.powx ∧ x.tickSeq.cfg = x.cfg ∧ x.tickSeq.cfgb = x.cfgb ∧ x.tickSeq.frame = x.frame ∧
    x.tickSeq.frames = x.frames ∧ x.tickSeq.captainBad = x.captainBad := by
  and_intros <;> rfl

@[simp] theorem Half.deliver_frame (x : Half) (n m : Nat) :
    (x.deliver n m).me = x.me ∧ (x.deliver n m).free = x.free ∧ (x.deliver n m).ident = x.ident ∧ (x.deliver n m).mbx = x.mbx ∧
    (x.deliver n m).sched = x.sched ∧ (x.deliver n m).mem = x.mem ∧ (x.deliver n m).qos = x.qos ∧
    (x.deliver n m).links = x.links ∧ (x.deliver n m).tim = x.tim ∧ (x.deliver n m).timx = x.timx ∧
    (x.deliver n m).ptn = x.ptn ∧ (x.deliver n m).ump = x.ump ∧ (x.deliver n m).umpx = x.umpx ∧
    (x.deliver n m).tests = x.tests ∧ (x.deliver n m).sec = x.sec ∧ (x.deliver n m).svc = x.svc ∧ (x.deliver n m).pow = x.pow ∧
    (x.deliver n m).powx = x.powx ∧ (x.deliver n m).cfg = x.cfg ∧ (x.deliver n m).cfgb = x.cfgb ∧
    (x.deliver n m).frame = x.frame ∧ (x.deliver n m).frames = x.frames ∧ (x.deliver n m).captainBad = x.captainBad := by
  unfold Half.deliver; split <;> simp

@[simp] theorem Half.raise_frame (x : Half) (n : Nat) :
    (x.raise n).me = x.me ∧ (x.raise n).free = x.free ∧ (x.raise n).ident = x.ident ∧ (x.raise n).mbx = x.mbx ∧
    (x.raise n).sched = x.sched ∧ (x.raise n).mem = x.mem ∧ (x.raise n).qos = x.qos ∧ (x.raise n).links = x.links ∧
    (x.raise n).tim = x.tim ∧ (x.raise n).timx = x.timx ∧ (x.raise n).ptn = x.ptn ∧ (x.raise n).ump = x.ump ∧
    (x.raise n).umpx = x.umpx ∧ (x.raise n).tests = x.tests ∧ (x.raise n).sec = x.sec ∧ (x.raise n).svc = x.svc ∧
    (x.raise n).pow = x.pow ∧ (x.raise n).powx = x.powx ∧ (x.raise n).cfg = x.cfg ∧ (x.raise n).cfgb = x.cfgb ∧
    (x.raise n).frame = x.frame ∧ (x.raise n).frames = x.frames ∧ (x.raise n).captainBad = x.captainBad := by
  simp [Half.raise]

@[simp] theorem Half.clientLines_frame (x : Half) (n : Nat) :
    (x.clientLines n).me = x.me ∧ (x.clientLines n).free = x.free ∧ (x.clientLines n).ident = x.ident ∧
    (x.clientLines n).mbx = x.mbx ∧ (x.clientLines n).sched = x.sched ∧ (x.clientLines n).mem = x.mem ∧
    (x.clientLines n).qos = x.qos ∧ (x.clientLines n).links = x.links ∧ (x.clientLines n).tim = x.tim ∧
    (x.clientLines n).timx = x.timx ∧ (x.clientLines n).ptn = x.ptn ∧ (x.clientLines n).ump = x.ump ∧
    (x.clientLines n).umpx = x.umpx ∧ (x.clientLines n).tests = x.tests ∧ (x.clientLines n).sec = x.sec ∧
    (x.clientLines n).svc = x.svc ∧ (x.clientLines n).pow = x.pow ∧ (x.clientLines n).powx = x.powx ∧
    (x.clientLines n).cfg = x.cfg ∧ (x.clientLines n).cfgb = x.cfgb ∧ (x.clientLines n).frame = x.frame ∧
    (x.clientLines n).frames = x.frames ∧ (x.clientLines n).captainBad = x.captainBad := by
  simp only [Half.clientLines, List.range_succ, List.range_zero, List.nil_append, List.cons_append, List.foldl_cons, List.foldl_nil]; (repeat' split) <;> simp

@[simp] theorem Half.umpEvent_frame (x : Half) (n : Nat) :
    (x.umpEvent n).me = x.me ∧ (x.umpEvent n).free = x.free ∧ (x.umpEvent n).ident = x.ident ∧ (x.umpEvent n).mbx = x.mbx ∧
    (x.umpEvent n).sched = x.sched ∧ (x.umpEvent n).mem = x.mem ∧ (x.umpEvent n).qos = x.qos ∧ (x.umpEvent n).links = x.links ∧
    (x.umpEvent n).tim = x.tim ∧ (x.umpEvent n).timx = x.timx ∧ (x.umpEvent n).ptn = x.ptn ∧ (x.umpEvent n).umpx = x.umpx ∧
    (x.umpEvent n).tests = x.tests ∧ (x.umpEvent n).sec = x.sec ∧ (x.umpEvent n).svc = x.svc ∧ (x.umpEvent n).pow = x.pow ∧
    (x.umpEvent n).powx = x.powx ∧ (x.umpEvent n).cfg = x.cfg ∧ (x.umpEvent n).cfgb = x.cfgb ∧ (x.umpEvent n).frame = x.frame ∧
    (x.umpEvent n).frames = x.frames ∧ (x.umpEvent n).captainBad = x.captainBad := by
  unfold Half.umpEvent; dsimp only; split <;> simp

@[simp] theorem Half.thmEvent_frame (x : Half) (n : Nat) :
    (x.thmEvent n).me = x.me ∧ (x.thmEvent n).free = x.free ∧ (x.thmEvent n).ident = x.ident ∧ (x.thmEvent n).mbx = x.mbx ∧
    (x.thmEvent n).sched = x.sched ∧ (x.thmEvent n).mem = x.mem ∧ (x.thmEvent n).qos = x.qos ∧ (x.thmEvent n).links = x.links ∧
    (x.thmEvent n).tim = x.tim ∧ (x.thmEvent n).timx = x.timx ∧ (x.thmEvent n).ptn = x.ptn ∧ (x.thmEvent n).ump = x.ump ∧
    (x.thmEvent n).umpx = x.umpx ∧ (x.thmEvent n).tests = x.tests ∧ (x.thmEvent n).sec = x.sec ∧ (x.thmEvent n).svc = x.svc ∧
    (x.thmEvent n).powx = x.powx ∧ (x.thmEvent n).cfg = x.cfg ∧ (x.thmEvent n).cfgb = x.cfgb ∧ (x.thmEvent n).frame = x.frame ∧
    (x.thmEvent n).frames = x.frames ∧ (x.thmEvent n).captainBad = x.captainBad := by
  unfold Half.thmEvent; dsimp only; split <;> simp

@[simp] theorem Half.lnkEvent_frame (x : Half) (n : Nat) :
    (x.lnkEvent n).me = x.me ∧ (x.lnkEvent n).free = x.free ∧ (x.lnkEvent n).ident = x.ident ∧ (x.lnkEvent n).mbx = x.mbx ∧
    (x.lnkEvent n).sched = x.sched ∧ (x.lnkEvent n).mem = x.mem ∧ (x.lnkEvent n).qos = x.qos ∧ (x.lnkEvent n).tim = x.tim ∧
    (x.lnkEvent n).timx = x.timx ∧ (x.lnkEvent n).ptn = x.ptn ∧ (x.lnkEvent n).ump = x.ump ∧ (x.lnkEvent n).umpx = x.umpx ∧
    (x.lnkEvent n).tests = x.tests ∧ (x.lnkEvent n).sec = x.sec ∧ (x.lnkEvent n).svc = x.svc ∧ (x.lnkEvent n).pow = x.pow ∧
    (x.lnkEvent n).powx = x.powx ∧ (x.lnkEvent n).cfg = x.cfg ∧ (x.lnkEvent n).cfgb = x.cfgb ∧ (x.lnkEvent n).frame = x.frame ∧
    (x.lnkEvent n).frames = x.frames ∧ (x.lnkEvent n).captainBad = x.captainBad := by
  unfold Half.lnkEvent; dsimp only; split <;> simp

@[simp] theorem Half.qosEvent_frame (x : Half) (n : Nat) :
    (x.qosEvent n).me = x.me ∧ (x.qosEvent n).free = x.free ∧ (x.qosEvent n).ident = x.ident ∧ (x.qosEvent n).mbx = x.mbx ∧
    (x.qosEvent n).sched = x.sched ∧ (x.qosEvent n).mem = x.mem ∧ (x.qosEvent n).links = x.links ∧ (x.qosEvent n).tim = x.tim ∧
    (x.qosEvent n).timx = x.timx ∧ (x.qosEvent n).ptn = x.ptn ∧ (x.qosEvent n).ump = x.ump ∧ (x.qosEvent n).umpx = x.umpx ∧
    (x.qosEvent n).tests = x.tests ∧ (x.qosEvent n).sec = x.sec ∧ (x.qosEvent n).svc = x.svc ∧ (x.qosEvent n).pow = x.pow ∧
    (x.qosEvent n).powx = x.powx ∧ (x.qosEvent n).cfg = x.cfg ∧ (x.qosEvent n).cfgb = x.cfgb ∧ (x.qosEvent n).frame = x.frame ∧
    (x.qosEvent n).frames = x.frames ∧ (x.qosEvent n).captainBad = x.captainBad := by
  unfold Half.qosEvent; dsimp only; split <;> simp

@[simp] theorem Half.mbxIrq_frame (x : Half) (n m c : Nat) :
    (x.mbxIrq n m c).me = x.me ∧ (x.mbxIrq n m c).free = x.free ∧ (x.mbxIrq n m c).ident = x.ident ∧
    (x.mbxIrq n m c).sched = x.sched ∧ (x.mbxIrq n m c).mem = x.mem ∧ (x.mbxIrq n m c).qos = x.qos ∧
    (x.mbxIrq n m c).links = x.links ∧ (x.mbxIrq n m c).tim = x.tim ∧ (x.mbxIrq n m c).timx = x.timx ∧
    (x.mbxIrq n m c).ptn = x.ptn ∧ (x.mbxIrq n m c).ump = x.ump ∧ (x.mbxIrq n m c).umpx = x.umpx ∧
    (x.mbxIrq n m c).tests = x.tests ∧ (x.mbxIrq n m c).sec = x.sec ∧ (x.mbxIrq n m c).svc = x.svc ∧
    (x.mbxIrq n m c).pow = x.pow ∧ (x.mbxIrq n m c).powx = x.powx ∧ (x.mbxIrq n m c).cfg = x.cfg ∧
    (x.mbxIrq n m c).cfgb = x.cfgb ∧ (x.mbxIrq n m c).frame = x.frame ∧ (x.mbxIrq n m c).frames = x.frames ∧
    (x.mbxIrq n m c).captainBad = x.captainBad := by
  unfold Half.mbxIrq; dsimp only; (repeat' split) <;> simp

/-! ### What the updates change, through the accessors -/

@[simp] theorem Half.modSlot_same (x : Half) (k : Nat) (f : Slot → Slot) (hk : k < x.mbx.slots.length) :
    (x.modSlot k f).slot k = f (x.slot k) := by
  simp [Half.slot, Half.modSlot, List.getElem?_eq_getElem hk]

theorem Half.modSlot_ne (x : Half) (k j : Nat) (f : Slot → Slot) (hk : j ≠ k) : (x.modSlot k f).slot j = x.slot j := by
  simp [Half.slot, Half.modSlot, Ne.symm hk]

@[simp] theorem Half.modSlot_posted (x : Half) (k : Nat) (f : Slot → Slot) : (x.modSlot k f).mbx.posted = x.mbx.posted := rfl
@[simp] theorem Half.modSlot_acked (x : Half) (k : Nat) (f : Slot → Slot) : (x.modSlot k f).mbx.acked = x.mbx.acked := rfl
@[simp] theorem Half.modSlot_irqStatus (x : Half) (k : Nat) (f : Slot → Slot) : (x.modSlot k f).mbx.irqStatus = x.mbx.irqStatus := rfl

@[simp] theorem Half.modEngine_same (x : Half) (k : Nat) (f : Engine → Engine) (hk : k < x.sched.engines.length) :
    (x.modEngine k f).engine k = f (x.engine k) := by
  simp [Half.engine, Half.modEngine, List.getElem?_eq_getElem hk]

theorem Half.modEngine_ne (x : Half) (k j : Nat) (f : Engine → Engine) (hk : j ≠ k) : (x.modEngine k f).engine j = x.engine j := by
  simp [Half.engine, Half.modEngine, Ne.symm hk]

@[simp] theorem Half.modEngine_cmds (x : Half) (k : Nat) (f : Engine → Engine) : (x.modEngine k f).sched.cmds = x.sched.cmds := rfl
@[simp] theorem Half.modEngine_length (x : Half) (k : Nat) (f : Engine → Engine) :
    (x.modEngine k f).sched.engines.length = x.sched.engines.length := by simp [Half.modEngine]

@[simp] theorem Half.modLink_same (x : Half) (k : Nat) (f : Link → Link) (hk : k < x.links.recs.length) :
    (x.modLink k f).link k = f (x.link k) := by
  simp [Half.link, Half.modLink, List.getElem?_eq_getElem hk]

theorem Half.modLink_ne (x : Half) (k j : Nat) (f : Link → Link) (hk : j ≠ k) : (x.modLink k f).link j = x.link j := by
  simp [Half.link, Half.modLink, Ne.symm hk]

@[simp] theorem Half.modPartner_same (x : Half) (k : Nat) (f : Partner → Partner) (hk : k < x.ptn.entries.length) :
    (x.modPartner k f).partner k = f (x.partner k) := by
  simp [Half.partner, Half.modPartner, List.getElem?_eq_getElem hk]

theorem Half.modPartner_ne (x : Half) (k j : Nat) (f : Partner → Partner) (hk : j ≠ k) :
    (x.modPartner k f).partner j = x.partner j := by
  simp [Half.partner, Half.modPartner, Ne.symm hk]

@[simp] theorem Half.modPair_same (x : Half) (k : Nat) (f : RtPair → RtPair) (hk : k < x.cores.pairs.length) :
    (x.modPair k f).pair k = f (x.pair k) := by
  simp [Half.pair, Half.modPair, List.getElem?_eq_getElem hk]

theorem Half.modPair_ne (x : Half) (k j : Nat) (f : RtPair → RtPair) (hk : j ≠ k) : (x.modPair k f).pair j = x.pair j := by
  simp [Half.pair, Half.modPair, Ne.symm hk]

@[simp] theorem Half.modPort_same (x : Half) (k : Nat) (f : TimPort → TimPort) (hk : k < x.timx.ports.length) :
    (x.modPort k f).port k = f (x.port k) := by
  simp [Half.port, Half.modPort, List.getElem?_eq_getElem hk]

theorem Half.modPort_ne (x : Half) (k j : Nat) (f : TimPort → TimPort) (hk : j ≠ k) : (x.modPort k f).port j = x.port j := by
  simp [Half.port, Half.modPort, Ne.symm hk]

@[simp] theorem Half.modTest_same (x : Half) (k : Nat) (f : SelfTest → SelfTest) (hk : k < x.tests.length) :
    (x.modTest k f).test k = f (x.test k) := by
  simp [Half.test, Half.modTest, List.getElem?_eq_getElem hk]

theorem Half.modTest_ne (x : Half) (k j : Nat) (f : SelfTest → SelfTest) (hk : j ≠ k) : (x.modTest k f).test j = x.test j := by
  simp [Half.test, Half.modTest, Ne.symm hk]

/-! ### The event registers -/

@[simp] theorem Half.umpEvent_ump (x : Half) (n : Nat) :
    (x.umpEvent n).ump = { x.ump with events := setBit x.ump.events n } := by
  unfold Half.umpEvent; dsimp only; split <;> simp

@[simp] theorem Half.thmEvent_pow (x : Half) (n : Nat) :
    (x.thmEvent n).pow = { x.pow with events := setBit x.pow.events n } := by
  unfold Half.thmEvent; dsimp only; split <;> simp

@[simp] theorem Half.mbxIrq_slot (x : Half) (n m c k : Nat) : (x.mbxIrq n m c).slot k = x.slot k := by
  unfold Half.mbxIrq; dsimp only; (repeat' split) <;> simp [Half.slot]

@[simp] theorem Half.mbxIrq_irqStatus (x : Half) (n m c : Nat) :
    (x.mbxIrq n m c).mbx.irqStatus = if n < 60 then setBit x.mbx.irqStatus n else x.mbx.irqStatus := by
  unfold Half.mbxIrq; dsimp only; (repeat' split) <;> simp_all

/-- A bit that an event sets is set. -/
theorem bitAt_setBit {n : Nat} (r : BitVec n) (i : Nat) (hi : i < n) : bitAt (setBit r i) i = true := by
  simp [bitAt, setBit, hi]

/-- An event leaves every other bit. -/
theorem bitAt_setBit_ne {n : Nat} (r : BitVec n) (i j : Nat) (hj : j ≠ i) : bitAt (setBit r i) j = bitAt r j := by
  simp only [bitAt, setBit, BitVec.getLsbD_or, BitVec.getLsbD_shiftLeft, BitVec.getLsbD_one]
  have : ¬ (j - i = 0 ∧ i ≤ j) := by omega
  by_cases h : i ≤ j
  · have : ¬ j - i = 0 := by omega
    simp [this]
  · simp [Nat.lt_of_not_le h]

end Sys2Proof.Machine
end

