-- ==== Sys2Proof/Laws/Messages.lean ====
section
/-! SUPPORT. What the shared course of a message does: it is executed when it is sent as the spec asks and its opcode's checks pass,
ended by the first failing check otherwise, and answered from the stored message when it is a repeat. -/

namespace Sys2Proof.Machine

/-- No check is reported exactly when none fails. -/
theorem worst_eq_none {l : List Chk} : worst l = none ↔ ∀ d ∈ l, d.bad = false := by
  induction l with
  | nil => simp [worst]
  | cons c l ih =>
    cases hc : c.bad
    · simp [worst, hc, ih]
    · cases hw : worst l with
      | none => simp [worst, hc, hw]
      | some d => simp only [worst, hc, hw]; split <;> simp [hc]

/-- Checks before others that pass leave the report to those. -/
theorem worst_append_of_pass {l k : List Chk} (hl : ∀ d ∈ l, d.bad = false) : worst (l ++ k) = worst k := by
  induction l with
  | nil => rfl
  | cons c l ih =>
    have hc := hl c (by simp)
    simp [worst, hc, ih (fun d hd => hl d (by simp [hd]))]

/-- A message sent in its short form is ready, of its opcode and no repeat. -/
theorem Half.sends_ready {x : Half} {slot op len : Nat} (h : x.sends slot op len = true) :
    x.msgReady slot op = true ∧ (x.slot slot).isReplay = false ∧ msgOp (x.msg slot) = op := by
  simp only [Half.sends, Half.msgReady, Bool.and_eq_true, Bool.not_eq_true'] at *
  simp_all

/-- A message sent in its long form is ready, of its opcode and no repeat. -/
theorem Half.sendsLong_ready {x : Half} {slot op maxIn : Nat} (h : x.sendsLong slot op maxIn = true) :
    x.msgReady slot op = true ∧ (x.slot slot).isReplay = false ∧ msgOp (x.msg slot) = op := by
  simp only [Half.sendsLong, Half.msgReady, Bool.and_eq_true, Bool.not_eq_true'] at *
  simp_all

/-- The header of a message sent as the spec asks, in its short form, passes. -/
theorem Half.sends_head {x : Half} {slot op len : Nat} {f : Form} (h : x.sends slot op len = true) (hop : op ∈ opcodes)
    (hf : f.lens.contains len = true) : ∀ d ∈ x.headChecks slot (x.msg slot) f, d.bad = false := by
  have e := (Half.sends_ready h).2.2
  simp only [Half.sends, Bool.and_eq_true, Bool.not_eq_true', decide_eq_true_eq, Bool.or_eq_true] at h
  have hl : msgLong (x.msg slot) = false := by simp_all
  simp only [Half.headChecks, e, hl, Bool.false_eq_true, if_false, Bool.or_false, Bool.false_and, List.append_nil]
  simp only [List.forall_mem_cons, List.not_mem_nil, false_implies, implies_true, and_true]
  cases hc : ctxOp op <;> by_cases hs : slot < 60 <;> simp_all <;> grind

/-- The header of a message sent as the spec asks, in its long form, passes. -/
theorem Half.sendsLong_head {x : Half} {slot op maxIn : Nat} {f : Form} (h : x.sendsLong slot op maxIn = true) (hop : op ∈ opcodes)
    (hl : f.long = true) (hm : f.maxIn = maxIn) : ∀ d ∈ x.headChecks slot (x.msg slot) f, d.bad = false := by
  subst hm
  have e := (Half.sendsLong_ready h).2.2
  simp only [Half.sendsLong, Bool.and_eq_true, Bool.not_eq_true', decide_eq_true_eq, Bool.or_eq_true] at h
  have hg : msgLong (x.msg slot) = true := by simp_all
  have hs : ¬ 60 ≤ slot := by simp_all
  simp only [Half.headChecks, Half.longChecks, e, hg, if_true, Bool.or_true, Bool.true_and, Bool.not_true, Bool.false_and, List.forall_mem_append,
    List.forall_mem_cons, List.not_mem_nil, false_implies, implies_true, and_true]
  simp_all
  grind

/-- A message that is ready and no repeat, with a header that passes, is ended by the first failing check of its opcode or executed. -/
theorem State.runMsg_of_head {s : State} {h : HalfId} {slot op : Nat} {f : Form} {chk : Half → Msg → List Chk}
    {act : State → Msg → Reply} (hr : (s.half h).msgReady slot op = true) (hp : ((s.half h).slot slot).isReplay = false)
    (hh : ∀ d ∈ (s.half h).headChecks slot ((s.half h).msg slot) f, d.bad = false) :
    s.runMsg h slot op f chk act =
      match worst (chk (s.half h) ((s.half h).msg slot)) with
      | some c => s.setHalf h ((s.half h).finishBad slot c)
      | none => match act s ((s.half h).msg slot) with
        | .done t st fields => t.mod h (fun y => y.finish slot st fields)
        | .fail t c => t.mod h (fun y => y.finishBad slot c)
        | .wait t => t.holdMsg h slot := by
  simp only [State.runMsg, hr, hp, if_true, Bool.false_eq_true, if_false, worst_append_of_pass hh, State.holdMsg] <;>
    (cases worst (chk (s.half h) ((s.half h).msg slot)) <;> first | rfl | (cases act s ((s.half h).msg slot) <;> rfl))

/-- What a message sent in its short form does. -/
theorem State.runMsg_sends {s : State} {h : HalfId} {slot op len : Nat} {f : Form} {chk : Half → Msg → List Chk}
    {act : State → Msg → Reply} (hs : (s.half h).sends slot op len = true) (hop : op ∈ opcodes) (hf : f.lens.contains len = true) :
    s.runMsg h slot op f chk act =
      match worst (chk (s.half h) ((s.half h).msg slot)) with
      | some c => s.setHalf h ((s.half h).finishBad slot c)
      | none => match act s ((s.half h).msg slot) with
        | .done t st fields => t.mod h (fun y => y.finish slot st fields)
        | .fail t c => t.mod h (fun y => y.finishBad slot c)
        | .wait t => t.holdMsg h slot := by
  exact State.runMsg_of_head (Half.sends_ready hs).1 (Half.sends_ready hs).2.1 (Half.sends_head hs hop hf)

/-- What a message sent in its long form does. -/
theorem State.runMsg_sendsLong {s : State} {h : HalfId} {slot op maxIn : Nat} {f : Form} {chk : Half → Msg → List Chk}
    {act : State → Msg → Reply} (hs : (s.half h).sendsLong slot op maxIn = true) (hop : op ∈ opcodes) (hl : f.long = true)
    (hm : f.maxIn = maxIn) :
    s.runMsg h slot op f chk act =
      match worst (chk (s.half h) ((s.half h).msg slot)) with
      | some c => s.setHalf h ((s.half h).finishBad slot c)
      | none => match act s ((s.half h).msg slot) with
        | .done t st fields => t.mod h (fun y => y.finish slot st fields)
        | .fail t c => t.mod h (fun y => y.finishBad slot c)
        | .wait t => t.holdMsg h slot := by
  exact State.runMsg_of_head (Half.sendsLong_ready hs).1 (Half.sendsLong_ready hs).2.1 (Half.sendsLong_head hs hop hl hm)

/-- A message sent in its short form that passes the checks of its opcode is executed. -/
theorem State.runMsg_short {s : State} {h : HalfId} {slot op len : Nat} {f : Form} {chk : Half → Msg → List Chk}
    {act : State → Msg → Reply} (hs : (s.half h).sends slot op len = true) (hop : op ∈ opcodes) (hf : f.lens.contains len = true)
    (hc : ∀ d ∈ chk (s.half h) ((s.half h).msg slot), d.bad = false) :
    s.runMsg h slot op f chk act =
      match act s ((s.half h).msg slot) with
      | .done t st fields => t.mod h (fun y => y.finish slot st fields)
      | .fail t c => t.mod h (fun y => y.finishBad slot c)
      | .wait t => t.holdMsg h slot := by
  rw [State.runMsg_sends hs hop hf, worst_eq_none.2 hc]

/-- A message sent in its long form that passes the checks of its opcode is executed. -/
theorem State.runMsg_long {s : State} {h : HalfId} {slot op maxIn : Nat} {f : Form} {chk : Half → Msg → List Chk}
    {act : State → Msg → Reply} (hs : (s.half h).sendsLong slot op maxIn = true) (hop : op ∈ opcodes) (hl : f.long = true)
    (hm : f.maxIn = maxIn) (hc : ∀ d ∈ chk (s.half h) ((s.half h).msg slot), d.bad = false) :
    s.runMsg h slot op f chk act =
      match act s ((s.half h).msg slot) with
      | .done t st fields => t.mod h (fun y => y.finish slot st fields)
      | .fail t c => t.mod h (fun y => y.finishBad slot c)
      | .wait t => t.holdMsg h slot := by
  rw [State.runMsg_sendsLong hs hop hl hm, worst_eq_none.2 hc]

/-- A message sent in its short form is not a long one, and names context 0 where its opcode works on none. -/
theorem Half.sends_short {x : Half} {slot op len : Nat} (h : x.sends slot op len = true) :
    msgLong (x.msg slot) = false ∧ msgLen (x.msg slot) = len ∧ (ctxOp op = false → msgCtx (x.msg slot) = 0) := by
  simp only [Half.sends, Bool.and_eq_true, Bool.not_eq_true', decide_eq_true_eq] at h
  refine ⟨by simp_all, by simp_all, fun hc => by simp_all⟩

/-- A message sent in its long form is a long one. -/
theorem Half.sendsLong_long {x : Half} {slot op maxIn : Nat} (h : x.sendsLong slot op maxIn = true) :
    msgLong (x.msg slot) = true ∧ msgLen (x.msg slot) = 0x18 := by
  simp only [Half.sendsLong, Bool.and_eq_true, Bool.not_eq_true', decide_eq_true_eq] at h
  exact ⟨by simp_all, by simp_all⟩

end Sys2Proof.Machine
end

