-- ==== Sys2Proof/Laws/Start.lean ====
section
/-! SUPPORT. What the shared start of a data command does: nothing while the scheduler does not take it, its end with the first failing
check, or its begin with the work of its unit. -/

namespace Sys2Proof.Machine

/-- A data command is the shared start with what is its own. -/
theorem exec_dataCmd {c : Instr} {k : Start} (h : dataCmd c = some k) (s : State) :
    exec c s = .next (k.finish s (fun x => x.start k.cmd k.unit k.op k.ok k.chk k.work)) := by
  cases c <;> simp only [dataCmd, Option.some.injEq, reduceCtorEq] at h <;> subst h <;>
    first
      | rfl
      | (simp only [Start.finish]; rfl)
      | (simp [Start.finish, State.mod, execGemm, tensorStart]; done)

/-- A command that is not in flight does not start. -/
theorem Half.start_none {x : Half} {n u op : Nat} {ok : Half → Cmd → Bool} {chk : Half → Cmd → List Chk}
    {work : Half → Cmd → Option Nat → Work} (h : x.cmd n = none) : x.start n u op ok chk work = x := by
  simp [Half.start, h]

/-- A command that the scheduler does not take stays as it is. -/
theorem Half.start_idle {x : Half} {c : Cmd} (k : Start) (hc : x.cmd k.cmd = some c) (h : k.starts x c = false) :
    x.start k.cmd k.unit k.op k.ok k.chk k.work = x := by
  simp only [Start.starts] at h
  simp [Half.start, hc, h]

/-- A command that fails a check ends with it, and an empty one commits an empty output. -/
theorem Half.start_fail {x : Half} {c : Cmd} {e : Chk} (k : Start) (hc : x.cmd k.cmd = some c) (h : k.starts x c = true)
    (he : worst (x.commonChecks c ++ k.chk x c) = some e) :
    x.start k.cmd k.unit k.op k.ok k.chk k.work =
      if e.st = stEmpty then
        (((x.served c).modCmd k.cmd (fun d => { d with st := .running, status := stEmpty, checked := true })).tryCommit k.cmd).settle
      else ((x.served c).failCmd c e).settle := by
  simp only [Start.starts] at h
  simp only [Half.start, hc, h, he, Bool.not_true, Bool.false_eq_true, if_false]

/-- A command that passes its checks, with an engine where it needs one, room for its staging, nothing uncorrectable in what it reads or
must merge and nothing wrong in its data, begins with the work of its unit. -/
theorem Half.start_begin {x : Half} {c : Cmd} (k : Start) (hc : x.cmd k.cmd = some c) (h : k.starts x c = true)
    (hw : worst (x.commonChecks c ++ k.chk x c) = none)
    (p : List Engine × Option Nat)
    (hp : p = if isEngine c = true then chooseEngine x.sched.engines (x.freeEngines c) 19 else (x.sched.engines, none))
    (he : isEngine c = true → p.2.isSome = true) (hr : x.stagingUsed + (k.work x c p.2).foot ≤ x.stagingPool)
    (hb : (({ x with sched := { x.sched with engines := p.1 } } : Half).firstBad c.ctx (k.work x c p.2).reads) = none)
    (hm : (({ x with sched := { x.sched with engines := p.1 } } : Half).partBad c.ctx
      (({ x with sched := { x.sched with engines := p.1 } } : Half).commitWrites c.ctx (k.work x c p.2).writes (k.work x c p.2).eff)) =
      none)
    (hf : (k.work x c p.2).fail = none) :
    x.start k.cmd k.unit k.op k.ok k.chk k.work =
      ((({ x with sched := { x.sched with engines := p.1 } } : Half).begin c p.2 (k.work x c p.2)).settle) := by
  simp only [Start.starts] at h
  have hn : (isEngine c && p.2.isNone) = false := by
    cases hi : isEngine c
    · rfl
    · have := he hi
      cases hq : p.2 <;> simp_all
  have hq : ¬ x.stagingPool < x.stagingUsed + (k.work x c p.2).foot := by omega
  simp only [Half.start, hc, h, hw, Bool.not_true, Bool.false_eq_true, if_false, ← hp, hn, hq, hb, hm, hf, Option.or_none]

end Sys2Proof.Machine
end

