-- ==== Sys2Proof/Tests/Slice0.lean ====
section
/-! SUPPORT. Tests of the model: for each statement with hypotheses a state and operands that meet them together; for each check of
WellFormed a command that it refuses; and a few worked examples of the spec. Expected values come from the spec's text. -/

namespace Sys2Proof.Tests
open Sys2Proof Sys2Proof.Machine

set_option Elab.async false

/-- A half that carries on work, with one client besides the system client and one context of it. -/
def tHalf (h : HalfId) : Half :=
  { me := h
    powx := { booted := true, ready := true }
    pow := { st := .run, domains := 0xFFFFFFFFFFFFFF }
    sched := { clients := [{ id := 0 }, { id := 1, maxCtx := 4, maxQ := 4 }], ctxs := [{ id := 1, client := 1 }]
               engines := (List.range 18).map (fun n => { num := n, st := if n = 8 ∨ n = 17 then .spare else .active }) }
    links := { recs := List.replicate 19 { st := .up } }
    tim := { running := true } }

/-- Both halves run. -/
def tState : State := { a := tHalf .a, b := tHalf .b, dev := { pwrOk := true, started := true } }

/-- A message in MBX_IN: opcode, client, context, payload length and payload. -/
def tMsg (op client ctx len pay : Nat) : BitVec 512 :=
  BitVec.ofNat 512 (op + 2 ^ 32 + len * 2 ^ 64 + ctx * 2 ^ 80 + client * 2 ^ 96 + pay * 2 ^ 128)

/-- The message stands ACKED in a slot of a half. -/
def tPost (h : HalfId) (slot : Nat) (m : BitVec 512) (s : State) : State :=
  s.mod h (fun x => x.modSlot slot (fun k => { k with st := .acked, inb := m, ownerValid := true, ownerClient := m.extractLsb' 96 8 }))

/-- Half A of `tState`, changed. -/
def tA (f : Half → Half) : State := { tState with a := f tState.a }

/-! ### Steps, mailboxes and messages -/

/-- StepRunsFrontCommand: a queue with a command in front. -/
theorem test_front : ({ tState with pending := [.messageAcknowledge .a] } : State).pending = .messageAcknowledge .a :: [] := by rfl

/-- StepKeepsMemoryCanonical, StepKeepsShape: a running state with bytes in DRAM has the invariants, and its step a next state. -/
theorem test_invariants : let s := { tA (fun x => { x with mem := { x.mem with cells := [(5, 1), (9, 2)] } }) with
      pending := [.messageAcknowledge .a] }
    s.canonical = true ∧ s.named = true ∧ s.shaped = true ∧ (∃ t, step s = .next t) :=
  ⟨by decide +kernel, by decide +kernel, by decide +kernel, ⟨_, rfl⟩⟩

/-- An entry of value zero, and addresses that fall, are not canonical. -/
theorem test_not_canonical : Memory.wf [(5, 0)] = false ∧ Memory.wf [(9, 1), (5, 1)] = false ∧ Memory.wf [(5, 1), (5, 1)] = false := by
  decide +kernel

/-- A slot with a state, owned by client 1. -/
def tSlot (h : HalfId) (slot : Nat) (st : SlotState) (s : State) : State :=
  s.mod h (fun x => x.modSlot slot (fun k => { k with st := st, ownerValid := true, ownerClient := 1 }))

/-- OwnerStoresFollowSlotTable: each state of a slot, at the first and last slot of the cores and of the tools. -/
theorem test_owner_hyps :
    (∀ ag ∈ [Agent.core 0 1, .pair 1, .tool 0x20], (tState.half .a).toolIgnored ag = false) ∧ (tState.half .a).alive = true ∧
    reaches (.core 0 1) 0 = true ∧ reaches (.core 0 1) 59 = true ∧ reaches (.core 0 1) 60 = false ∧ reaches (.tool 0x20) 59 = false ∧
    reaches (.tool 0x20) 60 = true ∧ reaches (.tool 0x20) 63 = true ∧ reaches (.tool 0x20) 64 = false ∧
    (∀ st ∈ [SlotState.free, .owned, .posted, .acked, .done], (((tSlot .a 59 st tState).half .a).slot 59).st = st) := by
  decide +kernel

/-- InboundWriteOnlyWhenOwnedOrDone: the last words of MBX_IN in an OWNED and in a DONE slot. -/
theorem test_inbound_hyps : 15 < (if false then 8 else 16) ∧ 7 < (if true then 8 else 16) ∧
    (∀ st ∈ [SlotState.owned, .done, .posted], let x := (tSlot .a 59 st tState).half .a
      x.alive = true ∧ x.toolIgnored (.core 0 1) = false ∧ (x.slot 59).st = st ∧ 59 < x.mbx.slots.length) := by
  decide +kernel

/-- CaptainTakesOldestMessage: two posted messages, the older one with IRQ_ACK. -/
theorem test_take_hyps : let x := ((tPost .a 3 (tMsg 0x0100 1 0 0 0 ||| 0x20000) tState).mod .a (fun x =>
        { x with mbx := { x.mbx with posted := [3, 0] } })).half .a
    x.captainRuns = true ∧ x.mbx.posted = 3 :: [0] ∧ 3 < x.mbx.slots.length ∧ msgOp (x.msg 3) ∈ opcodes ∧ msgIrqAck (x.msg 3) = true := by
  decide +kernel

/-- RepeatedAndDeniedMessagesAreNotExecuted: a repeat; a wrong client, a context of another client and a group that is not the
sender's. -/
theorem test_denied_hyps :
    (let x := ((tPost .a 3 (tMsg 0x0100 1 0 0 0) tState).mod .a (fun x => x.modSlot 3 (fun k =>
        { k with fromDone := true, outb := tMsg 0x0100 1 0 0 0 }))).half .a;
      x.msgReady 3 0x0100 = true ∧ (x.slot 3).isReplay = true ∧ (x.slot 3).freeOnDone = false) ∧
    (let x := ((tPost .a 3 (tMsg 0x0100 1 0 0 0) tState).mod .a (fun x => x.modSlot 3 (fun k => { k with ownerClient := 2 }))).half .a;
      x.msgReady 3 0x0100 = true ∧ (x.slot 3).isReplay = false ∧ msgClient (x.msg 3) ≠ (x.slot 3).ownerClient.toNat) ∧
    (let x := (tPost .a 3 (tMsg 0x0204 0 1 0 0) tState).half .a;
      x.msgReady 3 0x0204 = true ∧ (x.slot 3).isReplay = false ∧ ctxOp 0x0204 = true ∧ x.ownsCtx (msgClient (x.msg 3)) (msgCtx (x.msg 3)) = false) ∧
    (let x := (tPost .a 3 (tMsg 0x0702 1 0 2 100) tState).half .a;
      x.msgReady 3 0x0702 = true ∧ (x.slot 3).isReplay = false ∧ x.senderOk 3 (msgClient (x.msg 3)) 0x0702 = false) ∧
    msgCmd (.sysNop .a 3) = some (.a, 3, 0x0100) ∧ msgCmd (.ctxDestroy .a 3) = some (.a, 3, 0x0204) ∧
    msgCmd (.pwrCapSet .a 3) = some (.a, 3, 0x0702) := by
  decide +kernel

/-- MessagesEndWithHeaderAndFirstStatus: a slot whose owner stays and one whose owner was released; checks of which two fail. -/
theorem test_end_hyps : 63 < tState.a.mbx.slots.length ∧ (tState.a.slot 63).freeOnDone = false ∧
    ((tState.a.modSlot 63 (fun k => { k with freeOnDone := true })).slot 63).freeOnDone = true ∧
    worst [{ bad := true, st := stLimit, off := 0x12 }, { bad := false, st := stDenied }, { bad := true, st := stMalformed, off := 0x11 },
      { bad := true, st := stMalformed, off := 0x10 }] = some { bad := true, st := stMalformed, off := 0x10 } := by
  decide +kernel

/-! ### System messages, clients, contexts and queues -/

/-- One mapped page of context 1, at page 2. -/
def tMap (s : State) : State := s.mod .a (fun x => { x with mem := { x.mem with tpt := [{ ctx := 1, page := 2, dest := .frame 0 600 }] } })

/-- Context 1 with queue 7 on page 2: command ring at +0, completion ring at +0x1000, header at +0x2000. -/
def tQueue (s : State) : State := (tMap s).mod .a (fun x => { x with sched := { x.sched with
  queues := [{ id := 7, ctx := 1, cmdRing := 0x100000, cplRing := 0x101000, header := 0x102000 }] } })

/-- SystemAndClientMessagesComplete: a message for each clause, the payloads at the ends of their ranges. -/
theorem test_system_hyps :
    (∀ p ∈ [(0x0100, 0), (0x0101, 0), (0x0102, 0)], ((tPost .a 63 (tMsg p.1 0 0 p.2 0) tState).half .a).sends 63 p.1 p.2 = true) ∧
    (let m := tMsg 0x0201 0 0 8 (4095 + 524288 * 2 ^ 32);
      ((tPost .a 0 m tState).half .a).sends 0 0x0201 8 = true ∧ payBits m 2 0 16 = 0 ∧ pay m 0 16 = 4095 ∧ pay m 4 32 = 524288 ∧
        tState.a.sched.clients.length < 256) ∧
    (let m := tMsg 0x0203 1 0 8 3;
      let x := (tPost .a 0 m tState).half .a;
      x.sends 0 0x0203 8 = true ∧ payBits m 0 2 6 = 0 ∧ payBits m 1 0 56 = 0 ∧ payBits m 0 0 2 ≠ 0 ∧ payBits m 0 0 2 ≠ 1 ∧
        x.client 1 = some { id := 1, maxCtx := 4, maxQ := 4 } ∧ x.ctxCount 1 < 4 ∧ x.sched.ctxs.length < 4096) ∧
    (let m := tMsg 0x0203 1 0 8 0;
      let x := ((tPost .a 0 m tState).mod .a (fun x => { x with cfg := { x.cfg with chainClients := [1] } })).half .a;
      x.sends 0 0x0203 8 = true ∧ payBits m 0 0 2 = 0 ∧ msgClient m ∈ x.cfg.chainClients ∧ x.ctxCount 1 < 4) ∧
    (let m := tMsg 0x0205 1 1 0x20 (0x100000 + 0x101000 * 2 ^ 64 + 0x102000 * 2 ^ 128 + 4 * 2 ^ 192);
      let x := (tPost .a 0 m (tMap tState)).half .a;
      x.sends 0 0x0205 0x20 = true ∧ payBits m 0x19 0 56 = 0 ∧ pay m 0x18 8 = 4 ∧ pay m 0 64 = 0x100000 ∧ pay m 0 64 < vaLimit ∧
        pay m 0 64 % 4096 = 0 ∧ x.mappedPlain (msgCtx m) (pay m 0 64) (2 ^ pay m 0x18 8 * 128) = true ∧ pay m 8 64 < vaLimit ∧
        pay m 8 64 % 4096 = 0 ∧ x.writable (msgCtx m) (pay m 8 64) (2 ^ pay m 0x18 8 * 32) = true ∧ pay m 0x10 64 < vaLimit ∧
        pay m 0x10 64 % 64 = 0 ∧ x.writable (msgCtx m) (pay m 0x10 64) 64 = true ∧ x.queueCount 1 < 4 ∧ x.sched.queues.length < 524288) ∧
    (let m := tMsg 0x0207 1 1 8 (7 + 0x1E * 2 ^ 32);
      let x := (tPost .a 0 m (tQueue tState)).half .a;
      x.sends 0 0x0207 8 = true ∧ payBits m 0 19 13 = 0 ∧ payBits m 6 0 16 = 0 ∧ pay m 4 16 / 16 = msgClient m ∧ pay m 4 16 % 16 ≠ 15 ∧
        (x.queueOf m).any (fun q => q.doorbell.isNone) = true ∧ (∀ q ∈ x.sched.queues, q.doorbell ≠ some (pay m 4 16))) ∧
    (let m := tMsg 0x020A 1 0 1 1;
      let x := (tPost .a 0 m tState).half .a;
      x.sends 0 0x020A 1 = true ∧ pay m 0 8 = msgClient m ∧ (x.client (pay m 0 8)).isSome = true) := by
  decide +kernel

/-- TeardownMessagesComplete. -/
theorem test_teardown_hyps :
    (let m := tMsg 0x0206 1 1 4 7;
      let x := (tPost .a 0 m (tQueue tState)).half .a;
      x.sends 0 0x0206 4 = true ∧ payBits m 0 19 13 = 0 ∧ (x.queueOf m).isSome = true) ∧
    (let m := tMsg 0x0204 1 1 0 0;
      ((tPost .a 0 m tState).half .a).sends 0 0x0204 0 = true ∧ msgCtx m ≠ 0) ∧
    (let m := tMsg 0x0202 0 0 1 1;
      ((tPost .a 0 m tState).half .a).sends 0 0x0202 1 = true ∧ pay m 0 8 ≠ 0 ∧
        (((tPost .a 0 m tState).half .a).client (pay m 0 8)).isSome = true) := by
  decide +kernel

/-- DoorbellAdvancesTail: a direct doorbell, a shared one, a store to another client's page and one of a tool; a store that fills the
ring, one of an advance of zero and one beyond the ring. -/
theorem test_doorbell_hyps :
    (tState.half .a).alive = true ∧ (tState.half .a).agentClient (.core 0 1) = some (0x1E / 16) ∧
    (tState.half .a).agentClient (.core 0 1) ≠ some (0x2E / 16) ∧
    (((tQueue tState).half .a).sched.queues.find? (fun k => k.doorbell = some 0x1F) = none ∧
      (((tQueue tState).half .a).sched.queues.find? (fun k =>
        k.id = fld (BitVec.ofNat 64 (7 + 16 * 2 ^ 32)) 0 19 && k.doorbell.isNone && ((tQueue tState).half .a).ctxClient k.ctx = 1)).isSome = true) ∧
    (((tQueue tState).half .a).sched.queues.map (fun q => ({ q with doorbell := some 0x1E } : Queue))).find? (fun k => k.doorbell = some 0x1E) =
      some { id := 7, ctx := 1, cmdRing := 0x100000, cplRing := 0x101000, header := 0x102000, doorbell := some 0x1E } ∧
    (BitVec.ofNat 64 (7 + 16 * 2 ^ 32)).extractLsb' 32 32 = 16#32 ∧ (16#32 - 0#32).toNat ≤ 2 ^ 4 ∧ ¬ (17#32 - 0#32).toNat ≤ 2 ^ 4 := by
  decide +kernel

/-- FetchTakesNextDescriptor: an empty queue, one with a command and room, and one whose completion ring is full. -/
theorem test_fetch_hyps :
    (((tQueue tState).half .a).queue 7).any (fun q => q.cmdHead = q.tail) = true ∧
    (let x := ((tQueue tState).mod .a (fun x => x.modQueue 7 (fun q => { q with tail := 1 }))).half .a;
      x.alive = true ∧ x.powx.draining = false ∧ (x.queue 7).any (fun q => q.cmdHead ≠ q.tail) = true ∧
        (x.queue 7).any (fun q => ((x.readCplHead q).queue 7).any (·.canFetch)) = true ∧
        (x.advanceHead ((x.queue 7).getD {})).firstBad 1 [(0x100000, 128)] = none) ∧
    (let x := ((tQueue tState).mod .a (fun x => x.modQueue 7 (fun q => { q with cmdHead := 16, tail := 17 }))).half .a;
      (x.queue 7).any (fun q => q.cmdHead ≠ q.tail) = true ∧
        (x.queue 7).any (fun q => ((x.readCplHead q).queue 7).any (fun k => !k.canFetch)) = true) := by
  decide +kernel

/-! ### Memory and the links' copies -/

/-- PageAndMapOutMessagesComplete: a NEW page in the short form, an unmapping of it, and a map-out that is already so and one that is
not. -/
theorem test_pages_hyps :
    (let m := tMsg 0x0208 1 1 0x20 (0x200000 + 1 * 2 ^ 64);
      let x := (tPost .a 0 m tState).half .a;
      x.sends 0 0x0208 0x20 = true ∧ worst (listChecks m (x.mapRecords m) ++ (x.mapRecords m).flatMap (x.mapChecks (msgLong m) (msgCtx m)
        (msgClient m)) ++ overlapChk (msgLong m) (x.mapRecords m) ++ [x.mapBusy (msgCtx m) (x.mapRecords m)]) = none) ∧
    (let m := tMsg 0x0209 1 1 0x20 (0x100000 + 1 * 2 ^ 64);
      let x := (tPost .a 0 m (tMap tState)).half .a;
      x.sends 0 0x0209 0x20 = true ∧ worst (listChecks m (x.mapRecords m) ++ (x.mapRecords m).flatMap (x.unmapChecks (msgLong m) (msgCtx m)) ++
        overlapChk (msgLong m) (x.mapRecords m)) = none) ∧
    (let m := tMsg 0x0404 0 0 3 (5 * 2 ^ 8);
      let x := ((tPost .a 0 m tState).mod .a (fun x => { x with mem := { x.mem with slicesOut := [5] }, cfg := { x.cfg with mode := 3 } })).half .a;
      x.sends 0 0x0404 3 = true ∧ worst (mapOutChecks x m) = none ∧ pay m 0 8 = 0 ∧ decide (pay m 1 8 ∈ x.mem.slicesOut) = decide (pay m 2 8 = 0)) ∧
    (let m := tMsg 0x0404 0 0 3 (1 + 63 * 2 ^ 8);
      let x := ((tPost .a 0 m tState).mod .a (fun x => { x with cfg := { x.cfg with mode := 3 } })).half .a;
      x.sends 0 0x0404 3 = true ∧ worst (mapOutChecks x m) = none ∧ pay m 0 8 = 1 ∧ pay m 2 8 ≤ 1 ∧
        decide (pay m 1 8 ∈ x.mem.pcsOut) = decide (pay m 2 8 = 1)) := by
  decide +kernel

/-- NewPageReadsZero: the first page of a record in an empty half. -/
theorem test_new_page_hyps :
    let r : BitVec 256 := BitVec.ofNat 256 (0x200000 + 1 * 2 ^ 64);
    let x := tState.half .a;
    Memory.wf x.mem.cells = true ∧ recKind r ≠ 1 ∧ recSync r = false ∧ recStackOf r 0 < 2 ∧
      lowestFree (x.usedFrames (recStackOf r 0) ++ x.usedFrames (recStackOf r 0)) reservedFrames
        ((x.usedFrames (recStackOf r 0) ++ x.usedFrames (recStackOf r 0)).length + 1) = some 512 ∧ 512 < stackFrames := by
  decide +kernel

/-- A command of context 1 in flight. -/
def tCmd (n : Nat) (desc : Nat) (f : Cmd → Cmd) (s : State) : State := s.mod .a (fun x => { x with sched := { x.sched with
  cmds := x.sched.cmds ++ [f { id := n, queue := 7, ctx := 1, client := 1, desc := BitVec.ofNat 1024 desc }] } })

/-- IntegrityEventsComplete: a running command that reads a mapped block, an entry of the health list, a staged line and a move. -/
theorem test_integrity_hyps :
    (let x := (tCmd 3 0x0901 (fun c => { c with st := .running, reads := [(0x100000, 64)] }) (tMap tState)).half .a;
      (x.cmd 3).any (fun c => (x.blockAt c.ctx 0x100000).isSome && c.st ≠ .waiting && c.readsBlock 0x100000) = true) ∧
    (({ (tState.half .a) with mem := { health := [{ stack := 1, frame := 600, block := 8191, written := true }] } } : Half).readBackDue
      1 600 8191 = true) ∧
    (tState.half .a).pow.st ≠ .hibernate ∧ 17 < (tState.half .a).sched.engines.length ∧
    ({ stack := 1, old := 600, new := 601 } : Move).stack < 2 := by
  decide +kernel

/-- RemoteArrivalsAreServed: a copy, a signal and an answer wait on the Handoff link behind a heartbeat. -/
theorem test_remote_hyps : (tState.half .a).alive = true ∧ (tState.half .a).handoffUp = true ∧
    (∀ m ∈ [LinkMsg.copy 1 1 0 [(0, [1])], .signal 1 1 1023 5, .answer 1 stOk 0], ({ (tState.half .b).links with
      outbox := [.heartbeat, m] } : Links).outbox = [.heartbeat] ++ m :: []) ∧
    (∀ a b c d, LinkMsg.copy a b c d ∉ [LinkMsg.heartbeat]) ∧ (∀ a b c d, LinkMsg.signal a b c d ∉ [LinkMsg.heartbeat]) ∧
    (∀ a b c, LinkMsg.answer a b c ∉ [LinkMsg.heartbeat]) :=
  ⟨by decide +kernel, by decide +kernel, by decide +kernel, by simp, by simp, by simp⟩

/-- FarCopyFollowsOutcomeTable: no window; a window of another source; rows beyond it and rows that end with it. -/
theorem test_far_copy_hyps :
    let x : Half := { (tMap tState).half .a with mem := { ((tMap tState).half .a).mem with windows := [{ num := 255, ctx := 1, va := 0x100000, bytes := 64, src := 2 }] } };
    x.tetherRefused false = false ∧ x.mem.windows.find? (fun w => w.num = 0) = none ∧ (x.mem.windows.find? (fun w => w.num = 255)).isSome = true ∧
      (∃ r ∈ [(60, [1, 2, 3, (4 : Byte), 5])], 64 < r.1 + r.2.length) ∧ (∀ r ∈ [(60, [1, 2, 3, (4 : Byte)])], r.1 + r.2.length ≤ 64) ∧
      x.stagingUsed + 4 ≤ x.stagingPool ∧ x.partBad 1 [(0x10003C, 1)] = none := by
  decide +kernel

/-- CommittedBytesAreRead and CopyMovesRows: a canonical memory with a mapped byte; a copy of two rows of three bytes. -/
theorem test_commit_hyps : Memory.wf ((tMap tState).half .a).mem.cells = true ∧ ((tMap tState).half .a).phys 1 0x17FFFF = some (physAddr 0 600 0x7FFFF) ∧
    1 < df (BitVec.ofNat 1024 (2 * 2 ^ (8 * 0x34) + 3 * 2 ^ (8 * 0x30))) 0x34 32 ∧
    2 < df (BitVec.ofNat 1024 (2 * 2 ^ (8 * 0x34) + 3 * 2 ^ (8 * 0x30))) 0x30 32 := by
  decide +kernel


/-- IntegrityEventsComplete: HIBERNATE; a staged line of a running command; a dirty line in its slice. FarCopyFollowsOutcomeTable: a
quarantined Tether peer; no staging left; an inbound slot that is missing, of another source, on a full word and on an empty one. -/
theorem test_integrity_more :
    ({ (tState.half .a) with pow := { st := .hibernate } } : Half).pow.st = .hibernate ∧
    ((tCmd 3 0x0901 (fun c => { c with st := .staged }) (tMap tState)).half .a).cmd 3 ≠ none ∧
    (let x := (tMap tState).half .a;
      x.blockAt 1 0x10003F = some (0, 600, 0) ∧
      ({ x with mem := { x.mem with cache := [{ slice := 11, block := physAddr 0 600 0 / 64, dirty := true }] } } : Half).dirtyIn 11 0 600 0 = true) ∧
    ({ (tState.half .a) with ptn := { entries := List.replicate 12 { st := .quarantined } } } : Half).tetherRefused true = true ∧
    (tState.half .a).stagingPool < (tState.half .a).stagingUsed + (tState.half .a).stagingPool + 1 ∧
    (let x : Half := { (tQueue tState).half .a with mem := { ((tQueue tState).half .a).mem with
        tpt := [{ ctx := 1, page := 2, dest := .sync 15 }]
        inbound := [{ num := 0, ctx := 1, target := .word 0x100000, src := 2 }, { num := 1023, ctx := 1, target := .word 0x100040, src := 1, tether := true }]
        sync := [{ page := 15, word := 0, full := true }] } };
      x.mem.inbound.find? (fun i => i.num = 5) = none ∧ (x.mem.inbound.find? (fun i => i.num = 0)).any (fun i => i.src ≠ 1 && !i.tether) = true ∧
        (x.wordAt 1 0x100000).full = true ∧ (x.wordAt 1 0x100040).full = false) := by
  decide +kernel

/-- RemoteArrivalsAreServed: a BULK copy behind nothing but BULK frames, an admitted Tether peer, and a command that crosses the Tether. -/
theorem test_remote_more :
    (∀ b ∈ [LinkMsg.bridge 0 []], (tState.half .b).isSafety b = false) ∧
    ({ (tState.half .a) with ptn := { admitted := true } } : Half).alive = true ∧
    (((tCmd 3 (0x0109 + 2 ^ (8 * 0x3D)) id tState).half .a).cmd 3).any (fun c => dTether c.desc) = true := by
  decide +kernel

/-! ### Data commands -/

/-- The model's address of a byte of page 2, 4 or 5 of context 1. -/
def tPhys (va : Nat) : Nat :=
  physAddr (if va < 0x280000 then 0 else 1) (if va < 0x180000 then 600 else if va < 0x280000 then 601 else 602) (va % pageBytes)

/-- Context 1 with pages 2, 4 and 5 in frames and page 3 a sync page; numbers (address, bytes, value), by rising address, in memory. -/
def tMem (l : List (Nat × Nat × Nat)) (s : State) : State := s.mod .a (fun x => { x with mem := { x.mem with
  tpt := [{ ctx := 1, page := 2, dest := .frame 0 600 }, { ctx := 1, page := 3, dest := .sync 0 },
    { ctx := 1, page := 4, dest := .frame 0 601 }, { ctx := 1, page := 5, dest := .frame 1 602 }]
  cells := l.flatMap (fun p => ((leBytes p.2.1 p.2.2).zipIdx.filter (fun b => b.1 ≠ 0)).map (fun b => (tPhys p.1 + b.2, b.1))) } })

/-- A tensor descriptor (spec/04_tensor_engines.md, Table — Tensor descriptor) at an address: base, format, layout, OUT_CTRL and the
extents with their strides. -/
def tTensor (va base fmt layout out : Nat) (dims : List (Nat × Nat)) : Nat × Nat × Nat :=
  (va, 64, (dims.zipIdx.map (fun d => (d.1.1 + d.1.2 * 2 ^ 32) * 2 ^ (128 + 64 * d.2))).foldl (· + ·)
    (base + fmt * 2 ^ 48 + layout * 2 ^ 56 + dims.length * 2 ^ 64 + out * 2 ^ 72))

/-- A command descriptor: unit, operation and fields of the body (offset, value). -/
def tDesc (unit op : Nat) (fs : List (Nat × Nat)) : Nat :=
  (fs.map (fun f => f.2 * 2 ^ (8 * f.1))).foldl (· + ·) (op + unit * 256)

/-- Command 3 with this descriptor is in flight. -/
def tGo (unit op : Nat) (fs : List (Nat × Nat)) (s : State) : State := tCmd 3 (tDesc unit op fs) (fun c => c) s

/-- DataCommandsBegin: all of its hypotheses together. -/
def tBegins (c : Instr) (s : State) : Bool :=
  match dataCmd c with
  | none => false
  | some k =>
    let x := k.pre (s.half k.half)
    match x.cmd k.cmd with
    | none => false
    | some cm =>
      let p := if isEngine cm = true then chooseEngine x.sched.engines (x.freeEngines cm) 19 else (x.sched.engines, none)
      let w := k.work x cm p.2
      let y : Half := { x with sched := { x.sched with engines := p.1 } }
      k.starts x cm && decide (worst (x.commonChecks cm ++ k.chk x cm) = none) && (!isEngine cm || p.2.isSome) &&
        decide (x.stagingUsed + w.foot ≤ x.stagingPool) && decide (y.firstBad cm.ctx w.reads = none) &&
        decide (y.partBad cm.ctx (y.commitWrites cm.ctx w.writes w.eff) = none) && decide (w.fail = none)

/-- FP32 1.0. -/
def tOne : Nat := 0x3F800000

/-- Tensors: a BF16 pair at 0x110000 in two shapes and an FP32 output. -/
def tTensors : State → State := tMem [tTensor 0x100000 0x110000 0x10 0 0 [(2, 1), (1, 2)],
  tTensor 0x100040 0x110100 0x10 0 0 [(2, 1), (1, 2)], tTensor 0x1000C0 0x200000 0x14 0 0 [(1, 1), (1, 1)],
  tTensor 0x100100 0x200000 0x14 0 0 [(2, 1), (1, 2)]]

/-- DataCommandsBegin, unit 0x01. -/
theorem test_begin_tensor :
    tBegins (.gemm .a 3) (tGo 1 0x01 [(0x20, 0x100000), (0x28, 0x100040), (0x38, 0x1000C0), (0x48, tOne)] (tTensors tState)) = true ∧
    tBegins (.elementwise .a 3) (tGo 1 0x10 [(0x20, 0x100000), (0x28, 0x100040), (0x38, 0x100100), (0x44, 1), (0x48, tOne)] (tTensors tState)) = true ∧
    tBegins (.reduce .a 3) (tGo 1 0x11 [(0x20, 0x100000), (0x38, 0x1000C0), (0x44, 1)] (tTensors tState)) = true ∧
    tBegins (.norm .a 3) (tGo 1 0x12 [(0x20, 0x100000), (0x38, 0x100100), (0x44, 1)] (tTensors tState)) = true ∧
    tBegins (.softmax .a 3) (tGo 1 0x13 [(0x20, 0x100000), (0x38, 0x100100), (0x50, tOne)] (tTensors tState)) = true ∧
    tBegins (.convert .a 3) (tGo 1 0x20 [(0x20, 0x100000), (0x38, 0x100100)] (tTensors tState)) = true := by
  decide +kernel

/-- A one-pixel image of one channel in BF16, weights of one element and an FP32 image for the output. -/
def tImages : State → State := tMem [tTensor 0x100000 0x110000 0x10 1 0 [(1, 16), (1, 16), (1, 16), (1, 16)],
  tTensor 0x100040 0x110100 0x10 0 0 [(1, 1), (1, 1), (1, 1)], tTensor 0x1000C0 0x200000 0x14 1 0 [(1, 16), (1, 16), (1, 16), (1, 16)]]

/-- DataCommandsBegin, unit 0x02. -/
theorem test_begin_conv :
    tBegins (.conv .a 3) (tGo 2 0x01 [(0x20, 0x100000), (0x28, 0x100040), (0x38, 0x1000C0), (0x4E, 1), (0x4F, 1), (0x50, 1), (0x51, 1),
      (0x58, 1), (0x60, tOne)] (tImages tState)) = true ∧
    tBegins (.poolMax .a 3) (tGo 2 0x10 [(0x20, 0x100000), (0x38, 0x1000C0), (0x4E, 1), (0x4F, 1), (0x50, 1), (0x51, 1)] (tImages tState)) = true ∧
    tBegins (.poolAvg .a 3) (tGo 2 0x11 [(0x20, 0x100000), (0x38, 0x1000C0), (0x4E, 1), (0x4F, 1), (0x50, 1), (0x51, 1)] (tImages tState)) = true := by
  decide +kernel

/-- A pool of two pages at 0x100200 (d = 32, BF16 keys and values), with its arrays in page 5. -/
def tPoolDesc : Nat × Nat × Nat := (0x100200, 64, 0x280000 + 0x290000 * 2 ^ 64 + 0x2A0000 * 2 ^ 128 + 0x2B0000 * 2 ^ 192 +
  2 * 2 ^ 256 + 32 * 2 ^ 288 + 0x10 * 2 ^ 304 + 0x10 * 2 ^ 312)

/-- A sequence of the pool at 0x100240, its page list at 0x100300. -/
def tSeqRec : Nat := 0x100200 + 0x100300 * 2 ^ 64 + 4 * 2 ^ 128 + 9 * 2 ^ 160 + tOne * 2 ^ 352

/-- Keys and values of one token. -/
def tKeys : List (Nat × Nat × Nat) := [tTensor 0x100000 0x110000 0x10 0 0 [(32, 1), (1, 32)], tTensor 0x100040 0x110100 0x10 0 0 [(32, 1), (1, 32)]]

/-- Queries and outputs of attention. -/
def tAtt : List (Nat × Nat × Nat) := [tTensor 0x100080 0x110200 0x10 0 0 [(32, 1), (1, 32), (1, 32)],
  tTensor 0x1000C0 0x200000 0x14 0 0 [(32, 1), (1, 32), (1, 32)]]

/-- The pool is registered with a number of free pages. -/
def tReg (free : Nat) (s : State) : State := s.mod .a (fun x => { x with sched := { x.sched with
  pools := [{ (x.poolDesc 1 0x100200) with free := free }] } })

/-- The sequence has page 0 with one live token at position 0. -/
def tSeq (s : State) : State := tReg 1 (tMem (tAtt ++ [tPoolDesc, (0x100240, 64, tSeqRec + 1 * 2 ^ 192 + 1 * 2 ^ 224 + 1 * 2 ^ 256),
  (0x280000, 65, 1 + 9 * 2 ^ 128 + 1 * 2 ^ 192), (0x2B0000, 8, 1)]) s)

/-- DataCommandsBegin, unit 0x03. -/
theorem test_begin_kv :
    tBegins (.kvPoolInit .a 3) (tGo 3 0x01 [(0x20, 0x100200)] (tMem [tPoolDesc] tState)) = true ∧
    tBegins (.kvPoolDestroy .a 3) (tGo 3 0x02 [(0x20, 0x100200)] (tReg 2 (tMem [tPoolDesc] tState))) = true ∧
    tBegins (.kvAppend .a 3) (tGo 3 0x10 [(0x20, 0x100240), (0x28, 0x100000), (0x30, 0x100040)] (tReg 2 (tMem (tKeys ++ [tPoolDesc, (0x100240, 64, tSeqRec)]) tState))) = true ∧
    tBegins (.kvPin .a 3) (tGo 3 0x11 [(0x20, 0x100240), (0x68, 1), (0x74, 8)] (tSeq tState)) = true ∧
    tBegins (.kvEvict .a 3) (tGo 3 0x12 [(0x20, 0x100240)] (tSeq tState)) = true ∧
    tBegins (.kvCompact .a 3) (tGo 3 0x13 [(0x20, 0x100240), (0x68, 1)] (tSeq tState)) = true ∧
    tBegins (.kvRelease .a 3) (tGo 3 0x14 [(0x20, 0x100240)] (tSeq tState)) = true ∧
    tBegins (.attend .a 3) (tGo 3 0x20 [(0x20, 0x100240), (0x28, 0x100080), (0x40, 0x1000C0), (0x5C, tOne)] (tSeq tState)) = true := by
  decide +kernel

/-- A table of two rows of four BF16 elements, an index stream of one index, bag offsets of one bag and an output row. -/
def tTable : State → State := tMem [tTensor 0x100000 0x110000 0x10 4 0 [(4, 1), (2, 4)], tTensor 0x100040 0x110200 0x18 0 0 [(1, 1)],
  tTensor 0x100080 0x110300 0x18 0 0 [(2, 1)], tTensor 0x1000C0 0x200000 0x14 0 0 [(4, 1), (1, 4)], (0x110304, 4, 1)]

/-- DataCommandsBegin, unit 0x04. -/
theorem test_begin_gather :
    tBegins (.gather .a 3) (tGo 4 0x01 [(0x20, 0x100000), (0x28, 0x100040), (0x40, 0x1000C0)] (tTable tState)) = true ∧
    (∀ c ∈ [(Instr.bagSum .a 3, 0x02), (.bagMean .a 3, 0x03), (.bagMax .a 3, 0x04)],
      tBegins c.1 (tGo 4 c.2 [(0x20, 0x100000), (0x28, 0x100040), (0x30, 0x100080), (0x40, 0x1000C0)] (tTable tState)) = true) ∧
    tBegins (.hotLoad .a 3) (tGo 4 0x10 [(0x20, 0x100000), (0x28, 0x100040)] (tTable tState)) = true := by
  decide +kernel

/-- Half A with an input pipeline. -/
def tPipe (f : Pipe → Pipe) (s : State) : State := s.mod .a (fun x => x.modPipe f)

/-- Client 1 is the decode service of half A. -/
def tDec (s : State) : State := s.mod .a (fun x => { x with cfg := { x.cfg with decClients := [1] } })

/-- A service with one outstanding request, and its batch. -/
def tService (s : State) : State := tPipe (fun p => { p with
  swdec := some { ctx := 1, slotBytes := 4096, reqs := [{ entry := 2, cmd := 5, slot := 0, deadline := 10 }] }
  batches := [{ cmd := 5, slots := [{ place := .swPosted, sw := true, kind := 0x10 }] }] }) s

/-- One raw sample of a 4 by 4 image, of which one pixel is output, its parameters with a scale of 1.0, and a blocked output. -/
def tBatch : State → State := tMem [(0x100000, 192, 1 + 1 * 2 ^ 16 + 0x110000 * 2 ^ 64 + 16 * 2 ^ 128 + 4 * 2 ^ 160 + 4 * 2 ^ 176),
  (0x100100, 128, tOne + tOne * 2 ^ (8 * 0x60)), tTensor 0x100180 0x200000 0x14 1 0 [(1, 16), (1, 16), (1, 16), (1, 16)]]

/-- DataCommandsBegin, unit 0x05. -/
theorem test_begin_pipeline :
    tBegins (.ingestBind .a 3) (tGo 5 0x01 [(0x20, 0x280000), (0x28, 0x290000), (0x38, 65536), (0x41, 4), (0x42, 0x2A * 16)] (tMem [] tState)) = true ∧
    tBegins (.ingestUnbind .a 3) (tGo 5 0x02 [(0x20, 63)] (tPipe (fun p => { p with bindings := [{ num := 63, ctx := 1 }] }) tState)) = true ∧
    tBegins (.batch .a 3) (tGo 5 0x10 [(0x20, 0x100000), (0x28, 0x100100), (0x30, 0x100180), (0x38, 0x210000), (0x40, 0x210100),
      (0x48, 0x210200), (0x50, 1)] (tBatch tState)) = true ∧
    tBegins (.swdecAttach .a 3) (tGo 5 0x20 [(0x20, 0x280000), (0x28, 0x290000), (0x30, 4096), (0x34, 4)] (tDec (tMem [] tState))) = true ∧
    tBegins (.swdecReturn .a 3) (tGo 5 0x21 [(0x20, 2)] (tService (tDec tState))) = true ∧
    tBegins (.swdecDetach .a 3) (tGo 5 0x22 [] (tService (tDec tState))) = true := by
  decide +kernel

/-- A fusion session of one camera without a grid step behind it. -/
def tFuse (s : State) : State := s.mod .a (fun x => { x with sched := { x.sched with fusion := some {
  ctx := 1, param := leBytes 128 (1 * 2 ^ 144), gridVa := 0x280000, gridW := 64, gridH := 64, cellMm := 50 } } })

/-- The parameters of a session with one camera. -/
def tFuseParam : Nat × Nat × Nat := (0x100000, 128, tOne + tOne * 2 ^ 32 + 1 * 2 ^ 96 + 10 * 2 ^ 112 + 1 * 2 ^ 128 + 1 * 2 ^ 136 +
  1 * 2 ^ 144 + tOne * 2 ^ 160 + 0xBF800000 * 2 ^ 192 + tOne * 2 ^ (8 * 0x50))

/-- DataCommandsBegin, unit 0x06: the smallest grid, and an object list that saw nothing. -/
theorem test_begin_fusion :
    tBegins (.fuseOpen .a 3) (tGo 6 0x01 [(0x20, 0x100000), (0x28, 0x280000), (0x30, 64), (0x32, 64), (0x34, 50)] (tMem [tFuseParam] tState)) = true ∧
    tBegins (.fuseClose .a 3) (tGo 6 0x02 [] (tFuse (tMem [] tState))) = true ∧
    tBegins (.fuseStep .a 3) (tGo 6 0x10 [(0x20, 0x100000), (0x30, 0x200000), (0x48, 1)] (tFuse (tMem [(0x100000, 8, 0x110000)] tState))) = true := by
  decide +kernel

/-- Planning parameters at the low ends of their ranges: every value above 0 is 1.0, the horizon 1,000 ms, the slice 20 ms. -/
def tPlanParam : Nat := ([0, 1, 4, 5, 6, 7, 8, 9].map (fun k => tOne * 2 ^ (32 * k))).foldl (· + ·)
  (1000 * 2 ^ (8 * 0x3C) + 20 * 2 ^ (8 * 0x3E) + 1 * 2 ^ (8 * 0x40) + 1 * 2 ^ (8 * 0x41) + 1 * 2 ^ (8 * 0x42))

/-- A planning session. -/
def tPlan (s : State) : State := s.mod .a (fun x => { x with sched := { x.sched with plan := some {
  ctx := 1, param := BitVec.ofNat 1024 tPlanParam, gridVa := 0x280000 } } })

/-- DataCommandsBegin, unit 0x07: one route point and the closest spacing. -/
theorem test_begin_plan :
    tBegins (.planOpen .a 3) (tGo 7 0x01 [(0x20, 0x100000), (0x28, 0x280000)] (tMem [(0x100000, 128, tPlanParam)] tState)) = true ∧
    tBegins (.planClose .a 3) (tGo 7 0x02 [] (tPlan tState)) = true ∧
    tBegins (.planStep .a 3) (tGo 7 0x10 [(0x20, 0x110000), (0x28, 0x100000), (0x30, 0x200000), (0x44, 1), (0x46, 10)] (tPlan (tMem [] tState))) = true := by
  decide +kernel

/-- DataCommandsBegin, unit 0x08. -/
theorem test_begin_copy :
    tBegins (.copy .a 3) (tGo 8 0x01 [(0x20, 0x100000), (0x28, 0x200000), (0x30, 3), (0x34, 2), (0x3C, 3)] (tMem [] tState)) = true ∧
    tBegins (.copyOut .a 3) (tGo 8 0x10 [(0x20, 0x100000), (0x30, 3), (0x34, 2), (0x3C, 3), (0x48, 255)] (tMem [] tState)) = true ∧
    tBegins (.windowBind .a 3) (tGo 8 0x11 [(0x28, 0x200000), (0x40, 64), (0x48, 255)] (tMem [] tState)) = true ∧
    tBegins (.windowUnbind .a 3) (tGo 8 0x12 [(0x48, 255)] ((tMem [] tState).mod .a (fun x => { x with
      mem := { x.mem with windows := [{ num := 255, ctx := 1 }] } }))) = true := by
  decide +kernel

/-- DataCommandsBegin, unit 0x09. -/
theorem test_begin_sync :
    (∀ c ∈ [(Instr.fill .a 3, 0x01), (.drain .a 3, 0x02), (.waitFull .a 3, 0x03), (.waitEmpty .a 3, 0x04), (.peek .a 3, 0x05)],
      tBegins c.1 (tGo 9 c.2 [(0x20, 0x180000)] (tMem [] tState)) = true) ∧
    tBegins (.signalRemote .a 3) (tGo 9 0x10 [(0x28, 7), (0x38, 1023)] (tMem [] tState)) = true ∧
    tBegins (.remoteBind .a 3) (tGo 9 0x11 [(0x20, 0x180000), (0x38, 1023)] (tMem [] tState)) = true ∧
    tBegins (.remoteUnbind .a 3) (tGo 9 0x12 [(0x38, 1023)] (tState.mod .a (fun x => { x with
      mem := { x.mem with inbound := [{ num := 1023, ctx := 1 }] } }))) = true ∧
    tBegins (.huddleOpen .a 3) (tGo 9 0x20 [(0x30, 1), (0x38, 5)] (tMem [] tState)) = true ∧
    tBegins (.huddleArrive .a 3) (tGo 9 0x21 [(0x38, 5), (0x3C, 35)] ((tMem [] tState).mod .a (fun x => { x with
      mem := { x.mem with huddles := [{ ctx := 1, key := 5, mask := 1#64 <<< 35 }] } }))) = true := by
  decide +kernel

/-! ### Number formats and engines -/

/-- Half A with engine n changed. -/
def tEng (n : Nat) (f : Engine → Engine) (s : State) : State := s.mod .a (fun x => x.modEngine n f)

/-- FloatCodesAreWrittenBack: finite codes at the ends of a format, a NaN and infinities; the largest and smallest FP8 values are those of
spec/03_arithmetic_formats.md, Table — Format codes. -/
theorem test_codes :
    0x7E < 2 ^ e4m3.bits ∧ (e4m3.decode 0x7E).isFin = true ∧ e4m3.decode 0x7F = .nan ∧ (e4m3.decode 0x01).isFin = true ∧
    e4m3.encode true none (e4m3.decode 0x7E) = (0x7E, .none) ∧ e5m2.decode 0xFC = .inf true ∧ e5m2.decode 0x7C = .inf false ∧
    (fp32.decode 0x00000001).isFin = true ∧ e2m1.encode true none (.ofInt 6) = (7, .none) ∧ e4m3.encode true none (.ofInt 448) = (0x7E, .none) ∧
    e4m3.encode true none (.ofInt 1000) = (0x7E, .sat) ∧ fp32.encode true none (.ofInt 1) = (tOne, .none) := by
  decide +kernel

/-- IntegerSumsAndOutputsFollowTheirRules: magnitudes that add up to the greatest INT32, and the narrowest format. -/
theorem test_sums : ([2147483646, (-1 : Int)].map (fun i => (i.natAbs : Int))).sum = 2147483647 ∧
    intRange 2 true = (-2, 1) ∧ intRange 8 true = (-128, 127) ∧ intRange 8 false = (0, 255) := by
  decide +kernel

/-- EngineEventsComplete: an engine that owes its warm-up, the Quick lane with and without a running command, times after the boundary, a
command at its budget, a CHAIN command that pre-empts a BACKGROUND one, and a reset. -/
theorem test_engine_hyps :
    (let x := (tEng 2 (fun e => { e with wantWarmup := true }) tState).half .a;
      x.alive = true ∧ x.owesWarmup 2 = true ∧ x.running 2 = false ∧ (x.engine 2).warmDone = false) ∧
    (let x := (tEng 0 (fun e => { e with st := .quick, wantWarmup := true }) tState).half .a;
      x.sched.engines[0]?.any (fun e => e.st = .quick && e.wantWarmup && !x.running e.num && !e.warmRunning) = true ∧
        x.sched.engines[1]?.any (fun e => !(e.st = .quick && e.wantWarmup)) = true) ∧
    (let x := (tState.mod .a (fun x => { x with tim := { x.tim with local' := 1750000, base0 := 0 } })).half .a;
      x.afterBoundary 1750000 = true ∧ x.afterBoundary 200000 = true) ∧
    (let x := ((tCmd 3 (tDesc 1 1 []) (fun c => { c with st := .running, engine := some 2 }) tState).mod .a (fun x => { x with
        tim := { x.tim with local' := 10000000 } })).half .a;
      (x.cmd 3).any (fun c => c.st ≠ .waiting && c.started + budgetUs c * 1000 ≤ x.now && dUnit c.desc ≠ 5) = true) ∧
    (let x := (tCmd 3 (tDesc 1 1 []) (fun c => { c with tier := 0 }) ((List.range 18).foldl (fun s n => tCmd (10 + n) (tDesc 1 1 [])
        (fun c => { c with st := .running, engine := some n, tier := 3 }) (tEng n (fun e => { e with passedFrame := true }) s)) tState)).half .a;
      x.noEngineFree = true ∧ (x.cmd 3).any (fun c => x.ready c && isEngine c && !isQuick c && c.tier ≤ 1 &&
        (x.sched.cmds.all (fun o => !(x.ready o && isEngine o && o.tier ≤ 1) || o = c)) && !x.prefers c c &&
        (x.cmd 26).any (fun v => (x.victims c).contains v && !victimBefore v v &&
          (x.victims c).all (fun o => o = v || (victimBefore v o && !victimBefore o v)))) = true) ∧
    ((tEng 2 (fun e => { e with st := .resetting }) tState).half .a).engine 2 = { num := 2, st := .resetting } := by
  decide +kernel

/-- RetireMessageCompletes: an engine beyond 17, one that is retired, one whose retirement pends, another that pends, none that does. -/
theorem test_retire_hyps :
    (∀ n ∈ [18, 17, 2, 3], ((tPost .a 0 (tMsg 0x0403 0 0 1 n) tState).half .a).sends 0 0x0403 1 = true) ∧
    ((tEng 2 (fun e => { e with st := .retired }) tState).half .a).engine 2 = { num := 2, st := .retired } ∧
    (let x := (tState.mod .a (fun x => { x with sched := { x.sched with retiring := some 2 } })).half .a;
      x.retirePends 2 = true ∧ x.retirePends 3 = false ∧ (∃ k < 18, x.retirePends k = true)) ∧
    (∀ k < 18, (tState.half .a).retirePends k = false) := by
  decide +kernel

/-- RetirementTakesEffectAtBoundary: a spare that has passed, no spare left, and a spare that has not passed. -/
theorem test_retirement_hyps :
    (let x := (tState.mod .a (fun x => { x with sched := { x.sched with retiring := some 2, retireSpare := some 8, retireReady := true } })).half .a;
      x.sched.retiring = some 2 ∧ 2 < x.sched.engines.length ∧ 8 < x.sched.engines.length ∧ (x.engine 2).st ≠ .spare ∧ (x.engine 2).st ≠ .off) ∧
    ((tEng 8 (fun e => { e with st := .retired }) (tEng 17 (fun e => { e with st := .retired }) tState)).half .a).lowestSpare = none := by
  decide +kernel

/-- FailingChecksEndDataCommands: a command with a reserved field set, one of zero rows, and one whose unit is being reset. -/
theorem test_failing_hyps :
    (dataCmd (.copy .a 3)).isSome = true ∧
    (let x := (tGo 8 0x01 [(0x20, 0x100000), (0x28, 0x200000), (0x30, 3), (0x34, 2), (0x3C, 3), (0x4B, 1)] (tMem [] tState)).half .a;
      (x.cmd 3).any (fun c => (dataCmd (.copy .a 3)).any (fun k => k.starts x c &&
        (worst (x.commonChecks c ++ k.chk x c)).any (fun e => e.st ≠ stEmpty))) = true) ∧
    (let x := (tGo 8 0x01 [(0x20, 0x100000), (0x28, 0x200000), (0x30, 3), (0x3C, 3)] (tMem [] tState)).half .a;
      (x.cmd 3).any (fun c => (dataCmd (.copy .a 3)).any (fun k => k.starts x c &&
        (worst (x.commonChecks c ++ k.chk x c)).any (fun e => e.st = stEmpty))) = true) ∧
    (let x := (tCmd 3 (tDesc 8 1 []) (fun c => { c with st := .running }) tState).half .a;
      (x.cmd 3).any (fun c => (dataCmd (.copy .a 3)).any (fun k => !k.starts x c && k.send.isNone)) = true) := by
  decide +kernel

/-- BegunCommandIsStaged: the command is the one in flight, and a copy's work does not commit at once. -/
theorem test_begun_hyps : let x := (tGo 8 0x01 [(0x30, 3), (0x34, 2)] (tMem [] tState)).half .a;
    (x.cmd 3).any (fun c => decide (x.cmd c.id = some c) && !(copyWork x c none).atOnce) = true := by
  decide +kernel

/-- CommandCommitMakesOutputsVisible: a running command whose POST_OP can and cannot be taken, a decided batch and a planning step. -/
theorem test_commit_command_hyps :
    (let x := (tCmd 3 (tDesc 8 1 []) (fun c => { c with st := .running }) tState).half .a;
      x.alive = true ∧ (x.cmd 3).any (fun c => c.st = .running && !x.inMove c && x.postOk c && dUnit c.desc ≠ 9) = true ∧ x.batch 3 = none) ∧
    (let x := (tCmd 3 (tDesc 8 1 [(0x0A, 2), (0x18, 0x180000)]) (fun c => { c with st := .running }) (tMem [] tState)).half .a;
      (x.cmd 3).any (fun c => c.st = .running && !x.postOk c) = true ∧ x.waiters < 16384 ∧ x.batch 3 = none) ∧
    (let x := (tPipe (fun p => { p with batches := [{ cmd := 3, slots := [{}, { place := .defect stTimeout 5 }] }] })
        (tCmd 3 (tDesc 5 0x10 []) (fun c => { c with st := .running }) tState)).half .a;
      (x.batch 3).any (fun b => b.slots.all (fun k => k.place.decided)) = true) ∧
    (let x := (tPlan (tCmd 3 (tDesc 7 0x10 []) (fun c => { c with st := .running }) tState)).half .a;
      (x.cmd 3).any (fun c => dUnit c.desc = 7 && dOp c.desc = 0x10 && c.status ≠ stEmpty && x.postOk c) = true ∧ x.batch 3 = none ∧
        x.sched.plan.isSome = true) := by
  decide +kernel

/-- SyncOperationsFollowTable: the first and the last word of a sync page. -/
theorem test_sync_hyps :
    ∀ va ∈ [0x180000, 0x1FFFF8], ∀ op ∈ [1, 2, 3, 4, 5],
      let x := (tCmd 3 (tDesc 9 op [(0x20, va)]) (fun c => { c with st := .running }) (tMem [] tState)).half .a;
      (x.cmd 3).any (fun c => x.syncAt c.ctx (df c.desc 0x20 64) = some (0, (va - 0x180000) / 8) && dPost c.desc ≠ 1 && dPost c.desc ≠ 2 &&
        c.status ≠ stEmpty && c.writes = [] && c.eff = .none && c.engine = none && dUnit c.desc = 9 && dOp c.desc = op && c.st = .running) = true := by
  decide +kernel


/-- RetirementTakesEffectAtBoundary: the spare is SPARE and has passed, has not, or has failed. CommandCommitMakesOutputsVisible: a page
in a move, a convolution whose input has changed, a batch with an undecided slot, and a planning step whose inputs are consistent. -/
theorem test_commit_more :
    (∀ w ∈ [0, 1, 3], ((tEng 8 (fun e => { e with warmup := w }) tState).half .a).engine 8 = { num := 8, st := .spare, warmup := w }) ∧
    (let x := ((tCmd 3 (tDesc 8 1 []) (fun c => { c with st := .running, reads := [(0x100000, 64)] }) (tMem [] tState)).mod .a (fun x =>
        { x with mem := { x.mem with moves := [{ stack := 0, old := 600, new := 700 }] } })).half .a;
      (x.cmd 3).any (fun c => x.inMove c) = true) ∧
    (let x := (tCmd 3 (tDesc 2 1 []) (fun c => { c with st := .running, raced := [(0x100000, 64)] }) tState).half .a;
      (x.cmd 3).any (fun c => dUnit c.desc = 2 && c.raced ≠ [] && !x.inMove c) = true ∧ x.batch 3 = none) ∧
    (let x := (tPipe (fun p => { p with batches := [{ cmd := 3, slots := [{}, { place := .hwQueued }] }] })
        (tCmd 3 (tDesc 5 0x10 []) (fun c => { c with st := .running }) tState)).half .a;
      (x.batch 3).any (fun b => !b.slots.all (fun k => k.place.decided)) = true) ∧
    (let x := (tPlan (tCmd 3 (tDesc 7 0x10 []) (fun c => { c with st := .running }) (tMem [] tState))).half .a;
      (x.cmd 3).any (fun c => x.sched.plan.any (fun p => x.inputsStable p c)) = true) := by
  decide +kernel

/-! ### Regulator and cores -/

/-- RegulatorStoresFollowRules: the first and last port, limits at the ends of their range, one of zero, a guarantee at the bound of R357
and stores that `qosPut` takes. -/
theorem test_regulator_hyps :
    (tState.half .a).alive = true ∧ (∀ a, Agent.core 15 1 ≠ .tool a) ∧
    (∀ p ∈ [0, 37], ((tState.half .a).qos.port p).locked = false) ∧ otOk (BitVec.ofNat 64 0x0001000103FF03FF) = true ∧
    otOk (BitVec.ofNat 64 0x0001000103FF0000) = false ∧ (tState.half .a).qos.ports.length = 38 ∧ (tState.half .a).qos.classes.length = 8 ∧
    ((tState.half .a).qos.cls 7).lockGuar = false ∧ (tState.half .a).guarBound (tState.half .a).qos.windowNext = 384000 ∧
    (tState.half .a).qos.guarSum 7 384000 ≤ 384000 ∧ ¬ (tState.half .a).qos.guarSum 7 384001 ≤ 384000 ∧
    aligned 0x18 8 = true ∧ ((tState.half .a).qosPut 0x18 8 0x1FF).isSome = true ∧ ((tState.half .a).qosPut 0x08 8 0).isSome = false :=
  ⟨by decide +kernel, nofun, by decide +kernel, by decide +kernel, by decide +kernel, by decide +kernel, by decide +kernel,
    by decide +kernel, by decide +kernel, by decide +kernel, by decide +kernel, by decide +kernel, by decide +kernel, by decide +kernel⟩

/-- TransactionsStayWithinLimits: a port below its limit, at its limit (256 outstanding of class 2), and one transaction outstanding. -/
theorem test_transaction_hyps :
    (tState.half .a).txnClass 22 none none = some 2 ∧ (tState.half .a).qos.outCount 22 2 < (tState.half .a).qos.limit 22 2 ∧
    (let q := { (tState.half .a).qos with outst := (List.range 256).map (fun n => { id := n, port := 34, cls := 2, blocks := 4 }) };
      q.limit 34 2 ≤ q.outCount 34 2 ∧ q.outst.find? (fun t => t.id = 255) = some { id := 255, port := 34, cls := 2, blocks := 4 } ∧
        q.heldTxns = []) := by
  decide +kernel

/-- WindowEndCountsMisses: a class that is backlogged below its guarantee, and one that is not. -/
theorem test_window_hyps : let q := (tState.half .a).qos;
    let k : QClass := { (q.cls 3) with guar := 5, count := 4 };
    q.classes.length = 8 ∧ k.guar ≠ 0 ∧ k.count < k.guar.toNat ∧ bitAt (0x08 : BitVec 8) 3 = true ∧ bitAt (0x08 : BitVec 8) 4 = false := by
  decide +kernel

/-- A half with a pair that runs. -/
def tPair (n : Nat) (s : State) : State := s.mod .a (fun x => { x with cores := { x.cores with
  pairs := x.cores.pairs.modify n (fun p => { p with running := true }) } })

/-- CoreRegistersFollowRules: the last core, a context that exists and one that does not, a class within the mask and one outside it, and
the second pair. -/
theorem test_core_hyps : (tState.half .a).coreRuns 15 = true ∧ 15 < (tState.half .a).cores.app.length ∧
    ((tState.half .a).ctx (fld (BitVec.ofNat 64 0x10001) 0 12)).isSome = true ∧ (tState.half .a).ctx (fld (BitVec.ofNat 64 0x1FFF) 0 12) = none ∧
    bitAt ((tState.half .a).classMask ((tState.half .a).ctxClient 1)) 3 = true ∧ bitAt ((tState.half .a).classMask ((tState.half .a).ctxClient 1)) 4 = false ∧
    ((tPair 1 tState).half .a).pairRuns 1 = true ∧ 1 < (tState.half .a).cores.pairs.length := by
  decide +kernel

/-- AperturesReachTheirContext: a mapped word at the end of a page, a sync word, an unmapped page, a READ_ONLY page, a client aperture that
is not live, and the last word of a TCM. -/
theorem test_aperture_hyps :
    (let x := (((tMem [] tState).mod .a (fun x => x.modApp 0 (fun k => { k with nvctx := 1, nvctxValid := true })))).half .a;
      x.apRuns (.client 0) = true ∧ x.apAddr (.client 0) 0x17FFF8 8 = some (1, 0x17FFF8) ∧ x.mapped 1 0x17FFF8 8 = true ∧
        x.writable 1 0x17FFF8 8 = true ∧ x.firstBad 1 [(0x17FFF8, 8)] = none ∧ x.mapped 1 0x180000 8 = true ∧
        (∀ p ∈ pagesOf 0x180000 8, (x.tptOf 1 p).any (fun t => t.ro) = false) ∧ (∃ p ∈ pagesOf 0x180000 8, (x.tptOf 1 p).any Tpt.isSync = true) ∧
        x.mapped 1 0x0 8 = false ∧ x.apAddr (.client 1) 0x100000 8 = none ∧ x.apAddr (.system 0) (2 ^ 48 - 4) 8 = none) ∧
    (∃ p ∈ pagesOf 0x100000 8, ((({ (tState.half .a) with mem := { tpt := [{ ctx := 1, page := 2, dest := .frame 0 600, ro := true }] } } : Half).tptOf
      1 p).any (fun t => t.ro) = true)) ∧
    524280 + 8 ≤ 524288 ∧ ((tPair 1 tState).half .a).apRuns (.tcm 1) = true ∧ (∀ p, Aperture.client 0 ≠ .tcm p) :=
  ⟨by decide +kernel, by decide +kernel, by decide +kernel, by decide +kernel, nofun⟩

/-! ### Pipeline, captures and partners -/

/-- PipelineEventsComplete: a JPEG slot at a decode engine at its budget, a software request at its deadline, a batch at its budget. -/
theorem test_slot_hyps :
    (let x := ((tPipe (fun p => { p with hwQueue := [(3, 0)], batches := [{ cmd := 3, hwBudget := 1000, slots := [
        { place := .hwQueued, kind := 0x10, since := some 0 }] }] }) (tCmd 3 (tDesc 5 0x10 []) (fun c => { c with st := .running }) tState)).mod .a (fun x => { x with
          tim := { x.tim with local' := 50000000 } })).half .a;
      x.alive = true ∧ (x.batch 3).isSome = true ∧ x.decoding 3 0 = true ∧ (x.batchSlot 3 0).any (fun k => k.since.any (fun t =>
        t + 1000 * 1000 ≤ x.now)) = true ∧ (x.cmd 3).any (fun c => c.st ≠ .waiting && c.status ≠ stTimeout &&
        c.started + budgetUs c * 1000 ≤ x.now) = true) ∧
    (let x := ((tService tState).mod .a (fun x => { x with tim := { x.tim with local' := 10 } })).half .a;
      x.sched.pipe.swdec.any (fun d => (d.reqs.find? (fun r => r.entry = 2 && !r.overdue)).any (fun r => r.deadline ≤ x.st && r.cmd = 5 &&
        r.slot = 0)) = true ∧ (x.batchSlot 5 0).any (fun k => k.place = .swPosted) = true) := by
  decide +kernel

/-- A RAW8 binding of camera 7, a flow's of source 0x3F, the arrival mark's and that of the duplicated camera. -/
def tBind (s : State) : State := tPipe (fun p => { p with bindings := [
  { num := 0, ctx := 1, source := 7, select := 0x2A * 16, slotBytes := 4096, log2 := 4, ring := 0x280000, data := 0x290000 },
  { num := 1, ctx := 1, source := 0x3F, select := 2, slotBytes := 4096, log2 := 4, ring := 0x2A0000, data := 0x2B0000 },
  { num := 2, ctx := 1, source := 0x10, slotBytes := 4096, log2 := 4, ring := 0x2C0000, data := 0x2D0000 },
  { num := 3, ctx := 1, source := 0x47, slotBytes := 4096, log2 := 4, ring := 0x2E0000, data := 0x2F0000 }] }) (tMem [] s)

/-- CapturesReachTheirRings: a whole capture of the last camera, of the last flow and of the arrival mark, a forwarded one, a quarantined
camera, a ring with a free entry and one that is full. -/
theorem test_capture_hyps :
    (let x := (tBind tState).half .a;
      let y := (x.ptnFixed 7 7 0).modPartner 7 (fun p => { p with awaitFirst := false });
      x.alive = true ∧ x.ptn.sites = false ∧ (x.partner 7).st ≠ .quarantined ∧ csiKind (0x2A * 16 / 16) = some 1 ∧
        (y.sourceBinding 7).any (fun b => b.select = 0x2A * 16 && (storedData 1 (List.replicate 4096 0)).length ≤ b.slotBytes) = true ∧
        y.sched.pipe.sideReset = false ∧ (y.link 16).works = true ∧ (y.partner 7).st ≠ .quarantined ∧
        (x.sourceBinding 0x3F).any (fun b => b.select = 2) = true ∧ x.powx.subReset.contains 13 = false ∧ (x.sourceBinding 0x10).isSome = true ∧
        (x.sourceBinding (0x40 + 7)).isSome = true ∧ x.handoffUp = true ∧ seqOf x.links.fwdSeen 7 = none ∧
        (x.sched.pipe.bindings.all (fun b => !x.entryHeld b && x.sched.pipe.bindings.all (fun d => d.num ≠ b.num || d = b)) = true) ∧
        x.entryHeld { (x.sched.pipe.bindings.headD {}) with produced := 16 } = true) ∧
    (((tState.mod .a (fun x => x.modPartner 7 (fun p => { p with st := .quarantined }))).half .a).partner 7).st = .quarantined ∧
    (∃ rest, (({ (tState.half .b).links with outbox := [.capture 7 1 0 5 0 1 1 9 [3]] } : Links).outbox) = .capture 7 1 0 5 0 1 1 9 [3] :: rest) :=
  ⟨by decide +kernel, by decide +kernel, ⟨_, rfl⟩⟩

/-- PartnerMessagesComplete: an entry that is present, one quarantined until now, a camera unseen for its period, entries to list and
to read, in both forms. -/
theorem test_partner_hyps :
    (let x := ((tPost .a 0 (tMsg 0x0902 0 0 1 7) tState).mod .a (fun x => x.modPartner 7 (fun p => { p with st := .present }))).half .a;
      x.sends 0 0x0902 1 = true ∧ pay (x.msg 0) 0 8 = 7 ∧ (x.partner 7).st = .present ∧ ptnPeriod (x.partner 7).kind.toNat ≠ 0) ∧
    (let x := ((tPost .a 0 (tMsg 0x0902 0 0 1 7) tState).mod .a (fun x => { (x.modPartner 7 (fun p => { p with st := .quarantined, release := 1000000000 })) with
        tim := { x.tim with local' := 1000000000 } })).half .a;
      x.sends 0 0x0902 1 = true ∧ (x.partner 7).st = .quarantined ∧ (x.partner 7).release ≠ 0 ∧ (x.partner 7).release.toNat ≤ x.st ∧
        (x.partner 7).last.toNat + ptnPeriod (x.partner 7).kind.toNat ≤ x.st) ∧
    (let x := ((tPost .a 63 (tMsg 0x0901 0 0 1 0) tState).mod .a (fun x => x.modPartner 7 (fun p => { p with st := .present }))).half .a;
      x.sends 63 0x0901 1 = true ∧ (x.nextPartner (pay (x.msg 63) 0 8)).any (fun q => q.num = 7) = true) ∧
    (let x := (tPost .a 60 (tMsg 0x0A01 0 0 8 2) tState).half .a;
      x.sends 60 0x0A01 8 = true ∧ pay (x.msg 60) 0 8 = 2 ∧ pay (x.msg 60) 1 8 = 0) ∧
    (let x := ((tPost .a 0 (tMsg 0x0A01 0 1 0x18 (0x110000 + 8 * 2 ^ 64 + 32 * 2 ^ 96 + 0x200000 * 2 ^ 128) ||| 0x10000) (tMem [(0x110000, 1, 2)]
        tState)).mod .a (fun x => { x with sched := { x.sched with ctxs := [{ id := 1, client := 0 }] } })).half .a;
      x.sendsLong 0 0x0A01 67108864 = true ∧ inLen (x.msg 0) = 8 ∧ x.vnat 1 (inAddr (x.msg 0)) 8 % 65536 = 2) ∧
    (tState.half .a).toolIgnored (.tool 0x7F) = false := by
  decide +kernel

/-- EndpointsAndDiesStayInTheirPages: DMA of a function that is tracked and of one that is quarantined; windows of an admitted die. -/
theorem test_endpoint_hyps :
    (let x := (tMem [] tState).half .a;
      let y := x.ptnArrive 5 0 0x1234;
      x.alive = true ∧ x.powx.subReset.contains 13 = false ∧ y.fnSrc 0x1234 = .partner 16 ∧ (y.partner 16).st ≠ .quarantined ∧
        y.writable 1 0x17FFFF 1 = true ∧ y.writable 1 0x17FFFF 2 = false ∧ y.mappedPlain 1 0x17FFFF 1 = true ∧
        y.firstBad 1 [(0x17FFFF, 1)] = none ∧ y.mappedPlain 1 0x180000 8 = false) ∧
    (let x := ((tState.mod .a (fun x => (x.ptnArrive 5 0 0x1234).modPartner 16 (fun p => { p with st := .quarantined })))).half .a;
      (x.ptnArrive 5 0 0x1234).fnSrc 0x1234 = .partner 16 ∧ ((x.ptnArrive 5 0 0x1234).partner 16).st = .quarantined) ∧
    (let x := ((tMem [] tState).mod .a (fun x => { x with ptn := { x.ptn with sites := true }, cfg := { x.cfg with
        siteWins := [{ ctx := 1, client := 1, va := 0x17FFF0, len := 0x20 }] } })).half .a;
      x.siteDie = true ∧ (x.siteWin 1 0x17FFF8 8).isSome = true ∧ x.writable 1 0x17FFF8 8 = true ∧ (x.siteWin 1 0x180008 16).isSome = false ∧
        (x.siteWin 1 0x180008 8).isSome = true ∧ x.syncBad 1 0x180008 = false ∧ (x.wordAt 1 0x180008).full = false ∧
        x.syncBad 1 0x17FFF8 = true) := by
  decide +kernel


/-- AperturesReachTheirContext: addresses of a core's and a pair's map in a region, in the control space and in none, an uncorrectable
block behind a mapped address, and the two ends of a TCM. -/
theorem test_map_hyps :
    apAt (.coreMap 15) 0x1000000000000 = some (.system 15, 0) ∧ apAt (.coreMap 0) 0x2000000000008 = some (.client 0, 8) ∧
    apAt (.pairMap 1) 0x7FFFF = some (.tcm 1, 0x7FFFF) ∧ apAt (.pairMap 0) 0x7FFFFFFF = some (.window 0, 0x3FFFFFFF) ∧
    apAt (.client 3) 5 = some (.client 3, 5) ∧ apAt (.pairMap 1) 0x80000 = none ∧ apControl (.pairMap 1) 0x80000 = false ∧
    apAt (.coreMap 0) 0x4000000000 = none ∧ apControl (.coreMap 0) 0x4000000000 = true ∧ 524288 < 524281 + 8 ∧
    ({ (tMem [] tState).half .a with mem := { ((tMem [] tState).half .a).mem with bad := [{ stack := 0, frame := 600, block := 0 }] } } : Half).firstBad
      1 [(0x100038, 8)] = some 0x100000 := by
  decide +kernel

/-- TransactionsStayWithinLimits: a full camera buffer makes the camera port's transaction the one that is served in normal service, and the
earlier of two deadlines within 2 µs in deadline mode; a target at which nothing waits. -/
theorem test_serve_hyps :
    let x := tState.half .a;
    let t : QTxn := { id := 1, port := 34, cls := 2, blocks := 4, target := .dram 0 };
    let u : QTxn := { id := 2, port := 30, cls := 0, blocks := 4, target := .dram 0, deadline := some 1500 };
    let y : Half := { x with qos := { ({ x.qos with outst := [t, u] } : Qos).setFill { camera := 255 } with causes := 0 } };
    x.serves (.dram 0) = none ∧ (y.qos.port 30).urgency 30 = 3 ∧ (y.serves (.dram 0)).any (fun r => r.1 = u) = true ∧
      (let z : Half := { y with qos := { y.qos with causes := 4, outst := [{ t with deadline := some 2000 }, u] } };
        z.qos.causes ≠ 0 ∧ 2000 ≤ z.now + 2000 ∧ (z.serves (.dram 0)).any (fun r => r.1 = u) = true) := by
  decide +kernel

/-- An assembled unit of flow source 0x3F. -/
def tCapOf : Capture := { source := 0x3F, select := 0, time := 0, mediaTs := 0, w := 0, h := 0, data := [], ecc := 0, crc := 0, cut := false }

/-- CapturesReachTheirRings: a camera that its packet errors quarantine, a Sideline in reset, a lost link of the open site, and an assembled
unit of the last flow behind one of another. -/
theorem test_capture_more :
    (let x := (tBind tState).half .a;
      let y := (x.ptnFixed 7 7 0).modPartner 7 (fun p => { p with awaitFirst := false });
      (((y.csiVio 7 0x01 1 100).partner 7).st = .quarantined) ∧ (y.csiVio 7 0x01 1 1).sched.pipe.sideReset = false) ∧
    ((tPipe (fun p => { p with sideReset := true }) tState).half .a).sched.pipe.sideReset = true ∧
    ({ st := .down } : Link).works = false ∧
    (let l : List Capture := [{ tCapOf with source := 0x20 }, { tCapOf with select := 2 }];
      l = [{ tCapOf with source := 0x20 }] ++ { tCapOf with select := 2 } :: [] ∧ (∀ p ∈ [{ tCapOf with source := 0x20 }], p.source ≠ 0x3F)) := by
  decide +kernel

/-- PartnerMessagesComplete: an EMPTY entry, a list with no entry from FIRST on, and the long form of PTN_LIST.
EndpointsAndDiesStayInTheirPages: an uncorrectable block that a function reads, and a store outside the windows. -/
theorem test_partner_more :
    (let x := (tPost .a 0 (tMsg 0x0902 0 0 1 200) tState).half .a;
      x.sends 0 0x0902 1 = true ∧ (x.partner (pay (x.msg 0) 0 8)).st = .empty) ∧
    (let x := (tPost .a 63 (tMsg 0x0901 0 0 1 255) tState).half .a;
      x.sends 63 0x0901 1 = true ∧ x.nextPartner (pay (x.msg 63) 0 8) = none) ∧
    (let x := ((tPost .a 0 (tMsg 0x0901 0 1 0x18 (0x200000 * 2 ^ 128 + 64 * 2 ^ 192) ||| 0x10000) (tMem [] tState)).mod .a (fun x => { x with
        sched := { x.sched with ctxs := [{ id := 1, client := 0 }] } })).half .a;
      x.sendsLong 0 0x0901 67108864 = true ∧ inLen (x.msg 0) = 0) ∧
    (let x := ((tMem [] tState).mod .a (fun x => { x with mem := { x.mem with bad := [{ stack := 0, frame := 600, block := 8191 }] } })).half .a;
      (x.ptnArrive 5 0 0x1234).firstBad 1 [(0x17FFFF, 1)] = some 0x17FFC0) := by
  decide +kernel

/-! ### Frames, time and links -/

/-- Half A with port 4 up, and a TX ring of port 4 in page 5. -/
def tPort (s : State) : State := s.mod .a (fun x => { (x.modPort 4 (fun p => { p with linkUp := true })) with
  cfgb := { x.cfgb with rings := [{ port := 4, num := 3, tx := true, ctx := 1, va := 0x280000, pair := some 1 }] } })

/-- A frame of a type that no flow names but its port's, and one of gPTP. -/
def tFrame (type : Nat) : List Byte := (leBytes 12 (0x0A0B0C0D0E0F * 2 ^ 48)) ++ [BitVec.ofNat 8 (type / 256), BitVec.ofNat 8 type] ++ List.replicate 46 0

/-- FramesFollowTheirRules: a frame for a flow, one for none, a gPTP frame, a TX descriptor of each length at the ends of its range with
an open and a closed gate, and a frame across the bridge. -/
theorem test_frame_hyps :
    (let x := (tPort tState).half .a;
      x.macLive 4 = true ∧ frameType (tFrame 0x22F0) ≠ 0x88F7 ∧ x.flowOf 4 (tFrame 0x22F0) = none ∧ x.cfg.bridge = false ∧
        ({ x with cfgb := { x.cfgb with flows := [{ num := 31, ports := [4] }] } } : Half).flowOf 4 (tFrame 0x22F0) = some { num := 31, ports := [4] }) ∧
    frameType (tFrame 0x88F7) = 0x88F7 ∧ netNat (tFrame 0x88F7) (frameBody (tFrame 0x88F7) + 4) 1 = tState.a.cfgb.domain ∧
    (({ tState.a with cfgb := { tState.a.cfgb with ptpPorts := [4] } } : Half).carriesPtp 4 = true) ∧
    (∀ len ∈ [59, 60, 9600, 9601], ∀ g ∈ [(0 : BitVec 2), 2],
      let x := (tPort (tMem [(0x280000, 12, 0x200000 + len * 2 ^ 64 + 1 * 2 ^ 80)] tState)).half .a;
      x.cfgb.rings.find? (fun q => q.port = 4 && q.num = 3 && q.tx) = some { port := 4, num := 3, tx := true, ctx := 1, va := 0x280000, pair := some 1 } ∧
        (x.port 4).txOff[3]?.getD false = false ∧ x.vnat 1 0x28000A 1 % 2 = 1 ∧ x.vnat 1 0x280008 2 = len ∧ g.getLsbD 1 = decide (g = 2) ∧
        x.mapped 1 (x.vnat 1 0x280000 8) len = true) ∧
    ((tPort (tMem [(0x280000, 12, 0x100 + 60 * 2 ^ 64 + 1 * 2 ^ 80)] tState)).half .a).mapped 1 0x100 60 = false := by
  decide +kernel

/-- Half A with port 1 carrying gPTP, up and with a role. -/
def tPtp (role : BitVec 4) (s : State) : State := s.mod .a (fun x => { (x.modPort 1 (fun p => { p with linkUp := true, role := role })) with
  cfgb := { x.cfgb with ptpPorts := [1] } })

/-- GptpAndTimeCommandsComplete: a message that the time unit takes, one of another domain, a Sync that waits for its Follow_Up, a master
port, and the clauses of the clock, each at the end of its time. -/
theorem test_time_hyps :
    (let m : Ptp := { port := 1, src := 5, domain := 0, seq := 65535, ok := true, t := 1000 };
      let x := (tPtp 2 tState).half .a;
      (x.takePtp m).2 = true ∧ (x.takePtp { m with domain := 1 }).2 = false ∧ x.ptpLive 1 = true ∧ (x.port 1).role = 2 ∧
        ((((tPtp 2 tState).mod .a (fun x => x.modPort 1 (fun k => { k with pendSync := some (65535, 7) }))).half .a).takePtp m).1.port 1 =
          { ((x.takePtp m).1.port 1) with pendSync := some (65535, 7) }) ∧
    (let x := ((tPtp 1 tState).mod .a (fun x => { x with tim := { x.tim with lead := true, source := 1, st := .synced, local' := 375000000 } })).half .a;
      x.tim.lead = true ∧ x.tim.source = 1 ∧ x.timx.lastSync + x.cfgb.syncTimeout * logInterval x.cfgb.logSync ≤ x.now ∧ x.tim.st ≠ .unset) ∧
    (let x := (tState.mod .a (fun x => { x with tim := { x.tim with source := 2, st := .synced, local' := 3000000 } })).half .a;
      x.tim.lead = false ∧ x.tim.source = 2 ∧ x.timx.lastExch + 3000000 ≤ x.now) ∧
    (let x := (tState.mod .a (fun x => { (x.modPort 4 (fun k => { k with announce := some (0, 0, 0) })) with
        tim := { x.tim with local' := 3000000000 } })).half .a;
      (x.port 4).announce.isSome = true ∧ (x.port 4).lastAnn + x.cfgb.annTimeout * logInterval x.cfgb.logAnn ≤ x.now) ∧
    (tState.half .b).tim.running = true ∧ (tState.half .a).handoffUp = true ∧
    ((tState.mod .b (fun x => { x with tim := { x.tim with lead := true } })).half .b).tim.lead = true ∧
    (let x := (tState.mod .a (fun x => { x with tim := { x.tim with local' := 2000000000 } })).half .a;
      x.tim.running = true ∧ x.tim.startedAt + x.cfgb.startWaitMs * 1000000 ≤ x.now) ∧
    ((tPost .a 63 (tMsg 0x0801 0 0 0 0) tState).half .a).sends 63 0x0801 0 = true ∧
    (∀ ps ∈ [1000000, -1000000], let m := tMsg 0x0802 0 0 8 (4 + (BitVec.ofInt 32 ps).toNat * 2 ^ 32);
      ((tPost .a 0 m tState).half .a).sends 0 0x0802 8 = true ∧ pay m 0 8 = 4 ∧ payBits m 1 0 24 = 0 ∧ (decInt 32 (pay m 4 32)).natAbs ≤ 1000000) := by
  decide +kernel

/-- LinkEventsComplete: a replay below, at the fourth of the Tether and at the eighth of another link, a lane at its third error, a message for
the last link, links in training, and no link in recovery. -/
theorem test_link_hyps :
    (let x := (tState.mod .a (fun x => (x.modLink 0 (fun k => { k with flitTries := 7 })).modLink 18 (fun k => { k with flitTries := 2 }))).half .a;
      x.alive = true ∧ (x.link 0).works = true ∧ 8 ≤ (x.link 0).flitTries + 1 ∧ (x.link 18).flitTries + 1 < 4 ∧ (x.link 18).works = true) ∧
    (let x := (tState.mod .a (fun x => x.modLink 16 (fun k => { k with laneHist := [(271, [true, false, true, false, false, false, false, true])] }))).half .a;
      15 < lnkData 16 + lnkSpares 16 ∧ 271 ∈ ({ (x.link 16) with laneHist := [(271, [true, true, false, true])] } : Link).runFaulty ∧
        271 ∉ ({ (x.link 16) with laneHist := [(271, [true, true, false, false])] } : Link).runFaulty) ∧
    (let x := (tPost .a 0 (tMsg 0x0903 0 0 1 18) tState).half .a;
      x.sends 0 0x0903 1 = true ∧ pay (x.msg 0) 0 8 = 18 ∧ (x.link 18).st ≠ .training ∧ (x.link 18).st ≠ .retraining ∧ x.heldLink 18 = false) ∧
    (let x := (tState.mod .a (fun x => x.modLink 16 (fun k => { k with st := .retraining, fails := 1 }))).half .a;
      (x.link 16).st = .retraining ∧ x.heldLink 16 = false ∧ lnkWidth 16 [] ≠ 0 ∧ (x.link 16).slot = none ∧ (x.link 16).fails < 2) ∧
    (∀ k ∈ (tState.half .a).links.recs, k.st ≠ .retraining ∧ k.recoveryDue = none) ∧ (tState.half .b).links.recs.length = 19 := by
  decide +kernel

/-- TetherAdmitsItsPeer: a Tether that is down and one that awaits its peer's identity; a report that verifies is one for which the opaque
test says so. -/
theorem test_tether_hyps (report : List Byte) (good : Config.reportVerifies report = true) :
    (let x := (tState.mod .a (fun x => x.modLink 18 (fun k => { k with st := .down }))).half .a;
      x.alive = true ∧ (x.link tetherLink).works = false ∧ x.heldLink tetherLink = false ∧ lnkWidth tetherLink [] ≠ 0) ∧
    (let x := (tState.mod .a (fun x => { x with ptn := { x.ptn with tetherUp := some 0 } })).half .a;
      (x.link tetherLink).works = true ∧ x.ptn.tetherUp.isSome = true ∧ (x.partner 11).st ≠ .quarantined ∧ 11 < x.ptn.entries.length ∧
        x.cfg.peerSerial = 0 ∧ halfCode x.me = 0) ∧ Config.reportVerifies report = true ∧ halfCode (tState.half .a).me ≠ 1 :=
  ⟨by decide +kernel, by decide +kernel, good, by decide +kernel⟩


/-- A Sync that crosses the bridge. -/
def tRelay : RelaySync := { origin := 1, corr := 0, ingress := 0, delay := 0, rate := 0 }

/-- FramesFollowTheirRules: a port that bridges with no flow for a frame, one that does not carry gPTP, and a Sync and a frame that wait to
cross. GptpAndTimeCommandsComplete: a Follow_Up of another Sync, and a master port with a relayed Sync and without one. -/
theorem test_bridge_hyps :
    (let x := ((tPort tState).mod .a (fun x => { (x.modPort 3 (fun p => { p with linkUp := true })) with cfg := { x.cfg with bridge := true } })).half .a;
      x.macLive 3 = true ∧ x.cfg.bridge = true ∧ x.flowOf 3 (tFrame 0x0800) = none ∧ x.carriesPtp 3 = true ∧ x.carriesPtp 4 = false) ∧
    (({ (tState.half .b) with links := { (tState.half .b).links with outbox := [.bridge 5 [1], .sync tRelay] } } : Half).takeOut
      LinkMsg.crossing).any (fun r => r.1 = .inl (5, [1])) = true ∧
    (({ (tState.half .b) with links := { (tState.half .b).links with outbox := [.heartbeat, .sync tRelay] } } : Half).takeOut
      LinkMsg.crossing).any (fun r => r.1 = .inr tRelay) = true ∧
    (let x := ((tPtp 2 tState).mod .a (fun x => x.modPort 1 (fun k => { k with pendSync := some (7, 7), relay := some tRelay }))).half .a;
      (x.takePtp { port := 1, src := 5, domain := 0, seq := 65535, ok := true, t := 1000 }).2 = true ∧ x.ptpLive 1 = true ∧
        (x.port 1).relay = some tRelay ∧ ((tPtp 2 tState).half .a).ptpLive 1 = true ∧ (((tPtp 2 tState).half .a).port 1).relay = none) := by
  decide +kernel

/-- LinkEventsComplete: the Handoff link at its eighth failed replay, the Tether at its fourth and in retraining, a link in its first
training, a lane that is not yet faulty, and a recovery that is over. TetherAdmitsItsPeer: a Tether whose rate is none. -/
theorem test_link_more :
    (let x := (tState.mod .a (fun x => (x.modLink 17 (fun k => { k with flitTries := 7 })).modLink 18 (fun k => { k with flitTries := 3 }))).half .a;
      handoffLink = 17 ∧ (x.link 17).works = true ∧ 8 ≤ (x.link 17).flitTries + 1 ∧ tetherLink = 18 ∧ 4 ≤ (x.link 18).flitTries + 1 ∧
        (x.link 18).works = true) ∧
    (let x := (tState.mod .a (fun x => (x.modLink 18 (fun k => { k with st := .retraining })).modLink 3 (fun k => { k with st := .training }))).half .a;
      (x.link 18).st = .retraining ∧ x.heldLink 18 = false ∧ lnkWidth 18 [] ≠ 0 ∧ (x.link 3).st = .training ∧ x.heldLink 3 = false ∧
        lnkWidth 3 [] ≠ 0 ∧ (x.link 18).slot = none ∧ (x.link 18).fails < 2) ∧
    (∀ k ∈ (({ (tState.half .a) with links := { recs := List.replicate 19 { st := .up, recoveryDue := some 0 } } } : Half).links.recs),
      k.st ≠ .retraining ∧ ∀ t, k.recoveryDue = some t → t ≤ (tState.half .a).now) ∧
    (tState.half .a).heldLink 0 = false ∧ 5 ∉ ((tState.half .a).link 0).runFaulty := by
  decide +kernel

/-! ### The Umpire and the modes -/

/-- Half A with its counters at a time in ns. -/
def tAt (n : Nat) (s : State) : State := s.mod .a (fun x => { x with tim := { x.tim with local' := n }, ump := { x.ump with clock := n } })

/-- MonitorsBringHalfFaults: a late Captain, a hot spot and a stack 10 ms above their limits, pairs of which both, one or the backup alone
fail, and INVASIVE. -/
theorem test_monitor_hyps :
    (let x := (tAt 3000000 tState).half .a;
      x.alive = true ∧ x.umpireRuns = true ∧ x.ump.captainBeat + 3000000 ≤ x.ump.clock ∧ x.sec.debug ≠ 2) ∧
    (let x := (tAt 10000000 (tState.mod .a (fun x => { x with powx := { x.powx with
        pairs := x.powx.pairs.modify 31 (fun k => { k with over118 := some 0 }), stks := x.powx.stks.modify 1 (fun k => { k with over100 := some 0 }) } }))).half .a;
      (∃ k ∈ x.powx.pairs, k.over118 = some 0 ∧ 0 + 10000000 ≤ x.now) ∧ (∃ k ∈ x.powx.stks, k.over100 = some 0 ∧ 0 + 10000000 ≤ x.now)) ∧
    (let x := (tPair 0 (tPair 1 tState)).half .a;
      (x.pair 1).running = true ∧ (x.pair (1 - 1)).running = true ∧ 0 = x.cores.loopPair ∧ 1 ≠ x.cores.loopPair) ∧
    (((tPair 1 tState).half .a).pair (1 - 1)).running = false ∧ (({ tState.a with sec := { tState.a.sec with debug := 2 } } : Half).sec.debug = 2) ∧
    handoffLink < (tState.half .a).links.recs.length ∧ (tState.half .b).alive = true ∧
    (({ tState with b := { tState.b with umpx := { safe := true } } } : State).half .b).alive = false := by
  decide +kernel

/-- UmpireExchangesComplete: each message behind another kind, a peer whose heartbeats have stopped, a half that may hold its gates open. -/
theorem test_exchange_hyps :
    (tState.half .a).umpireRuns = true ∧ LinkMsg.heartbeat ∉ [LinkMsg.gateClosed] ∧ LinkMsg.gateClosed ∉ [LinkMsg.heartbeat] ∧
    (∀ m ∈ [LinkMsg.heartbeat], m.asCheckpoint = none) ∧ (∀ f, LinkMsg.substitute f ∉ [LinkMsg.heartbeat]) ∧ (tState.half .b).handoffUp = true ∧
    (let x := (tAt 3000000 (tState.mod .a (fun x => { x with ump := { x.ump with peerBus := true } }))).half .a;
      x.ump.lastHandoff + 3000000 ≤ x.ump.clock ∧ x.ump.lastBus + 3000000 ≤ x.ump.clock ∧ x.ump.peerBus = true ∧ tState.dev.mode ≠ .solo) ∧
    LinkMsg.fault ∈ ({ tState.b.links with outbox := [.heartbeat, .fault] } : Links).outbox ∧
    (({ tState.a with sec := { tState.a.sec with life := 2 } } : Half).permits = true) ∧
    (({ tState.a with umpx := { sub := .restored } } : Half).umpx.sub = .restored) ∧ tState.dev.chain = .a ∧ (tState.half .a).captainRuns = true :=
  ⟨by decide +kernel, by simp, by simp, by decide +kernel, by simp, by decide +kernel, by decide +kernel, by decide +kernel, by decide +kernel,
    by decide +kernel, by decide +kernel, by decide +kernel⟩

/-- UmpireJudgesWarmupsAndRecords: an engine that carried CHAIN work and awaits its verdict, one that did not, records that wait and one that
is late. -/
theorem test_verdict_hyps :
    (let s := tEng 2 (fun e => { e with warmDone := true, wantWarmup := false }) (tState.mod .a (fun x => { x with ump := { x.ump with prevMask := [2] } }));
      let x := s.half .a;
      x.umpireRuns = true ∧ (x.engine 2).warmDone = true ∧ x.firstDisagree 2 = true ∧ 2 < x.sched.engines.length ∧ 2 ∈ x.ump.prevMask ∧
        s.dev.chain = .a ∧ s.dev.evacuated = false ∧ x.powx.ready = true ∧ 3 ∉ x.ump.prevMask ∧ (x.engine 3).st ≠ .quick) ∧
    (∀ p f d, LinkMsg.compare p f d ∉ [LinkMsg.heartbeat]) ∧
    (let x := (tAt 2000000 (tState.mod .a (fun x => { x with umpx := { x.umpx with ownRec := [(true, 7, 0, [1])] } }))).half .a;
      x.umpx.ownRec.find? (fun r => r.1 = true && r.2.1 = 7) = some (true, 7, 0, [1]) ∧ 0 + 2000000 ≤ x.now ∧ (tState.half .b).umpx.ownRec = []) :=
  ⟨by decide +kernel, by simp, by decide +kernel⟩

/-- SafetyMessagesComplete: requests for the mode in force, for another, and out of SOLO; a diagnostic of the last element of each kind, one
that has started, and a half that can be ready. -/
theorem test_safety_hyps :
    ((tPost .a 63 (tMsg 0x0502 0 0 0 0) tState).half .a).sends 63 0x0502 0 = true ∧
    ((tPost .a 63 (tMsg 0x0503 0 0 0 0) tState).half .a).sends 63 0x0503 0 = true ∧
    (∀ mode ∈ [0, 1], let m := tMsg 0x0501 0 0 3 mode;
      ((tPost .a 0 m tState).half .a).sends 0 0x0501 3 = true ∧ pay m 0 8 = mode ∧ pay m 1 8 = 0 ∧ pay m 2 8 = 0) ∧
    (let m := tMsg 0x0501 0 0 3 (2 + 1 * 2 ^ 8 + 2 * 2 ^ 16);
      ((tPost .a 0 m tState).half .a).sends 0 0x0501 3 = true ∧ pay m 0 8 = 2 ∧ pay m 1 8 = 1 ∧ pay m 2 8 = 2 ∧ (tState.half .b).alive = true) ∧
    tState.changing = false ∧ ({ tState with dev := { tState.dev with inMode := 1 } } : State).dev.inMode ≠ 0 ∧ tState.substituting = false ∧
    tState.dev.mode = .dual ∧ (tState.half .b).sec.debug ≠ 2 ∧
    (let s : State := { tState with dev := { tState.dev with mode := .solo, inMode := 1 } };
      (s.half .b).unreachable = false ∧ (s.startRejoin { half := .b, target := .mirror, slot := some (.a, 0)
                                                         kept := (s.half .b).alive && !(s.half .b).powx.held }).dev.rejoin.isSome = true) ∧
    (∀ p ∈ [(1, 17), (2, 9), (3, 1), (4, 11)], let m := tMsg 0x0A02 0 0 2 (p.1 + p.2 * 2 ^ 8);
      let x := ((tPost .a 0 m tState).mod .a (fun x => { x with cfg := { x.cfg with mode := 3 }, mem := { x.mem with slicesOut := [11] } })).half .a;
      x.sends 0 0x0A02 2 = true ∧ (x.engine 17).st ≠ .retired ∧ 11 ∈ x.mem.slicesOut) ∧
    (let x := ((tPost .a 0 (tMsg 0x0A02 0 0 2 1) tState).mod .a (fun x => x.modSlot 0 (fun k => { k with started := true }))).half .a;
      x.captainRuns = true ∧ (x.slot 0).st = .acked ∧ (x.slot 0).started = true ∧ msgOp (x.msg 0) = 0x0A02) ∧
    (let x := (tState.mod .a (fun x => { x with powx := { x.powx with ready := false }, tim := { x.tim with stepped := true } })).half .a;
      x.canBeReady = true ∧ (tState.half .b).powx.ready = true) := by
  decide +kernel

/-- FrameBoundaryTakesEffect: a time before and at the next boundary, a change that is due, and a frame of the mask. -/
theorem test_boundary_hyps :
    (tState.half .a).frameNow ≤ (tState.half .a).frame ∧
    (let s := tAt 33333334 tState;
      (s.half .a).frame < (s.half .a).frameNow ∧ (s.half .a).tim.running = true ∧ (s.half .a).powx.ready = true ∧ s.dev.started = true ∧
        s.dev.rejoin = none ∧ s.dev.chain = .a) ∧
    (let s : State := { tState with dev := { tState.dev with change := some { target := .solo, half := .b } } };
      s.dev.change.any (fun c => c.kind = .request && c.left = 1) = true) := by
  decide +kernel

/-- FrameBoundaryTakesEffect: at the boundary of a running half nothing stops it. -/
theorem test_boundary_alive : let s := tAt 33333334 tState;
    let u := (s.mod .a (fun y => (y.beginFrame y.frameNow).heldStep)).deviceBoundary .a;
    (u.half .a).alive = true ∧ (u.half .a).powx.ready = true := by
  decide +kernel

/-- SelfTestsAndCalibrationComplete: a slice that fits after the boundary, intervals with and without a pass, and the last target of each
item of calibration. -/
theorem test_selftest_hyps :
    ((tAt 500000 tState).half .a).sliceStarts 1 = true ∧
    (let x := (tAt 200000000000 tState).half .a;
      9 < x.tests.length ∧ x.testInterval 1 ≠ 0 ∧ (x.test 1).missWin = none ∧ (x.test 1).passTime = none) ∧
    (let x := (tAt 200000000000 (tState.mod .a (fun x => x.modTest 1 (fun k => { k with passTime := some 200000000000 })))).half .a;
      (x.test 1).passTime.any (fun p => (x.now / x.testInterval 1 - 1) * x.testInterval 1 ≤ p) = true) ∧
    (∀ p ∈ [(0, 16), (1, 3), (2, 31), (3, 63), (4, 15)], p.2 < ([18, 4, 32, 64, 16][p.1]?).getD 0) ∧ (tState.half .a).umpx.sub = .none ∧
    ((tState.half .a).engine 16).st = .active ∧ (tState.half .a).running 16 = false ∧ (∀ k ∈ (tState.half .a).sched.engines, k.st ≠ .draining) ∧
    ((tState.half .a).link 15).works = true := by
  decide +kernel


/-- UmpireJudgesWarmupsAndRecords: outputs that agree and that do not (R88: a NaN matches only a NaN, an infinity only one of its sign), and an
engine in a rerun. MonitorsBringHalfFaults: INVASIVE on a half that can carry the chain. -/
theorem test_verdict_more :
    (let x := tState.half .a;
      x.warmAgrees [] = true ∧ x.warmAgrees [{ fmt := 0x14, y := tOne, r := tOne, mag := tOne }] = true ∧
        x.warmAgrees [{ fmt := 0x14, y := 0x40000000, r := tOne, mag := tOne }] = false ∧
        x.warmAgrees [{ fmt := 0x14, y := 0x7FC00000, r := tOne, mag := tOne }] = false) ∧
    warmNum 0x14 0x7FC00000 127 = .nan ∧ warmNum 0x14 0xFF800000 127 = .inf true ∧
    bandMatch [] { fmt := 0x14, y := 0x7FC00000, r := 0x7FC00001, mag := 0 } = true ∧
    bandMatch [] { fmt := 0x14, y := 0x7F800000, r := 0xFF800000, mag := 0 } = false ∧
    (({ (tState.half .a) with ump := { (tState.half .a).ump with rerun := [(2, 0, 0)] } } : Half).firstDisagree 2 = false) ∧
    (({ (tState.half .a) with sec := { (tState.half .a).sec with debug := 2, life := 2 } } : Half).onlyLogs = true) := by
  decide +kernel

/-- SafetyMessagesComplete: a half that reports ready within and past its bound, beside one that is ready or not, once the device has
started, and in a return; a gate that a test closes. -/
theorem test_ready_more :
    (let s := (tState.mod .a (fun x => { x with powx := { x.powx with ready := false }, tim := { x.tim with stepped := true, local' := 2000000001 } }));
      let x := s.half .a;
      x.canBeReady = true ∧ x.bootBound = 2000000000 ∧ x.bootBound < x.now ∧ (tState.half .a).now ≤ (tState.half .a).bootBound ∧
        ({ s with dev := {} } : State).dev.started = false ∧ (s.half .b).powx.ready = true ∧ s.dev.rejoin = none ∧ s.dev.chain = .a) ∧
    (({ tState with dev := { tState.dev with rejoin := some { half := .a } } } : State).dev.rejoin).any (fun q => q.half = .a && q.step = 1) = true ∧
    (let x : Half := { (tState.half .a) with ump := { (tState.half .a).ump with gates := 3 } };
      x.ump.gates.getLsbD 0 = true ∧ x.ump.gates.getLsbD 1 = true) ∧
    (tState.half .b).unreachable = false := by
  decide +kernel

/-- SelfTestsAndCalibrationComplete: a slice of the pairs with a pair that runs, intervals with a pass before and in them, and a link that is
not in a retrain. -/
theorem test_selftest_more :
    (let x := (tAt 500000 (tPair 1 tState)).half .a;
      x.sliceStarts 0 = true ∧ (x.pair 1).running = true) ∧
    ((tState.half .a).testInterval 0 ≠ 0) ∧ (∀ k < 16, ((tState.half .a).link k).st ≠ .retraining) ∧ (tState.half .a).umpx.sub = .none ∧
    (tState.half .a).svc.trims.length = (tState.half .a).svc.trimData.length := by
  decide +kernel

/-! ### Power, thermal limits, resets and wakes -/

/-- PowerMessagesComplete: each state, held or not, with and without a wake timer; both ends of the cap; the hold and FORCED_DIM as their times
are reached; the first and last domain. -/
theorem test_power_hyps :
    (∀ st ∈ [0, 1, 2, 3, 4], ∀ w ∈ [0, 5], ∀ p ∈ [PwrState.run, .dim, .doze], 
      let m := tMsg 0x0701 0 0 8 (st + w * 2 ^ 32);
      let s := ({ tPost .b 0 m tState with dev := { tState.dev with mode := .solo, chain := .a } } : State).mod .b (fun x =>
        { x with pow := { x.pow with st := p } });
      let x := s.half .b;
      x.sends 0 0x0701 8 = true ∧ x.sec.pendLife = none ∧ pay m 0 8 = st ∧ payBits m 1 0 24 = 0 ∧ (w = 0 ∨ 3 ≤ st → st < 3 → pay m 4 32 = 0) ∧
        s.changing = false ∧ s.substituting = false ∧ x.mem.mapOut = none ∧ x.powx.pend = none ∧ x.powx.holdSlot = none ∧
        (x.pow.forcedDim = false) ∧ s.dev.mode = .solo ∧ s.dev.chain ≠ .b) ∧
    (let x := (tAt 5000000 (tState.mod .a (fun x => { x with powx := { x.powx with holdSlot := some (0, 5000000, .off) } }))).half .a;
      x.powx.holdSlot = some (0, 5000000, .off) ∧ x.alive = true ∧ 5000000 ≤ x.now) ∧
    (∀ v ∈ [60, 480], let m := tMsg 0x0702 0 0 2 v; ((tPost .a 0 m tState).half .a).sends 0 0x0702 2 = true ∧ pay m 0 16 = v) ∧
    ((tPost .a 63 (tMsg 0x0703 0 0 2 0xFFF0) tState).half .a).sends 63 0x0703 2 = true ∧
    (let x := (tAt 1000000000 (tState.mod .a (fun x => { x with
        pow := { x.pow with forcedDim := true, st := .dim }, powx := { x.powx with goodSince := some 0 } }))).half .a;
      x.alive = true ∧ x.pow.forcedDim = true ∧ x.powx.goodSince = some 0 ∧ 0 + 1000000000 ≤ x.now) ∧
    (∀ d ∈ [0, 1, 17, 55], let x := (tState.mod .a (fun x => { x with pow := { x.pow with domains := 0 } })).half .a;
      x.powx.booted = true ∧ x.umpx.safe = false ∧ x.powx.inReset = false ∧ x.wantDomain d = true ∧ x.pow.domains.getLsbD d = false) ∧
    ((tState.mod .a (fun x => x.modEngine 16 (fun e => { e with st := .off }))).half .a).wantDomain 17 = true := by
  decide +kernel

/-- The states of PWR_STATE_REQUEST, and a power state that is held (R495). -/
theorem test_power_held : pwrOf 0 = .run ∧ pwrOf 4 = .off ∧ pwrOf 1 ≠ (tState.half .a).pow.st ∧ pwrOf 0 = (tState.half .a).pow.st := by
  decide +kernel

/-- ThermalEventsComplete: each interval as it is reached, and the first estimate and one after it. -/
theorem test_thermal_hyps : let x := (tAt 600000000000 tState).half .a;
    x.alive = true ∧ x.powx.estAt + 10000000000 ≤ x.now ∧ x.powx.lastEst + 600000000000 ≤ x.now ∧ x.powx.probe = none ∧
    x.powx.est = none ∧ x.powx.lastCoolant + 3000000000 ≤ x.now ∧ 31 < x.powx.pairs.length ∧ 1 < x.powx.stks.length ∧
    ((2000 - 1850 : Int)).natAbs = 150 ∧
    ((tState.mod .a (fun x => { x with powx := { x.powx with est := some (1850, 1000, 900, 400) } })).half .a).powx.est =
      some (1850, 1000, 900, 400) := by
  decide +kernel

/-- R507, R508: 110 °C in one sensor of a pair is a hot spot and slow; one below 105 °C is no longer slow. -/
theorem test_hot_spot :
    (({} : HotSpot).sample 0 1760 400).slow = true ∧ (({ slow := true } : HotSpot).sample 0 1679 1679).slow = false ∧
    (({ slow := true } : HotSpot).sample 0 1680 1600).slow = true ∧ (({} : HotSpot).sample 0 1759 0).hot = false := by
  decide +kernel

/-- ResetsKeepWhatIsRetained: a device without power, one with power, and a half held by its pin. -/
theorem test_reset_hyps :
    State.reset.dev.pwrOk = false ∧ State.reset.a.powx.inReset = false ∧ tState.dev.pwrOk = true ∧ (tState.half .a).powx.inReset = false ∧
    (tState.half .b).alive = true ∧ handoffLink < (tState.half .b).links.recs.length ∧
    ((tState.mod .a (fun x => { x with powx := { x.powx with inReset := true } })).half .a).powx.inReset = true := by
  decide +kernel

/-- R544: the rise of PWR_OK starts the boots, which BOOT_COUNT counts. -/
theorem test_power_on : ∃ t, exec (.devicePowerOn true true true true) State.reset = .next t ∧ t.a.sec.bootCount = 1 ∧ t.dev.pwrOk = true :=
  ⟨_, rfl, by decide +kernel, by decide +kernel⟩

/-- WakesAndSubsystemResetsComplete: a timer, a pulsed line, a latched wake, wakes that do nothing, and wakes from HIBERNATE and OFF; a
command past twice its budget and 10 ms; the subsystem resets of a pair and of a unit. -/
theorem test_wake_hyps :
    (let x := (tState.mod .a (fun x => { x with powx := { x.powx with
        wakeAt := some 1, wakeLine := true, holdSlot := some (0, 0, .off) } })).half .a;
      x.powx.wakeAt.isSome = true ∧ x.powx.wakeLine = true ∧ x.powx.holdSlot.isSome = true) ∧
    (∀ p ∈ [PwrState.hibernate, .off], let s := tState.mod .a (fun x => { x with
        pow := { x.pow with st := p }, powx := { x.powx with saved := some {} } });
      let x := s.half .a;
      x.powx.holdSlot = none ∧ x.umpx.safe = false ∧ x.powx.inReset = false ∧ s.dev.pwrOk = true ∧ x.powx.saved = some {} ∧
        (∀ q ∈ x.svc.running, x.imageOk s.dev.serial q.1 q.2 = true)) ∧
    ((tState.half .a).powx.holdSlot = none ∧ (tState.half .a).pow.st ≠ .hibernate ∧ (tState.half .a).pow.st ≠ .off) ∧
    (∀ code ∈ [4, 5, 6], let x := (tState.mod .a (fun x => { x with powx := { x.powx with subReset := [code] } })).half .a;
      x.alive = true ∧ code ∈ x.powx.subReset) := by
  decide +kernel

/-- PowerMessagesComplete: a pending lifecycle request, and a half out of the other's reach and in it. -/
theorem test_power_more :
    (({ (tState.half .a) with sec := { (tState.half .a).sec with pendLife := some (0, 0, []) } } : Half).sec.pendLife.isSome = true) ∧
    (let x := (tState.mod .a (fun x => { (x.modLink handoffLink (fun k => { k with st := .down })) with ump := { x.ump with peerBus := false } })).half .a;
      otherState x (tState.half .b) = 7 ∧ x.handoffStands = false) ∧
    otherState (tState.half .a) (tState.half .b) ≠ 7 ∧ (tState.half .a).handoffStands = true := by
  decide +kernel

/-- WakesAndSubsystemResetsComplete: the wake timer before, at and past its time; a command past twice its budget and 10 ms. -/
theorem test_wake_more :
    (∀ t ∈ [0, 5, 6], (({ ((tAt 5 tState).half .a) with powx := { ((tAt 5 tState).half .a).powx with wakeAt := some t } } : Half).powx.wakeAt = some t)) ∧
    ((tAt 5 tState).half .a).ump.clock = 5 ∧
    (let x := (tAt 60000000 (tCmd 3 (tDesc 8 1 []) (fun c => { c with st := .running }) tState)).half .a;
      x.captainRuns = true ∧ (x.cmd 3).any (fun c => c.started + (2 * budgetUs c * 1000 + 10000000) ≤ x.now &&
        (x.subsystemOf c).isSome) = true) := by
  decide +kernel

/-! ### Security -/

/-- Context 1's page 2 holds an unsigned request of 128 bytes: its KIND, HALF_MASK, ARG0, ARG1 and DURATION_S, for serial number 7; the
half's lifecycle state is `life`, and
the context is the system client's. -/
def tRequest (life kind mask a0 a1 dur : Nat) (s : State) : State :=
  let t := (tMem [(0x100000, 24, kind + 0xFF * 2 ^ 16 + mask * 2 ^ 24 + 7 * 2 ^ 64 + a0 * 2 ^ 128 + a1 * 2 ^ 136 + dur * 2 ^ 160)] s);
  let t := t.mod .a (fun x => { x with sec := { x.sec with life := life }, sched := { x.sched with ctxs := [{ id := 1, client := 0 }] } });
  { t with dev := { t.dev with serial := 7 } }

/-- A message of the system client in the long form, with INPUT_ADDR 0x100000 and an input of `n` bytes. -/
def tLong (op n : Nat) : BitVec 512 := tMsg op 0 1 0x18 (0x100000 + n * 2 ^ 64) ||| 0x10000

/-- SecurityCommandsComplete: in MANUFACTURE a request to generate the device key, in FIELD-DEBUG the return to FIELD, and a debug request of
each level in MANUFACTURE, unsigned. -/
theorem test_request_hyps :
    (∀ p ∈ [(0, 1, 1, 0, 1, 0), (3, 1, 3, 2, 0, 0)],
      let s := tPost .a 5 (tLong 0x0602 128) (tRequest p.1 p.2.1 p.2.2.1 p.2.2.2.1 p.2.2.2.2.1 p.2.2.2.2.2 tState);
      let x := s.half .a;
      let m := x.msg 5;
      let b := x.vread (msgCtx m) (inAddr m) (inLen m);
      x.sendsLong 5 0x0602 67108864 = true ∧ inLen m = 128 ∧ outLen m = 0 ∧ (decide (rq b 0 2 = 3) || decide (rqArg1 b = 2)) = false ∧
        worst (x.requestChecks s.dev.serial [1, 3] b (x.lifeAllows b) false (0, 0)) = none ∧ (rqArg1 b ≠ 0 → rqArg0 b = 0) ∧ rq b 0 2 ≠ 3 ∧
        s.securityBusy = false ∧ s.otherMissing .a (rqMask b) = false ∧
        ((decide (rqArg1 b = 1) || (decide (rqArg1 b = 0) && decide (rqArg0 b = 4))) = false → rqMask b = 3) ∧ x.sec.pendLife = none ∧
        ¬ (rq b 0 2 = 1 ∧ rqArg1 b = 0 ∧ rqArg0 b = 3)) ∧
    (∀ p ∈ [(1, 1), (1, 86400), (2, 86400)],
      let s := { tPost .a 5 (tLong 0x0603 128) (tRequest 0 2 1 p.1 0 p.2 tState) with dev := { tState.dev with
                  serial := 7, mode := .solo, chain := .b } };
      let s := s.mod .a (fun x => { x with powx := { x.powx with held := true } });
      let x := s.half .a;
      let m := x.msg 5;
      let b := x.vread (msgCtx m) (inAddr m) (inLen m);
      x.sendsLong 5 0x0603 67108864 = true ∧ inLen m = 128 ∧
        worst (x.requestChecks s.dev.serial [2] b (x.debugSigner b &&
          !(decide (rqArg0 b = 2) && [HalfId.a, .b].any (fun g => decide ((s.half g).sec.life = 2)))) false (1, 86400)) = none ∧
        rqArg0 b = p.1 ∧ rqArg1 b = 0 ∧ s.securityBusy = false ∧ s.otherMissing .a (rqMask b) = false ∧ s.invasiveOk .a = true ∧
        rqMask b = 1) := by
  decide +kernel

/-- SecurityCommandsComplete: the first chunk of each request, the end of debug levels of both halves, a new nonce, a kept report, and the
certificate body. -/
theorem test_security_hyps :
    (∀ op ∈ [0x0602, 0x0603], ∀ p ∈ [(128, 4), (3412, 86)], let m := tMsg op 0 0 0x30 (p.2 * 2 ^ 16 + p.1 * 2 ^ 32);
      ((tPost .a 5 m tState).half .a).sends 5 op 0x30 = true ∧ pay m 4 32 = p.1 ∧ pay m 2 16 = p.2 ∧
      takeChunk none 5 op (pay m 0 16) (pay m 2 16) (pay m 4 32) 0 (chunkData m) =
        .more { slot := 5, opcode := op, next := 1, total := p.2, objLen := p.1, data := chunkData m, used := 0 }) ∧
    (∀ mask ∈ [0, 3], let m := tMsg 0x0604 0 0 1 mask;
      ((tPost .a 63 m tState).half .a).sends 63 0x0604 1 = true ∧ pay m 0 8 = mask ∧ tState.otherMissing .a mask = false) ∧
    (∀ p ∈ [(0, 0, 9, 1), (1, 3, 0, 0)], let m := tMsg 0x0601 0 0 0x28 (p.1 + p.2.1 * 2 ^ 16 + p.2.2.1 * 2 ^ 64);
      let x := (tPost .a 63 m (tState.mod .a (fun x => { x with sec := { x.sec with
        devKey := some 1, life := p.2.2.2, report := some (8, []), bucket := 16 } }))).half .a;
      x.sends 63 0x0601 0x28 = true ∧ worst (attestChecks x m) = none ∧ x.cached (rq (attestReq x m) 8 32) = false) ∧
    (let m := tMsg 0x0601 0 0 0x28 (94 * 2 ^ 16 + 9 * 2 ^ 64);
      let x := (tPost .a 63 m (tState.mod .a (fun x => { x with sec := { x.sec with life := 1, devKey := some 1, report := some (9, []) } }))).half .a;
      x.sends 63 0x0601 0x28 = true ∧ worst (attestChecks x m) = none ∧ x.cached (rq (attestReq x m) 8 32) = true) := by
  decide +kernel

/-- SecurityCommandsComplete: the block's events as their times are reached. -/
theorem test_security_event_hyps :
    let x := (tAt 60000000000 (tState.mod .a (fun x => { x with sec := { x.sec with
      keygen := true, leaves := 512, life := 3, fdTime := 60, fdMark := 0, debug := 2, debugEnd := 60000000000, bucket := 15, refill := 0
      upload := some { slot := 5, opcode := 0x0602, next := 1, total := 4, objLen := 128, data := [], used := 50000000000 } } }))).half .a;
    x.umpireRuns = true ∧ x.sec.keygen = true ∧ 512 ≤ x.sec.leaves % 1024 ∧ x.alive = true ∧ x.sec.life = 3 ∧
      x.sec.fdMark + 60000000000 ≤ x.now ∧ x.sec.fdMark + x.sec.fdTime * 1000000000 ≤ x.now ∧ x.sec.debug = 2 ∧ x.sec.debugEnd ≤ x.now ∧
      x.sec.bucket < 16 ∧ x.sec.refill + 1000000000 ≤ x.now ∧
      x.sec.upload.any (fun k => decide (k.used + 10000000000 ≤ x.now)) = true := by
  decide +kernel

/-- SecurityCommandsComplete: a report in the long form, and INVASIVE and OBSERVE at the ends of their times. -/
theorem test_attest_more :
    (let x := ((tPost .a 5 (tMsg 0x0601 0 1 0x18 (0x100000 + 0x28 * 2 ^ 64 + 3796 * 2 ^ 96 + 0x200000 * 2 ^ 128) ||| 0x10000)
        (tMem [] tState)).mod .a (fun x => { x with
          sec := { x.sec with devKey := some 1, life := 1, bucket := 16 }, sched := { x.sched with ctxs := [{ id := 1, client := 0 }] } })).half .a;
      x.sendsLong 5 0x0601 67108864 = true ∧ worst (attestChecks x (x.msg 5)) = none) ∧
    (let x := (tAt 60000000000 (tState.mod .a (fun x => { x with sec := { x.sec with debug := 1, debugEnd := 60000000000 } }))).half .a;
      x.sec.debug = 1 ∧ x.sec.debugEnd ≤ x.now) := by
  decide +kernel

/-! ### Overlays, images and evacuation -/

/-- A removal, at the first and last slot; the chunks of a transfer; a table; a stage that has been idle. -/
theorem test_overlay_hyps :
    (∀ n ∈ [0, 7], let m := tMsg 0x0301 0 0 2 (1 + n * 2 ^ 8);
      ((tPost .a 5 m tState).half .a).sends 5 0x0301 2 = true ∧ pay m 0 8 = 1 ∧ pay m 1 8 = n ∧ worst (tState.heldChecks .a n) = none) ∧
    (∀ op ∈ [0x0301, 0x0401], let m := tMsg op 0 0 0x30 (104 * 2 ^ 32);
      ((tPost .a 5 m tState).half .a).sends 5 op 0x30 = true ∧ tState.changing = false ∧ tState.substituting = false ∧ pay m 0 32 = 0 ∧
      takeChunk none 5 op (pay m 0 32) (pay m 4 32) 0 0 (chunkData m) =
        .more { slot := 5, opcode := op, next := 1, total := 104, objLen := 0, data := chunkData m, used := 0 }) ∧
    (∀ n ∈ [0, 7], let m := tMsg 0x0302 0 0 1 n; ((tPost .a 63 m tState).half .a).sends 63 0x0302 1 = true ∧ pay m 0 8 = n) ∧
    (let x := (tAt 10000000000 (tState.mod .a (fun x => { x with svc := { x.svc with stage := some { used := 0 } } }))).half .a;
      x.svc.stage = some { used := 0 } ∧ 0 + 10000000000 ≤ x.now) := by
  decide +kernel

/-- A message in the long form that names an image of 0x1040 bytes, of a kind and signer, in context 1 of the system client. -/
def tStage (op kind signer : Nat) : State :=
  let s := (tMem [(0x100000, 64, 0x5650494D + kind * 2 ^ 32 + signer * 2 ^ 48 + 64 * 2 ^ 192), (0x101000, 64, 1 + 2 * 2 ^ 24)] tState).mod .a
    (fun (x : Half) => { x with sched := { x.sched with ctxs := [{ id := 1, client := 0 }] } })
  tPost .a 5 (tMsg op 0 1 0x18 (0x100000 + 0x1040 * 2 ^ 64) ||| 0x10000) s

/-- OverlayAndImageMessagesComplete: a whole overlay and whole images in the long form. Whether their checks pass hangs on a signature and a
hash, which are opaque. -/
theorem test_long_image_hyps :
    (∀ p ∈ [(0x0301, 0x11, 67108864), (0x0401, 0x10, 0x10001000), (0x0401, 1, 0x10001000)], let x := (tStage p.1 p.2.1 1).half .a;
      let m := x.msg 5;
      x.sendsLong 5 p.1 p.2.2 = true ∧ outLen m = 0 ∧ inLen m = 0x1000 + imgLen (x.vread (msgCtx m) (inAddr m) 0x20) ∧
        imgKind (x.vread (msgCtx m) (inAddr m) 0x20) = p.2.1) ∧
    slotKinds.contains 0x10 = true ∧ slotKinds.contains 1 = true ∧ (tState.half .a).activating 0x10 = false := by
  decide +kernel

/-- OverlayAndImageMessagesComplete: an image of a signer that does not exist fails. -/
theorem test_image_fails (i : List Byte) (hi : bytesAt i 0x06 1 = 3) :
    ∃ c, worst ((tState.half .a).imageChecks 0 1 0x10000000 i) = some c := by
  refine Option.ne_none_iff_exists'.mp (fun h => ?_)
  have h := worst_eq_none.mp h _ (List.mem_cons_self ..)
  have hd : (tState.half .a).signerDenied 1 3 = true := by decide +kernel
  simp [hi, hd] at h

/-- OverlayAndImageMessagesComplete: the other half's Captain finds a removal held for a slot of its own, and one that it can confirm. -/
theorem test_confirm_hyps : let e : Held := { slot := 3 };
    let s := tState.mod .a (fun x => { x with svc := { x.svc with held := [e] } });
    let x := s.half .a;
    s.paired = true ∧ x.alive = true ∧ (s.half .b).alive = true ∧ x.handoffUp = true ∧ x.svc.held.find? (fun e => e.confirmed.isNone) = some e ∧
      worst [{ bad := (s.half .b).svc.held.any (fun k => k.slot = e.slot), st := stBusy, retry := some 1000000 }] = none ∧
      (worst [{ bad := ((s.mod .b (fun y => { y with svc := { y.svc with held := [e] } })).half .b).svc.held.any (fun k => k.slot = e.slot)
                st := stBusy, retry := some 1000000 }]).isSome = true := by
  decide +kernel

/-- ActivationAndEvacuationComplete: each class of kinds, on a half held for update, and engine microcode also in DOZE, whose inactive slot
holds an image that
verifies, which hangs on opaque parts. -/
theorem test_activation_hyps (i : List Byte) (hi : ∀ x : Half, ∀ kind, x.imageOk 0 kind i = true) :
    (∀ kind ∈ slotKinds, let m := tMsg 0x0402 0 0 2 kind;
      let x := ((tPost .a 5 m tState).mod .a (fun x => { x with powx := { x.powx with held := true } })).half .a;
      x.sends 5 0x0402 2 = true ∧ pay m 0 16 = kind ∧ kind ∉ x.svc.selB ∧ x.activating kind = false ∧ x.powx.held = true) ∧
    tState.changing = false ∧ tState.substituting = false ∧
    (∀ kind ∈ slotKinds, ∀ y, y = (tState.half .a) → (({ y with svc := { y.svc with flashB := [(kind, i)] } } : Half).goodSlot 0
      kind true).isSome = true) := by
  refine ⟨by decide +kernel, by decide +kernel, by decide +kernel, fun kind hk y hy => ?_⟩
  subst hy
  have hn : (tState.half .a).svc.invalid = [] := by decide +kernel
  simp only [Half.goodSlot, Half.flashSlot, hn]
  simp
  exact hi _ _

/-- An evacuation of one region of context 1, with or without CHAIN, to a peer that is admitted. -/
def tEvac (chain n : Nat) : State :=
  let s := (tMem [(0x100000, 4, chain + n * 2 ^ 16), (0x100040, 8, 1), (0x100048, 16, 0x100000 + 64 * 2 ^ 64)] tState).mod .a (fun x => { x with
    sched := { x.sched with ctxs := [{ id := 1, client := 0 }] }, ptn := { x.ptn with admitted := true }
    cfg := { x.cfg with evacReceiver := true }, tim := { x.tim with st := .synced } });
  tPost .a 5 (tMsg 0x0405 0 1 0x18 (0x100000 + (64 + 32 * n) * 2 ^ 64) ||| 0x10000) s

/-- ActivationAndEvacuationComplete: an evacuation of a region with and without the chain, and of none; ACCEPT in time, and a receiver. -/
theorem test_evacuation_hyps :
    (∀ p ∈ [(0, 1), (1, 1), (0, 0)], let s := tEvac p.1 p.2;
      let x := s.half .a;
      let m := x.msg 5;
      let b := x.vread (msgCtx m) (inAddr m) (inLen m);
      x.sendsLong 5 0x0405 67108864 = true ∧ outLen m = 0 ∧ bytesAt b 2 2 = p.2 ∧ inLen m = 64 + 32 * bytesAt b 2 2 ∧ x.evacOk b = true ∧
        s.dev.chain = .a ∧ s.dev.evacuated = false ∧ s.evacReady .a (decide (bytesAt b 0 1 % 2 = 1)) true (some x.tim.gm) = true ∧
        (evacRegions b).any (fun r => (x.firstBad r.1 [(r.2.2.1, r.2.2.2)]).isSome) = false) ∧
    (let x := (tEvac 0 1).half .a;
      x.alive = true ∧ x.ptn.admitted = true ∧ x.cfg.evacReceiver = true ∧ (x.link tetherLink).works = true ∧ x.tetherRefused true = false ∧
        x.st + 1000000 ≤ x.boundaryNs (x.frame + 1)) := by
  decide +kernel

/-- OverlayAndImageMessagesComplete: UPD_STAGE while the mode changes, while the chain is substituted, of kinds without slots and of one whose
activation runs. ActivationAndEvacuationComplete: a region with an uncorrectable block, an evacuation at step 4 whose checkpoint has been
sent, and engine microcode outside DOZE. -/
theorem test_stage_refused :
    ({ tState with dev := { tState.dev with change := some {} } } : State).changing = true ∧
    (tState.mod .a (fun x => { x with umpx := { x.umpx with sub := .restored } })).substituting = true ∧
    slotKinds.contains 0x11 = false ∧ slotKinds.contains 0x99 = false ∧
    (({ (tState.half .a) with svc := { (tState.half .a).svc with upd := some { kind := 5 } } } : Half).activating 5 = true) ∧
    (let s := (tEvac 0 1).mod .a (fun x => { x with mem := { x.mem with bad := [{ stack := 0, frame := 600, block := 0 }] } });
      let x := s.half .a;
      (evacRegions (x.vread 1 0x100000 96)).any (fun r => (x.firstBad r.1 [(r.2.2.1, r.2.2.2)]).isSome) = true) ∧
    (let s := (tEvac 1 1).mod .a (fun x => { x with ump := { x.ump with checkpoints := [{ frame := x.frame }] } });
      let x := s.half .a;
      x.alive = true ∧ x.ptn.admitted = true ∧ x.evacSent { half := .a, slot := 5 } = true) ∧
    (tState.half .a).pow.st ≠ .doze := by
  decide +kernel

/-! ### The control space and the TAP -/

/-- RegisterStoresFollowTheirFields: a tool's store beside its pages, accesses that do not fit, and the last offsets of each range. -/
theorem test_store_hyps :
    toolPage 0x140000 = false ∧ toolPage 0x13C080 = true ∧ (tState.half .a).alive = true ∧ aligned 0x140004 8 = false ∧ assigned 0x800000 = false ∧ assigned 0xFFFF8 = false ∧
    (∀ off ∈ [0x600000, 0x6FFFF8, 0x1000000, 0x21FFFF8], assigned off = true ∧ aligned off 8 = true) ∧
    (tState.half .a).toolIgnored (.core 15 1) = false ∧ (0x1FF : Nat).testBit 8 = true ∧ (0xFF : Nat).testBit 8 = false ∧
    600 ≤ (600 : BitVec 16).toNat ∧ (2400 : BitVec 16).toNat ≤ 2400 ∧ (599 : BitVec 16).toNat < 600 := by
  decide +kernel

/-- RemoteAccessesAndTapFollowTheirReach: with the link and without it; the debug levels; a half in OFF; a mapped address. -/
theorem test_control_hyps :
    (tState.half .a).coreRuns 15 = true ∧ tState.farCut .a = false ∧
    (tState.mod .a (fun x => x.modLink handoffLink (fun l => { l with st := .disabled }))).farCut .a = true ∧
    aligned 0x140008 8 = true ∧ assigned 0x140008 = true ∧ toolPage 0x140008 = false ∧
    (let x := (tState.mod .a (fun x => { x with pow := { x.pow with st := .off } })).half .a;
      x.pow.st = .off ∧ x.umpx.safe = false) ∧
    (tState.half .a).sec.debug = 0 ∧
    (∀ d ∈ [1, 2], ((tState.mod .a (fun x => { x with sec := { x.sec with debug := d } })).half .a).sec.debug = d) ∧
    (((tMap tState).half .a).mapped 1 0x100000 8 = true) := by
  decide +kernel

/-! ### Commands whose operands lie outside their ranges are refused by WellFormed -/

/-- Who sends, and through which aperture. -/
theorem test_wf_agents : Agent.wf (.core 16 0) = false ∧ Agent.wf (.core 15 256) = false ∧ Agent.wf (.pair 2) = false ∧ Agent.wf (.tool 128) = false ∧
    Aperture.wf (.system 16) = false ∧ Aperture.wf (.client 16) = false ∧ Aperture.wf (.window 2) = false ∧ Aperture.wf (.tcm 2) = false ∧
    Agent.wf (.core 15 255) = true ∧ Aperture.wf (.tcm 1) = true := by decide

/-- A copy, a signal, an answer, a capture and a gPTP message within their ranges. -/
def tCopyIn : RemoteCopy := { client := 255, window := 255, rows := [] }
/-- A signal. -/
def tSignalIn : RemoteSignal := { client := 255, slot := 1023, value := 0 }
/-- An answer. -/
def tAnswerIn : RemoteAnswer := { cmd := 0, status := 0, retry := 0 }
/-- A capture. -/
def tCapIn : Capture := { source := 63, select := 0, time := 0, mediaTs := 0, w := 0, h := 0, data := [], ecc := 0, crc := 0, cut := false }
/-- A gPTP message. -/
def tPtpIn : Ptp := { port := 4, src := 0, domain := 0, seq := 65535, ok := true, t := 0 }

/-- What comes over the Tether. -/
theorem test_wf_tether : RemoteCopy.wf { tCopyIn with client := 256 } = false ∧ RemoteCopy.wf { tCopyIn with window := 256 } = false ∧ RemoteSignal.wf { tSignalIn with client := 256 } = false ∧
    RemoteSignal.wf { tSignalIn with slot := 1024 } = false ∧ RemoteAnswer.wf { tAnswerIn with status := 3 } = false ∧ RemoteAnswer.wf { tAnswerIn with status := 65536 } = false ∧ RemoteAnswer.wf { tAnswerIn with retry := 2 ^ 32 } = false ∧ tCopyIn.wf = true ∧ tSignalIn.wf = true ∧ tAnswerIn.wf = true ∧ tCapIn.wf = true ∧ tPtpIn.wf = true := by
  decide +kernel

/-- Sites of errors, readers and what a scrub finds. -/
theorem test_wf_sites : CorrSite.wf (.dram 2 0 0 0) = false ∧ CorrSite.wf (.dram 0 64373 0 0) = false ∧ CorrSite.wf (.dram 0 0 8192 0) = false ∧
    CorrSite.wf (.dram 1 64372 8191 64) = false ∧ CorrSite.wf (.cache 12 0 0) = false ∧ CorrSite.wf (.cache 11 0 16) = false ∧
    CorrSite.wf (.scratch 18) = false ∧ CorrSite.wf (.store 2 0) = false ∧ CorrSite.wf (.store 7 0) = false ∧ SramSite.wf (.cleanLine 12) = false ∧
    SramSite.wf (.dirtyLine 11 4096 0) = false ∧ SramSite.wf (.syncWord 0 16 0) = false ∧ SramSite.wf (.syncWord 0 0 65536) = false ∧
    UeReader.wf (.command 0 (2 ^ 48)) = false ∧ UeReader.wf (.readBack 2 0 0) = false ∧ Scrub.wf (.corrected 64) = false := by
  decide +kernel

/-- What comes in from endpoints, sources, ports and the TAP. -/
theorem test_wf_inputs : EndpointReq.wf (.read 4096 0 1) = false ∧ EndpointReq.wf (.read 0 (2 ^ 48) 1) = false ∧
    EndpointReq.wf (.write 0 (2 ^ 48) [0]) = false ∧ Capture.wf { tCapIn with source := 8 } = false ∧ Capture.wf { tCapIn with source := 64 } = false ∧
    Ptp.wf { tPtpIn with port := 5 } = false ∧ Ptp.wf { tPtpIn with src := 2 ^ 48 } = false ∧ Ptp.wf { tPtpIn with domain := 256 } = false ∧ Ptp.wf { tPtpIn with seq := 65536 } = false ∧
    TapOp.wf (.core 16 true) = false ∧ TapOp.wf (.pair 2 true) = false ∧ TapOp.wf (.load 0 3) = false ∧ TapOp.wf (.store 0 1 256) = false ∧
    TapOp.wf (.load 268435456 8) = false := by
  decide +kernel

/-- Slots, words, doorbells, queues, offsets, sizes and values of commands. -/
theorem test_wf_commands : Instr.wf (.sysNop .a 64) = false ∧ Instr.wf (.mbxInWrite .a (.core 0 0) 0 true 8 0) = false ∧
    Instr.wf (.mbxInWrite .a (.core 0 0) 0 false 16 0) = false ∧ Instr.wf (.mbxInWrite .a (.core 0 0) 0 false 15 0) = true ∧
    Instr.wf (.doorbellStore .a (.core 0 0) 4096 0) = false ∧ Instr.wf (.descriptorFetch .a 524288) = false ∧
    Instr.wf (.registerWrite .a (.core 0 0) 268435456 8 0) = false ∧ Instr.wf (.registerWrite .a (.core 0 0) 0 3 0) = false ∧
    Instr.wf (.registerWrite .a (.core 0 0) 0 4 (2 ^ 32)) = false ∧ Instr.wf (.qosRegisterWrite .a (.core 0 0) 1048576 8 0) = false ∧
    Instr.wf (.thmClusterMhzWrite .a (.core 0 0) 4 0) = false ∧ Instr.wf (.timSyncLoad .a (.core 0 0) 8 true) = false ∧
    Instr.wf (.nvctxWrite .a 16 0) = false ∧ Instr.wf (.apertureLoad .a (.tcm 0) 0 16) = false := by
  decide +kernel

/-- Units, windows, links, ports and lists of events. -/
theorem test_wf_events : Instr.wf (.warmup .a 18) = false ∧ Instr.wf (.decodeComplete .a 0 1024) = false ∧
    Instr.wf (.swdecDeadlineExpiry .a 1024) = false ∧ Instr.wf (.pairLockstepDisagree .a 2 true) = false ∧
    Instr.wf (.selftestIntervalMissed .a 10) = false ∧ Instr.wf (.portTransactionRequest .a 38 1 { target := .network } none none) = false ∧
    Instr.wf (.portTransactionRequest .a 37 0 { target := .network } none none) = false ∧ Instr.wf (.portTransactionRequest .a 37 4 { target := .network } none (some 16)) = false ∧
    Instr.wf (.scrubRead .a 2 0 0 .clean) = false ∧ Instr.wf (.siteDieWrite .a 4096 0 []) = false ∧ Instr.wf (.macTransmit .a 0 4 0) = false ∧
    Instr.wf (.announceReceiptTimeout .a 5) = false ∧ Instr.wf (.sidebandLoss .a 19) = false ∧ Instr.wf (.laneFaultDetected .a 0 256 true true) = false ∧
    Instr.wf (.partnerAbsentTimeout .a 256) = false ∧ Instr.wf (.temperatureSample .a [] []) = false ∧ Instr.wf (.domainPowerGood .a 56) = false ∧
    Instr.wf (.domainPowerGood .a 0) = false ∧ Instr.wf (.subsystemResetComplete .a 256) = false ∧ Instr.wf (.mgmtBusFramingError .a 128) = false := by
  decide

/-- Targets and levels of transactions, elements of a warm-up's output, departures, addresses of the maps, and the result of an evacuation's
copies. -/
theorem test_wf_structures : QTarget.wf (.dram 2) = false ∧ QTarget.wf (.slice 12) = false ∧ QTarget.wf (.slice 11) = true ∧
    RtFill.wf { camera := 256 } = false ∧ RtFill.wf { ether := 256 } = false ∧ RtFill.wf { cores := 256 } = false ∧ RtFill.wf { fusion := 256 } = false ∧
    WarmElem.wf { fmt := 0, y := 0, r := 0, mag := 0 } = false ∧ WarmElem.wf { fmt := 0x14, y := 2 ^ 32, r := 0, mag := 0 } = false ∧
    WarmElem.wf { fmt := 0x14, y := 0, yScale := 256, r := 0, mag := 0 } = false ∧ WarmElem.wf { fmt := 0x14, y := 0, r := 2 ^ 32, mag := 0 } = false ∧
    WarmElem.wf { fmt := 0x14, y := 0, r := 0, rScale := 256, mag := 0 } = false ∧ WarmElem.wf { fmt := 0x14, y := 0, r := 0, mag := 2 ^ 31 } = false ∧
    Instr.wf (.umpireVerdict .a 18 [{ fmt := 0x14, y := 0, r := 0, mag := 0 }]) = false ∧ Instr.wf (.umpireVerdict .a 17 []) = false ∧
    Instr.wf (.gptpSyncTransmit .a { port := 5, t := 0 }) = false ∧ Aperture.wf (.coreMap 16) = false ∧ Aperture.wf (.pairMap 2) = false ∧
    Instr.wf (.evacuate .a 64 true none 0) = false ∧ Instr.wf (.evacuate .a 63 true none 3) = false := by
  decide +kernel

/-- RemoteAccessesAndTapFollowTheirReach: EXTEST in MANUFACTURE, in RETURNED with INVASIVE, and where it does not answer. -/
theorem test_extest_hyps :
    (let x : Half := tState.half .a; x.sec.life = 0 ∧ x.sec.debug = 0) ∧
    (let x : Half := { (tState.half .a) with sec := { (tState.half .a).sec with life := 4, debug := 2 } };
      x.alive = true ∧ (x.sec.life = 0 ∨ x.sec.life = 4) ∧ (x.sec.debug = 0 ∨ x.sec.debug = 2)) ∧
    (let x : Half := { (tState.half .a) with sec := { (tState.half .a).sec with life := 2 } };
      x.alive = true ∧ ¬ (x.sec.life = 0 ∨ x.sec.life = 4)) := by
  decide +kernel

/-! ### Worked examples of the spec, and single commands -/

/-- spec/03_arithmetic_formats.md, the worked example's outputs: 11.25 is 0x53 in FP8 E4M3, 470 is 0x7E with SAT and NaN without, the largest
magnitude 11.25 of an MX block makes its scale byte 0x7A and its element 0x7B, and 11.25 is 0x4134 in BF16. -/
theorem test_formats_example :
    e4m3.encode true none (.fin false 45 (-2)) = (0x53, .none) ∧ e4m3.encode true none (.ofInt 470) = (0x7E, .sat) ∧
    e4m3.encode false none (.ofInt 470) = (0x7F, .nan) ∧
    (mxBlock 0x0A (.fin false 45 (-2) :: List.replicate 31 .zero)).1 = 0x7A ∧
    ((mxBlock 0x0A (.fin false 45 (-2) :: List.replicate 31 .zero)).2.headD (0, .none)).1 = 0x7B ∧
    bf16.encode true (some 0xFFFF) (.fin false 45 (-2)) = (0x4134, .none) := by
  decide +kernel

/-- The same example's operands: scale 0x7E times −2.0 of MXFP8, and the subnormal 0x1 of MXFP4 with scale 0x82. -/
theorem test_mx_elements : (f32code (decodeMx 0x0A 0xC0 0x7E)) = 0xBF800000 ∧ f32code (decodeMx 0x0D 0x1 0x82) = 0x40800000 := by
  decide +kernel

/-- spec/06_attention_and_kv.md: d = 128 with FP8 keys and values gives a PAGE_STRIDE of 16,384 bytes, MXFP8 16,896 and MXFP4 8,704. -/
theorem test_page_stride : [0x08, 0x0A, 0x0D].map (fun f => (({ d := 128, kFmt := f, vFmt := f } : Pool).stride)) = [16384, 16896, 8704] := by
  decide +kernel

/-- spec/02_captain_and_mailboxes.md, the worked example: claiming slot 12 with 0x107, and the fields of header words 0 and 1. -/
theorem test_slot_example : (∃ t, exec (.mbxOwnerClaim .a (.core 1 7) 12 0x07) tState = .next t ∧ (t.a.slot 12).st = .owned ∧
    (t.a.slot 12).ownerClient = 7) ∧
    (let m : Msg := 0x0000000000000007002A00200000003100040205;
      msgOp m = 0x0205 ∧ msgIrqDone m = true ∧ msgIrqAck m = false ∧ msgLong m = false ∧ msgLen m = 0x20 ∧ msgCtx m = 0x2A ∧ msgClient m = 7) :=
  ⟨⟨_, rfl, by decide +kernel, by decide +kernel⟩, by decide +kernel⟩

/-- spec/00_scope.md, the example of R9: a zero pool window height with no output channels gives ST_MALFORMED. -/
theorem test_malformed_before_empty :
    let x := (tGo 2 0x10 [(0x20, 0x100000), (0x38, 0x1000C0), (0x4E, 1), (0x4F, 1), (0x50, 1), (0x51, 1)] (tMem [
      tTensor 0x100000 0x110000 0x10 1 0 [(1, 16), (1, 16), (1, 16), (1, 16)],
      tTensor 0x1000C0 0x200000 0x14 1 0 [(1, 16), (1, 16), (0, 16), (1, 16)]] tState)).half .a;
    let d := (x.cmd 3).getD {};
    let tall := { d with desc := d.desc ^^^ BitVec.ofNat 1024 (2 ^ (8 * 0x4E)) };
    ∀ k, dataCmd (.poolMax .a 3) = some k → (worst (x.commonChecks tall ++ k.chk x tall)).map (·.st) = some stMalformed := by
  intro x d tall k hk
  cases hk
  decide +kernel

/-- The state after a data command has run and committed. -/
def tRun (c : Instr) (n : Nat) (s : State) : State :=
  match exec c s with
  | .next t => match exec (.commandCommit .a n) t with
    | .next u => u
    | _ => s
  | _ => s

/-- R321, R336: COPY writes what the source held when the command started. -/
theorem test_copy : let t := tRun (.copy .a 3) 3 (tGo 8 0x01 [(0x20, 0x100000), (0x28, 0x200000), (0x30, 3), (0x34, 2), (0x3C, 3)]
      (tMem [(0x100000, 6, 0x0605040302FF)] tState));
    t.a.vread 1 0x200000 6 = [0xFF, 2, 3, 0xFF, 2, 3] ∧ t.a.vread 1 0x200006 1 = [0] := by
  decide +kernel

/-- Table — Element-wise functions: 1.5 + 2 in BF16 with an FP32 output. -/
theorem test_elementwise : (tRun (.elementwise .a 3) 3 (tGo 1 0x10 [(0x20, 0x100000), (0x28, 0x100040), (0x38, 0x1000C0), (0x44, 1), (0x48, tOne)]
      (tMem [tTensor 0x100000 0x110000 0x10 0 0 [(1, 1), (1, 1)], tTensor 0x100040 0x110100 0x10 0 0 [(1, 1), (1, 1)],
        tTensor 0x1000C0 0x200000 0x14 0 0 [(1, 1), (1, 1)], (0x110000, 2, 0x3FC0), (0x110100, 2, 0x4000)] tState))).a.vnat 1 0x200000 4
      = 0x40600000 := by
  decide +kernel

/-- R299: FILL makes an EMPTY sync word FULL. -/
theorem test_fill : let t := tRun (.fill .a 3) 3 (tGo 9 0x01 [(0x20, 0x180008)] (tMem [] tState));
    t.a.mem.sync = [{ page := 0, word := 1, value := 0, full := true }] := by
  decide +kernel

/-- DataCommandsBegin: the backward pass over the sequence of one page, with its output and statistics at the auxiliary record. -/
theorem test_begin_attend_bwd :
    tBegins (.attendBwd .a 3) (tGo 3 0x21 [(0x20, 0x100240), (0x28, 0x100080), (0x30, 0x100080), (0x38, 0x100400), (0x40, 0x1000C0), (0x5C, tOne)]
      (tReg 1 (tMem (tAtt ++ [tPoolDesc, (0x100240, 64, tSeqRec + 1 * 2 ^ 192 + 1 * 2 ^ 224 + 1 * 2 ^ 256),
        (0x100400, 16, 0x100080 + 0x100440 * 2 ^ 64), tTensor 0x100440 0x110300 0x14 0 0 [(2, 1), (1, 2), (1, 2)],
        (0x280000, 65, 1 + 9 * 2 ^ 128 + 1 * 2 ^ 192), (0x2B0000, 8, 1)]) tState))) = true := by
  decide +kernel

/-- spec/05_convolution_path.md, the worked example: one command of the split convolution takes 925,448 cycles. -/
theorem test_conv_cycles :
    let x := (tGo 2 0x01 [(0x20, 0x100000), (0x28, 0x100040), (0x38, 0x1000C0)] (tMem [
      tTensor 0x100000 0x110000 0x02 1 0 [(256, 16), (2048, 4096), (96, 16), (1, 16)],
      tTensor 0x100040 0x110000 0x02 0 0 [(864, 1), (256, 864), (1, 1)],
      tTensor 0x1000C0 0x200000 0x02 1 2 [(256, 16), (512, 4096), (256, 16), (1, 16)]] tState)).half .a;
    (x.cmd 3).map (convCycles x) = some 925448 := by
  decide +kernel

/-- spec/04_tensor_engines.md, the worked example: an INT8 GEMM of M = 512, K = 2,048 and N = 1,024 takes 33,640 cycles. -/
theorem test_gemm_cycles :
    let t := fun (r c : Nat) => tdOf (BitVec.ofNat 512 (0x02 * 2 ^ 48 + 2 * 2 ^ 64 + (r + 2 ^ 32) * 2 ^ 128 + (c + r * 2 ^ 32) * 2 ^ 192));
    gemmCycles (t 2048 512) (t 2048 1024) (t 1024 512) 0 8 = 33640 := by
  decide +kernel

end Sys2Proof.Tests
end

section
/-! PROOFS. Messages that are answered without being executed (spec/02_captain_and_mailboxes.md R39, R45, R47): a check that denies a
message is the one reported, a repeat touches the mailbox block only, and either outcome of the shared course is that of the command. -/

namespace Sys2Proof.Machine

/-! ### The check that is reported -/

/-- ST_DENIED alone ranks first (R9). -/
theorem statusRank_eq_zero_iff {st : Nat} : statusRank st = 0 ↔ st = stDenied := by
  unfold statusRank
  (repeat' split) <;> simp_all

/-- A check that goes before another does not rank after it. -/
theorem Chk.statusRank_le_of_before {a b : Chk} (h : a.before b = true) : statusRank a.st ≤ statusRank b.st := by
  simp only [Chk.before, Bool.or_eq_true, Bool.and_eq_true, decide_eq_true_eq] at h
  omega

/-- A check that does not go before another does not rank ahead of it. -/
theorem Chk.statusRank_le_of_not_before {a b : Chk} (h : ¬ a.before b = true) : statusRank b.st ≤ statusRank a.st := by
  simp only [Chk.before, Bool.or_eq_true, Bool.and_eq_true, decide_eq_true_eq] at h
  omega

/-- No failing check ranks ahead of the one that is reported (R9). -/
theorem statusRank_worst_le {l : List Chk} {c d : Chk} (hw : worst l = some c) (hd : d ∈ l) (hb : d.bad = true) :
    statusRank c.st ≤ statusRank d.st := by
  induction l generalizing c with
  | nil => simp at hd
  | cons e l ih =>
    cases he : e.bad with
    | false =>
      have hmem : d ∈ l := (List.mem_cons.1 hd).resolve_left (fun h => by simp [← h, hb] at he)
      exact ih (by simpa [worst, he] using hw) hmem
    | true =>
      cases hl : worst l with
      | none =>
        have hde : d = e := (List.mem_cons.1 hd).resolve_right (fun h => by simp [worst_eq_none.1 hl d h] at hb)
        have hce : e = c := by simpa [worst, he, hl] using hw
        exact Nat.le_of_eq (by rw [hde, hce])
      | some k =>
        simp only [worst, he, hl] at hw
        have hrest : d ∈ l → statusRank k.st ≤ statusRank d.st := ih hl
        split at hw <;> cases hw <;> rcases List.mem_cons.1 hd with rfl | hmem
        · exact Chk.statusRank_le_of_before ‹_›
        · exact hrest hmem
        · exact Nat.le_refl _
        · exact Nat.le_trans (Chk.statusRank_le_of_not_before ‹_›) (hrest hmem)

/-- Where a check fails with ST_DENIED, that is the status reported, whatever else fails (R9). -/
theorem worst_of_denied {l : List Chk} {d : Chk} (hd : d ∈ l) (hb : d.bad = true) (hs : d.st = stDenied) :
    ∃ c, worst l = some c ∧ c.st = stDenied := by
  cases hw : worst l with
  | none => simp [worst_eq_none.1 hw d hd] at hb
  | some c =>
    have hle := statusRank_worst_le hw hd hb
    rw [statusRank_eq_zero_iff.2 hs, Nat.le_zero, statusRank_eq_zero_iff] at hle
    exact ⟨c, rfl, hle⟩

/-! ### A slot that is ready -/

/-- A message that is ready lies in a slot of the half (the default slot is FREE). -/
theorem Half.msgReady_slot_lt {x : Half} {slot op : Nat} (h : x.msgReady slot op = true) : slot < x.mbx.slots.length := by
  refine Nat.lt_of_not_le (fun hge => ?_)
  have hfree : (x.slot slot).st = .free := by simp only [Half.slot, List.getElem?_eq_none hge, Option.getD_none]
  simp [Half.msgReady, hfree] at h

/-- A message that is ready is of the opcode. -/
theorem Half.msgReady_op {x : Half} {slot op : Nat} (h : x.msgReady slot op = true) : msgOp (x.msg slot) = op := by
  simp only [Half.msgReady, Bool.and_eq_true, decide_eq_true_eq] at h
  exact h.1.2

/-! ### A repeat (R45) -/

/-- The end of a repeat changes the mailbox block and the interrupt lines only. -/
@[simp] theorem Half.finishReplay_frame (x : Half) (slot : Nat) :
    (x.finishReplay slot).mem = x.mem ∧ (x.finishReplay slot).sched = x.sched ∧ (x.finishReplay slot).ptn = x.ptn ∧
    (x.finishReplay slot).qos = x.qos ∧ (x.finishReplay slot).pow = x.pow ∧ (x.finishReplay slot).sec = x.sec := by
  unfold Half.finishReplay
  dsimp only
  split <;> simp

/-- A repeat makes its slot DONE and leaves the stored outbound message and MBX_LAST_SEQ. -/
theorem Half.finishReplay_slot {x : Half} {slot : Nat} (hk : slot < x.mbx.slots.length) (hf : (x.slot slot).freeOnDone = false) :
    (x.finishReplay slot).slot slot = { x.slot slot with st := .done, fromDone := false, started := false, waits := false } := by
  simp only [Half.finishReplay, apply_ite (fun y : Half => y.slot slot), Half.mbxIrq_slot, ite_self]
  exact (Half.modSlot_same x slot _ hk).trans (by simp [hf])

/-- The course of a message that is a repeat. -/
theorem State.runMsg_replay {s : State} {h : HalfId} {slot op : Nat} {f : Form} {chk : Half → Msg → List Chk}
    {act : State → Msg → Reply} (hr : (s.half h).msgReady slot op = true) (hp : ((s.half h).slot slot).isReplay = true) :
    s.runMsg h slot op f chk act = s.setHalf h ((s.half h).finishReplay slot) := by
  simp [State.runMsg, hr, hp]

/-! ### A denied message (R39, R47) -/

/-- The message of the slot is denied for its client, for its context or for its sender's rights. -/
def Half.Denies (x : Half) (slot op : Nat) : Prop :=
  msgClient (x.msg slot) ≠ (x.slot slot).ownerClient.toNat ∨
    ((msgCtx (x.msg slot) ≠ 0 ∨ ctxOp op = true ∨ msgLong (x.msg slot) = true) ∧
      x.ownsCtx (msgClient (x.msg slot)) (msgCtx (x.msg slot)) = false) ∨
    x.senderOk slot (msgClient (x.msg slot)) op = false

/-- One of the shared checks fails with ST_DENIED on a message that is denied. -/
theorem Half.Denies.exists_headCheck {x : Half} {slot op : Nat} (hd : x.Denies slot op) (hop : msgOp (x.msg slot) = op) (f : Form) :
    ∃ d ∈ x.headChecks slot (x.msg slot) f, d.bad = true ∧ d.st = stDenied := by
  subst hop
  rcases hd with hclient | ⟨hnames, hown⟩ | hsender
  · exact ⟨_, List.mem_append_left _ (.head _), decide_eq_true hclient, rfl⟩
  · refine ⟨_, List.mem_append_left _ (.tail _ (.tail _ (.tail _ (.head _)))), ?_, rfl⟩
    cases hneeds : ctxOp (msgOp (x.msg slot)) || msgLong (x.msg slot)
    · simp_all
    · simp [hown]
  · exact ⟨_, List.mem_append_left _ (.tail _ (.head _)), by simp [hsender], rfl⟩

/-- A message that ends with ST_DENIED carries no payload and no RETRY_AFTER (R41). -/
theorem Half.finishBad_denied {x : Half} {slot : Nat} {c : Chk} (hc : c.st = stDenied) :
    x.finishBad slot c = x.finish slot stDenied [] := by
  simp [Half.finishBad, hc, stDenied, stMalformed, stLimit, stBusy]

/-- The course of a message that is denied, whatever checks and effect its opcode has. -/
theorem State.runMsg_denied {s : State} {h : HalfId} {slot op : Nat} {f : Form} {chk : Half → Msg → List Chk}
    {act : State → Msg → Reply} (hr : (s.half h).msgReady slot op = true) (hp : ((s.half h).slot slot).isReplay = false)
    (hd : (s.half h).Denies slot op) :
    s.runMsg h slot op f chk act = s.mod h (fun x => x.finish slot stDenied []) := by
  obtain ⟨d, hmem, hbad, hst⟩ := hd.exists_headCheck (Half.msgReady_op hr) f
  obtain ⟨c, hw, hc⟩ := worst_of_denied (List.mem_append_left (chk (s.half h) ((s.half h).msg slot)) hmem) hbad hst
  simp [State.runMsg, hr, hp, hw, Half.finishBad_denied hc, State.mod]

/-- The end of a message leaves the security state. -/
@[simp] theorem Half.finish_sec (x : Half) (slot st : Nat) (fields : List (Nat × Nat × Nat)) : (x.finish slot st fields).sec = x.sec := by
  unfold Half.finish
  dsimp only
  split <;> simp

/-! ### The commands that execute a message -/

/-- A step that changes no debug level ends none, so no half reboots (R488). -/
theorem State.afterDebug_of_debug_eq {s t : State} (h : ∀ g, (t.half g).sec.debug = (s.half g).sec.debug) :
    State.afterDebug s t = t := by
  have hone : ∀ g, ((s.half g).sec.debug = 2 && (t.half g).sec.debug ≠ 2 && (t.half g).alive) = false := by
    intro g
    by_cases h2 : (s.half g).sec.debug = 2 <;> simp [h g, h2]
  simp only [State.afterDebug, hone, Bool.false_eq_true, if_false]

/-- An update that leaves the debug level of its half leaves that of both. -/
theorem State.setHalf_debug {s : State} {h : HalfId} {x : Half} (hx : x.sec = (s.half h).sec) (g : HalfId) :
    ((s.setHalf h x).half g).sec.debug = (s.half g).sec.debug := by
  by_cases hg : g = h
  · subst hg; simp [hx]
  · have : g = other h := by cases g <;> cases h <;> simp_all [other]
    subst this; simp

/-- A request that comes in a message takes the shared course (R481). -/
theorem State.runRequest_of_runMsg {s t : State} {h : HalfId} {slot op : Nat} {run : State → List Byte → Reply}
    (hrun : ∀ f chk act, s.runMsg h slot op f chk act = t) : s.runRequest h slot op run = t := by
  simp only [State.runRequest, hrun]

/-- A command that executes a message is the shared course of its slot and opcode, so what that course leaves whatever the form, the
checks and the effect, the command leaves. SEC_DEBUG_END alone looks at it once more, for the end of INVASIVE. -/
theorem exec_msgCmd {c : Instr} {h : HalfId} {slot op : Nat} {s t : State} (hc : msgCmd c = some (h, slot, op))
    (hrun : ∀ f chk act, s.runMsg h slot op f chk act = t) (hdebug : ∀ g, (t.half g).sec.debug = (s.half g).sec.debug) :
    exec c s = .next t := by
  cases c
  case secDebugEnd k slot' =>
    cases hc
    rw [exec_secDebugEnd, execSecDebugEnd, hrun, State.afterDebug_of_debug_eq hdebug]
  case secLifecycle k slot' | secDebugAuth k slot' =>
    cases hc
    exact congrArg Host.Outcome.next (State.runRequest_of_runMsg hrun)
  all_goals cases hc
  all_goals exact congrArg Host.Outcome.next (hrun _ _ _)

/-! ### The statement -/

/-- Settles O9: the shared course of every message answers a repeat from its slot and ends a denied message with the first of its
failing checks, before the checks and the effect of its opcode are looked at. -/
theorem repeatedAndDeniedMessagesAreNotExecuted : Obligations.RepeatedAndDeniedMessagesAreNotExecuted := by
  unfold Obligations.RepeatedAndDeniedMessagesAreNotExecuted
  constructor
  · intro c h slot op s hc hr hp hf
    have hslot := Half.finishReplay_slot (Half.msgReady_slot_lt hr) hf
    refine ⟨s.setHalf h ((s.half h).finishReplay slot), exec_msgCmd hc (fun _ _ _ => State.runMsg_replay hr hp)
      (State.setHalf_debug (by simp)), ?_⟩
    simp [hslot]
  · intro c h slot op s hc hr hp hd
    exact exec_msgCmd hc (fun _ _ _ => State.runMsg_denied hr hp hd) (State.setHalf_debug (by simp))

end Sys2Proof.Machine
end

section
/-! PROOFS. What every operation of a half keeps: HALF_ID, the number of its parts, and the canonical form of its memories. There is one lemma
per operation, in the order in which they call each other: where its argument keeps them, so does its result. -/

namespace Sys2Proof.Machine
open Sys2Proof.Laws.Memory

/-- What every operation of a half keeps: HALF_ID, the number of its parts, and the canonical form of its memories. -/
structure Half.Keeps (x y : Half) : Prop where
  me : y.me = x.me
  shaped : x.shaped = true → y.shaped = true
  canonical : x.canonical = true → y.canonical = true

theorem Half.Keeps.refl {x : Half} : x.Keeps x := ⟨rfl, id, id⟩

theorem Half.Keeps.trans {x y z : Half} (h : x.Keeps y) (k : y.Keeps z) : x.Keeps z :=
  ⟨k.me.trans h.me, k.shaped ∘ h.shaped, k.canonical ∘ h.canonical⟩

/-- A half is shaped by the number of its parts alone. -/
theorem Half.shaped_iff (x : Half) : x.shaped = true ↔
    x.mbx.slots.length = 64 ∧ x.sched.engines.length = 18 ∧ x.cores.app.length = 16 ∧ x.cores.pairs.length = 2 ∧
      x.qos.ports.length = 38 ∧ x.qos.classes.length = 8 ∧ x.links.recs.length = 19 ∧ x.timx.ports.length = 5 ∧
      x.ptn.entries.length = 256 := by
  simp only [Half.shaped, Bool.and_eq_true, decide_eq_true_eq, and_assoc]

/-- An update of fields that leaves the number of the parts and the memories. -/
theorem Half.Keeps.upd {x y : Half} (h : x.Keeps y) {free ident mbx sched mem qos cores links tim timx ptn ump umpx tests sec svc pow powx
    cfg cfgb frame frames captainBad}
    (e : (mbx.slots.length, sched.engines.length, cores.app.length, qos.ports.length, qos.classes.length, links.recs.length,
        timx.ports.length, ptn.entries.length, mem.cells, cores.pairs.map (·.tcm)) =
      (y.mbx.slots.length, y.sched.engines.length, y.cores.app.length, y.qos.ports.length, y.qos.classes.length, y.links.recs.length,
        y.timx.ports.length, y.ptn.entries.length, y.mem.cells, y.cores.pairs.map (·.tcm))) :
    x.Keeps (Half.mk y.me free ident mbx sched mem qos cores links tim timx ptn ump umpx tests sec svc pow powx cfg cfgb frame frames
      captainBad) := by
  simp only [Prod.mk.injEq] at e
  obtain ⟨hslots, hengines, happ, hports, hclasses, hrecs, htimx, hptn, hcells, hpairs⟩ := e
  have hlen : cores.pairs.length = y.cores.pairs.length := by simpa using congrArg List.length hpairs
  have hwf : cores.pairs.all (fun p => Memory.wf p.tcm) = y.cores.pairs.all (fun p => Memory.wf p.tcm) := by
    simpa only [List.all_map, Function.comp_def] using congrArg (fun l => l.all Memory.wf) hpairs
  refine h.trans ⟨rfl, fun e => ?_, fun e => ?_⟩
  · simp only [Half.shaped_iff] at e ⊢
    simpa only [hslots, hengines, happ, hlen, hports, hclasses, hrecs, htimx, hptn] using e
  · simpa only [Half.canonical, hcells, hwf] using e

theorem Half.Keeps.foldl {x y : Half} {α : Type} {f : Half → α → Half} {l : List α} (hf : ∀ z a, x.Keeps z → x.Keeps (f z a))
    (h : x.Keeps y) :
    x.Keeps (l.foldl f y) := by
  induction l generalizing y with
  | nil => exact h
  | cons a l ih => exact ih (hf y a h)

theorem Half.Keeps.ite {x y z : Half} {c : Prop} [Decidable c] (h : x.Keeps y) (k : x.Keeps z) : x.Keeps (if c then y else z) := by
  split
  · exact h
  · exact k

/-! ### The operations from which the others are made -/

@[simp] theorem Qos.modPort_ports_length (q : Qos) (p : Nat) (f : QPort → QPort) : (q.modPort p f).ports.length = q.ports.length := by
  simp [Qos.modPort]
@[simp] theorem Qos.modPort_classes (q : Qos) (p : Nat) (f : QPort → QPort) : (q.modPort p f).classes = q.classes := by
  simp [Qos.modPort]
@[simp] theorem Qos.modCls_ports (q : Qos) (c : Nat) (f : QClass → QClass) : (q.modCls c f).ports = q.ports := by
  simp [Qos.modCls]
@[simp] theorem Qos.modCls_classes_length (q : Qos) (c : Nat) (f : QClass → QClass) :
    (q.modCls c f).classes.length = q.classes.length := by
  simp [Qos.modCls]

/-- A new register file of the regulator with its ports and classes. -/
theorem Half.Keeps.withQos {x y : Half} {q : Qos} (h : x.Keeps y) (hp : q.ports.length = y.qos.ports.length)
    (hc : q.classes.length = y.qos.classes.length) : x.Keeps { y with qos := q } :=
  .upd h (by rw [hp, hc])

theorem Half.Keeps.modQos {x y : Half} {f} (h : x.Keeps y)
    (e : ((f y.qos).ports.length, (f y.qos).classes.length) = (y.qos.ports.length, y.qos.classes.length)) : x.Keeps (y.modQos f) :=
  .withQos h (congrArg Prod.fst e) (congrArg Prod.snd e)

/-- A pair's record changes, its memory staying canonical. -/
theorem Half.Keeps.modPair {x y : Half} {n : Nat} {f : RtPair → RtPair} (h : x.Keeps y)
    (hf : ∀ p : RtPair, Memory.wf p.tcm = true → Memory.wf (f p).tcm = true) : x.Keeps (y.modPair n f) := by
  refine h.trans ⟨rfl, fun e => ?_, fun e => ?_⟩
  · simp only [Half.shaped, Half.modPair, List.length_modify] at e ⊢
    exact e
  · simp only [Half.canonical, Half.modPair, Bool.and_eq_true, List.all_eq_true] at e ⊢
    refine ⟨e.1, fun p hp => ?_⟩
    obtain ⟨i, hi, rfl⟩ := List.mem_iff_getElem.1 hp
    rw [List.getElem_modify]
    split
    · exact hf _ (e.2 _ (List.getElem_mem _))
    · exact e.2 _ (List.getElem_mem _)

theorem Half.Keeps.pairLine {x y : Half} {n} (h : x.Keeps y) : x.Keeps (y.pairLine n) :=
  .modPair (f := fun r => { r with extIrq := true }) h fun _ => id

/-- Byte memory that stays canonical. -/
theorem Half.Keeps.withCells {x y : Half} {m : Mem} (h : x.Keeps y) (hm : Memory.wf y.mem.cells = true → Memory.wf m.cells = true) :
    x.Keeps { y with mem := m } := by
  refine h.trans ⟨rfl, id, fun e => ?_⟩
  simp only [Half.canonical, Bool.and_eq_true] at e ⊢
  exact ⟨hm e.1, e.2⟩

theorem Half.Keeps.vput {x y : Half} {ctx va b} (h : x.Keeps y) : x.Keeps (y.vput ctx va b) := by
  unfold Half.vput
  split
  · split
    · exact .withCells h (memWrite_wf _ _ _)
    · exact h
  · exact h

theorem Half.Keeps.switchedOff {x y : Half} (h : x.Keeps y) : x.Keeps y.switchedOff :=
  h.trans ⟨rfl, fun e => by simp [Half.shaped, Half.switchedOff] at e ⊢; simp [e], fun _ => rfl⟩

theorem Half.Keeps.putTpt {x y : Half} {t} (h : x.Keeps y) : x.Keeps (y.putTpt t) := by
  unfold Half.putTpt
  exact .upd h rfl

theorem Half.Keeps.mapPage {x x0 y : Half} {ctx r i} (h : x.Keeps y) : x.Keeps (mapPage x0 ctx r y i) := by
  unfold Machine.mapPage
  dsimp only
  split
  · split
    · exact .putTpt h
    · exact h
  · split
    · split
      · exact .putTpt (.upd h rfl)
      · exact h
    · split
      · exact .putTpt (.withCells h (memClear_wf _ _ _))
      · exact h

theorem imp_of_ite {α : Type} {c P : Prop} [Decidable c] {a b r : α} (ha : a = r → P) (hb : b = r → P) :
    (if c then a else b) = r → P := by
  split
  · exact ha
  · exact hb

theorem Half.qosPut_sizes {x : Half} {off size v : Nat} {q : Qos} (hq : x.qosPut off size v = some q) :
    q.ports.length = x.qos.ports.length ∧ q.classes.length = x.qos.classes.length := by
  revert hq
  unfold Half.qosPut
  dsimp only
  repeat' apply imp_of_ite
  all_goals intro hq; cases hq
  all_goals simp

theorem Half.Keeps.deliver {x y : Half} {core ident} (h : x.Keeps y) : x.Keeps (y.deliver core ident) := by
  unfold Half.deliver
  dsimp only
  exact .ite h (.upd h (by rfl))

theorem Half.Keeps.raise {x y : Half} {ident} (h : x.Keeps y) : x.Keeps (y.raise ident) := by
  unfold Half.raise
  exact .deliver h

theorem Half.Keeps.umpEvent {x y : Half} {i} (h : x.Keeps y) : x.Keeps (y.umpEvent i) := by
  unfold Half.umpEvent
  dsimp only
  exact .ite (.raise (.upd h (by rfl))) (.upd h (by rfl))

theorem Half.Keeps.freeToolSlots {x y : Half} {n} (h : x.Keeps y) : x.Keeps (y.freeToolSlots n) := by
  unfold Half.freeToolSlots
  dsimp only
  exact .upd h (by simp)

theorem Half.Keeps.modLink {x y : Half} {i f} (h : x.Keeps y) : x.Keeps (y.modLink i f) := by
  unfold Half.modLink
  dsimp only
  exact .upd h (by simp)

theorem Half.Keeps.lnkEvent {x y : Half} {i} (h : x.Keeps y) : x.Keeps (y.lnkEvent i) := by
  unfold Half.lnkEvent
  dsimp only
  exact .ite (.raise (.upd h (by rfl))) (.upd h (by rfl))

theorem Half.Keeps.linkSet {x y : Half} {i st} (h : x.Keeps y) : x.Keeps (y.linkSet i st) := by
  unfold Half.linkSet
  exact .ite h (.lnkEvent (.modLink h))

theorem Half.Keeps.modPartner {x y : Half} {n f} (h : x.Keeps y) : x.Keeps (y.modPartner n f) := by
  unfold Half.modPartner
  dsimp only
  exact .upd h (by simp)

theorem Half.Keeps.ptnAbsent {x y : Half} {n} (h : x.Keeps y) : x.Keeps (y.ptnAbsent n) := by
  unfold Half.ptnAbsent
  exact .modPartner h

theorem Half.Keeps.linkAdvisory {x y : Half} {i} (h : x.Keeps y) : x.Keeps (y.linkAdvisory i) := by
  unfold Half.linkAdvisory
  dsimp only
  exact .lnkEvent (.upd (.modLink h) (by rfl))

theorem Half.Keeps.linkDown {x y : Half} {i} (h : x.Keeps y) : x.Keeps (y.linkDown i) := by
  unfold Half.linkDown
  dsimp only
  refine .ite h (.ite (.ite (.ptnAbsent (.linkAdvisory (.linkSet (.modLink h)))) (.linkAdvisory (.linkSet (.modLink h)))) (.ite ?_ ?_))
  · exact .umpEvent (.ptnAbsent (.upd (.linkAdvisory (.linkSet (.modLink h))) (by rfl)))
  · exact .linkAdvisory (.linkSet (.modLink h))

theorem Half.Keeps.rearm {x y : Half} {ident} (h : x.Keeps y) : x.Keeps (y.rearm ident) := by
  unfold Half.rearm
  dsimp only
  exact .upd h (by rfl)

theorem Half.Keeps.announce {x y : Half} {ident} (h : x.Keeps y) : x.Keeps (y.announce ident) := by
  unfold Half.announce
  exact .raise (.rearm h)

theorem Half.Keeps.vioNew {x y : Half} {src cls code ans detail addr} (h : x.Keeps y) :
    x.Keeps (y.vioNew src cls code ans detail addr) := by
  unfold Half.vioNew
  dsimp only
  exact .announce (.upd h (by rfl))

theorem Half.Keeps.quarantine {x y : Half} {n cls code detail addr} (h : x.Keeps y) : x.Keeps (y.quarantine n cls code detail addr) := by
  unfold Half.quarantine
  dsimp only
  refine .ite ?_ ?_
  · refine .umpEvent (.ite ?_ ?_)
    · exact .foldl (fun _ _ k => .linkDown k) (.vioNew (.modPartner h))
    · exact .ite (.linkSet (.vioNew (.modPartner h))) (.ite (.freeToolSlots (.vioNew (.modPartner h))) (.vioNew (.modPartner h)))
  · refine .ite ?_ ?_
    · exact .foldl (fun _ _ k => .linkDown k) (.vioNew (.modPartner h))
    · exact .ite (.linkSet (.vioNew (.modPartner h))) (.ite (.freeToolSlots (.vioNew (.modPartner h))) (.vioNew (.modPartner h)))

theorem Half.Keeps.vioLog {x y : Half} {src cls code ans detail addr} (h : x.Keeps y) :
    x.Keeps (y.vioLog src cls code ans detail addr) := by
  unfold Half.vioLog
  dsimp only
  exact .ite (.upd h (by rfl)) (.vioNew h)

theorem Half.Keeps.violate {x y : Half} {src cls code ans detail addr} (h : x.Keeps y) :
    x.Keeps (y.violate src cls code ans detail addr) := by
  unfold Half.violate
  dsimp only
  split
  · exact .upd (.vioLog h) (by rfl)
  · exact .ite (.quarantine (.modPartner (.vioLog h))) (.modPartner (.vioLog h))
  · exact .vioLog h

theorem Half.Keeps.modPort {x y : Half} {p f} (h : x.Keeps y) : x.Keeps (y.modPort p f) := by
  unfold Half.modPort
  dsimp only
  exact .upd h (by simp)

theorem Half.Keeps.ringStep {x y : Half} {r} (h : x.Keeps y) : x.Keeps (y.ringStep r) := by
  unfold Half.ringStep
  dsimp only
  exact .modPort h

theorem Half.Keeps.noteWritten {x y : Half} {ctx ws} (h : x.Keeps y) : x.Keeps (y.noteWritten ctx ws) := by
  unfold Half.noteWritten
  dsimp only
  exact .ite h (.upd h (by rfl))

theorem Half.Keeps.mendBlocks {x y : Half} {ctx ws} (h : x.Keeps y) : x.Keeps (y.mendBlocks ctx ws) := by
  unfold Half.mendBlocks
  dsimp only
  exact .ite h (.upd h (by rfl))

theorem Half.Keeps.dropHot {x y : Half} {ctx ws} (h : x.Keeps y) : x.Keeps (y.dropHot ctx ws) := by
  unfold Half.dropHot
  dsimp only
  exact .ite h (.upd h (by rfl))

theorem Half.Keeps.dropResidents {x y : Half} {ctx pages} (h : x.Keeps y) : x.Keeps (y.dropResidents ctx pages) := by
  unfold Half.dropResidents
  dsimp only
  exact .upd h (by rfl)

theorem Half.Keeps.touch {x y : Half} {ctx dirty vas} (h : x.Keeps y) : x.Keeps (y.touch ctx dirty vas) := by
  unfold Half.touch
  dsimp only
  exact .upd h (by rfl)

theorem Half.Keeps.vputs {x y : Half} {ctx l} (h : x.Keeps y) : x.Keeps (y.vputs ctx l) := by
  unfold Half.vputs
  exact .foldl (fun _ _ k => .vput k) h

theorem Half.Keeps.commitBytes {x y : Half} {ctx ws} (h : x.Keeps y) : x.Keeps (y.commitBytes ctx ws) := by
  unfold Half.commitBytes
  exact .vputs (.touch (.dropResidents (.dropHot (.mendBlocks (.noteWritten h)))))

theorem Half.Keeps.ringDone {x y : Half} {r len err t'} (h : x.Keeps y) : x.Keeps (y.ringDone r len err t') := by
  unfold Half.ringDone
  dsimp only
  refine .ite ?_ ?_
  · refine .announce (.ringStep ?_)
    split
    · exact .commitBytes (.commitBytes h)
    · exact .commitBytes h
  · refine .ringStep ?_
    split
    · exact .commitBytes (.commitBytes h)
    · exact .commitBytes h

theorem Half.Keeps.toRing {x y : Half} {port f t'} (h : x.Keeps y) : x.Keeps (y.toRing port f t') := by
  unfold Half.toRing
  dsimp only
  split
  · exact h
  · exact .ite (.modPort h) (.ringDone (.ite (.commitBytes h) h))

theorem Half.Keeps.learn {x y : Half} {mac port} (h : x.Keeps y) : x.Keeps (y.learn mac port) := by
  unfold Half.learn
  dsimp only
  exact .ite h (.upd h (by rfl))

theorem Half.Keeps.sendOn {x y : Half} {p w} (h : x.Keeps y) : x.Keeps (y.sendOn p w) := by
  unfold Half.sendOn
  exact .modPort h

theorem Half.Keeps.bridgeLocal {x y : Half} {inPort f} (h : x.Keeps y) : x.Keeps (y.bridgeLocal inPort f) := by
  unfold Half.bridgeLocal
  dsimp only
  exact .ite h (.foldl (fun _ _ k => .ite (.sendOn k) k) h)

theorem Half.Keeps.relayOut {x y : Half} {from' r} (h : x.Keeps y) : x.Keeps (y.relayOut from' r) := by
  unfold Half.relayOut
  exact .foldl (fun _ _ k => .ite (.modPort k) k) h

theorem Half.Keeps.cause {x y : Half} {i on} (h : x.Keeps y) : x.Keeps (y.cause i on) := by
  unfold Half.cause
  dsimp only
  exact .upd h (by rfl)

theorem Half.Keeps.memErr {x y : Half} {kind where' loc owner} (h : x.Keeps y) : x.Keeps (y.memErr kind where' loc owner) := by
  unfold Half.memErr
  dsimp only
  exact .announce (.upd h (by rfl))

theorem Half.Keeps.modCmd {x y : Half} {n f} (h : x.Keeps y) : x.Keeps (y.modCmd n f) := by
  unfold Half.modCmd
  dsimp only
  exact .upd h (by rfl)

theorem Half.Keeps.tickSeq {x y : Half} (h : x.Keeps y) : x.Keeps y.tickSeq := by
  unfold Half.tickSeq
  dsimp only
  exact .upd h (by rfl)

theorem Half.Keeps.took {x y : Half} (h : x.Keeps y) : x.Keeps y.took := by
  unfold Half.took
  exact .upd h (by rfl)

theorem Half.Keeps.clientLines {x y : Half} {client} (h : x.Keeps y) : x.Keeps (y.clientLines client) := by
  unfold Half.clientLines
  exact .foldl (fun _ _ k => .ite (.pairLine k) k) h

theorem Half.Keeps.queueIrq {x y : Half} {client} (h : x.Keeps y) : x.Keeps (y.queueIrq client) := by
  unfold Half.queueIrq
  dsimp only
  exact .clientLines (.deliver (.rearm h))

theorem Half.Keeps.holdCmd {x y : Half} {c us} (h : x.Keeps y) : x.Keeps (y.holdCmd c us) := by
  unfold Half.holdCmd
  dsimp only
  exact .upd h (by rfl)

theorem Half.Keeps.modPipe {x y : Half} {f} (h : x.Keeps y) : x.Keeps (y.modPipe f) := by
  unfold Half.modPipe
  dsimp only
  exact .upd h (by rfl)

theorem Half.Keeps.modBatchSlot {x y : Half} {n s' f} (h : x.Keeps y) : x.Keeps (y.modBatchSlot n s' f) := by
  unfold Half.modBatchSlot
  exact .modPipe h

theorem Half.Keeps.beginDecodes {x y : Half} (h : x.Keeps y) : x.Keeps y.beginDecodes := by
  unfold Half.beginDecodes
  exact .foldl (fun _ _ k => .modBatchSlot k) h

theorem Half.Keeps.dropCmd {x y : Half} {n} (h : x.Keeps y) : x.Keeps (y.dropCmd n) := by
  unfold Half.dropCmd
  dsimp only
  exact .ite (.beginDecodes (.upd h (by rfl))) (.upd h (by rfl))

theorem Half.Keeps.modClient {x y : Half} {c f} (h : x.Keeps y) : x.Keeps (y.modClient c f) := by
  unfold Half.modClient
  dsimp only
  exact .upd h (by rfl)

theorem Half.Keeps.modQueue {x y : Half} {q f} (h : x.Keeps y) : x.Keeps (y.modQueue q f) := by
  unfold Half.modQueue
  dsimp only
  exact .upd h (by rfl)

theorem Half.Keeps.vwrite {x y : Half} {ctx va bs} (h : x.Keeps y) : x.Keeps (y.vwrite ctx va bs) := by
  unfold Half.vwrite
  exact .foldl (fun _ _ k => .vput k) h

theorem Half.Keeps.putRecord {x y : Half} {q client tag ringIdx inst status det0 det1} (h : x.Keeps y) :
    x.Keeps (y.putRecord q client tag ringIdx inst status det0 det1) := by
  unfold Half.putRecord
  dsimp only
  exact .modClient (.modQueue (.vwrite h))

theorem Half.Keeps.record {x y : Half} {c status det0 det1} (h : x.Keeps y) : x.Keeps (y.record c status det0 det1) := by
  unfold Half.record
  dsimp only
  refine .ite ?_ ?_
  · refine .queueIrq (.ite ?_ ?_)
    · refine .holdCmd (.dropCmd ?_)
      split
      · exact .putRecord h
      · exact h
    · refine .dropCmd ?_
      split
      · exact .putRecord h
      · exact h
  · refine .ite ?_ ?_
    · refine .holdCmd (.dropCmd ?_)
      split
      · exact .putRecord h
      · exact h
    · refine .dropCmd ?_
      split
      · exact .putRecord h
      · exact h

theorem Half.Keeps.failCmd {x y : Half} {c k'} (h : x.Keeps y) : x.Keeps (y.failCmd c k') := by
  unfold Half.failCmd
  refine .ite (.record h) (.ite ?_ (.record h))
  split
  · exact .record h
  · exact .record (.took h)

theorem Half.Keeps.setSync {x y : Half} {w} (h : x.Keeps y) : x.Keeps (y.setSync w) := by
  unfold Half.setSync
  dsimp only
  exact .upd h (by rfl)

theorem Half.Keeps.drainWord {x y : Half} {ctx va} (h : x.Keeps y) : x.Keeps (y.drainWord ctx va) := by
  unfold Half.drainWord
  split
  · exact .setSync h
  · exact h

theorem Half.Keeps.fillWord {x y : Half} {ctx va v} (h : x.Keeps y) : x.Keeps (y.fillWord ctx va v) := by
  unfold Half.fillWord
  split
  · exact .setSync h
  · exact h

theorem Half.Keeps.postOp {x y : Half} {c} (h : x.Keeps y) : x.Keeps (y.postOp c) := by
  unfold Half.postOp
  exact .ite (.fillWord h) (.ite (.drainWord h) h)

theorem Half.Keeps.modEngine {x y : Half} {n f} (h : x.Keeps y) : x.Keeps (y.modEngine n f) := by
  unfold Half.modEngine
  dsimp only
  exact .upd h (by simp)

theorem Half.Keeps.engineCommit {x y : Half} {c} (h : x.Keeps y) : x.Keeps (y.engineCommit c) := by
  unfold Half.engineCommit
  dsimp only
  split
  · exact h
  · exact .upd (.modEngine h) (by rfl)

theorem Half.Keeps.send {x y : Half} {m} (h : x.Keeps y) : x.Keeps (y.send m) := by
  unfold Half.send
  dsimp only
  exact .upd (.took h) (by rfl)

theorem Half.Keeps.frameCommit {x y : Half} (h : x.Keeps y) : x.Keeps y.frameCommit := by
  unfold Half.frameCommit
  dsimp only
  exact .ite (.send (.upd (.took h) (by rfl))) (.upd (.took h) (by rfl))

theorem Half.Keeps.compareCommit {x y : Half} {plan data} (h : x.Keeps y) : x.Keeps (y.compareCommit plan data) := by
  unfold Half.compareCommit
  dsimp only
  exact .ite (.ite (.send (.upd h (by rfl))) (.upd h (by rfl))) h

theorem Half.Keeps.markCaptures {x y : Half} {n} (h : x.Keeps y) : x.Keeps (y.markCaptures n) := by
  unfold Half.markCaptures
  dsimp only
  split
  · exact h
  · exact .upd h (by rfl)

theorem Half.Keeps.chainCommit {x y : Half} {c} (h : x.Keeps y) : x.Keeps (y.chainCommit c) := by
  unfold Half.chainCommit
  dsimp only
  exact .ite h (.ite (.markCaptures h) (.ite (.compareCommit h) (.ite (.frameCommit (.compareCommit h)) h)))

theorem Half.Keeps.noteRaces {x y : Half} {n ctx ws} (h : x.Keeps y) : x.Keeps (y.noteRaces n ctx ws) := by
  unfold Half.noteRaces
  dsimp only
  exact .ite h (.upd h (by rfl))

theorem Half.Keeps.defectSw {x y : Half} {gone} (h : x.Keeps y) : x.Keeps (y.defectSw gone) := by
  unfold Half.defectSw
  dsimp only
  split
  · exact h
  · exact .upd h (by rfl)

theorem Half.Keeps.detachSw {x y : Half} (h : x.Keeps y) : x.Keeps y.detachSw := by
  unfold Half.detachSw
  dsimp only
  exact .upd (.defectSw h) (by rfl)

theorem Half.Keeps.setFree {x y : Half} {ctx va take give} (h : x.Keeps y) : x.Keeps (y.setFree ctx va take give) := by
  unfold Half.setFree
  dsimp only
  exact .upd h (by rfl)

theorem Half.Keeps.applyEff {x y : Half} {e} (h : x.Keeps y) : x.Keeps (y.applyEff e) := by
  unfold Half.applyEff
  dsimp only
  split
  · exact h
  · exact .upd h (by rfl)
  · exact .upd h (by rfl)
  · exact .setFree h
  · exact .upd h (by rfl)
  · exact .upd h (by rfl)
  · exact .upd h (by rfl)
  · exact .detachSw h
  · exact .upd h (by rfl)
  · exact .upd h (by rfl)
  · exact .upd h (by rfl)
  · exact .upd h (by rfl)
  · exact .upd h (by rfl)
  · exact .upd h (by rfl)
  · exact .upd h (by rfl)
  · exact .upd h (by rfl)
  · exact .upd h (by rfl)
  · exact .upd h (by rfl)

theorem Half.Keeps.commit {x y : Half} {c} (h : x.Keeps y) : x.Keeps (y.commit c) := by
  unfold Half.commit
  dsimp only
  exact .record (.postOp (.chainCommit (.ite (.applyEff (.commitBytes (.noteRaces h))) (.engineCommit (.applyEff (.commitBytes
      (.noteRaces h)))))))

theorem Half.Keeps.syncCommit {x y : Half} {c} (h : x.Keeps y) : x.Keeps (y.syncCommit c) := by
  unfold Half.syncCommit
  dsimp only
  exact .commit (.ite (.fillWord h) (.ite (.drainWord h) h))

theorem Half.Keeps.stampReached {x y : Half} (h : x.Keeps y) : x.Keeps y.stampReached := by
  unfold Half.stampReached
  exact .foldl (fun _ _ k => .tickSeq (.modCmd k)) h

theorem Half.Keeps.moveLines {x y : Half} {lo nlo} (h : x.Keeps y) : x.Keeps (y.moveLines lo nlo) := by
  unfold Half.moveLines
  dsimp only
  exact .upd h (by rfl)

theorem Half.Keeps.mbxIrq {x y : Half} {slot core client} (h : x.Keeps y) : x.Keeps (y.mbxIrq slot core client) := by
  unfold Half.mbxIrq
  dsimp only
  exact .ite (.clientLines (.ite (.deliver (.upd h (by rfl))) (.upd h (by rfl)))) h

theorem Half.Keeps.modSlot {x y : Half} {s' f} (h : x.Keeps y) : x.Keeps (y.modSlot s' f) := by
  unfold Half.modSlot
  dsimp only
  exact .upd h (by simp)

theorem Half.Keeps.finish {x y : Half} {slot st fields} (h : x.Keeps y) : x.Keeps (y.finish slot st fields) := by
  unfold Half.finish
  dsimp only
  exact .ite (.mbxIrq (.upd (.modSlot (.took h)) (by rfl))) (.upd (.modSlot (.took h)) (by rfl))

theorem Half.Keeps.finishWaiting {x y : Half} {slot st fields} (h : x.Keeps y) : x.Keeps (y.finishWaiting slot st fields) := by
  unfold Half.finishWaiting
  exact .ite (.finish h) h

theorem Half.Keeps.pairRestart {x y : Half} {p} (h : x.Keeps y) : x.Keeps (y.pairRestart p) := by
  unfold Half.pairRestart
  dsimp only
  split
  · refine .ite ?_ (.modPair h (by simp))
    split
    · exact .finishWaiting (.upd (.modPair h (by simp)) (by rfl))
    · exact .upd (.modPair h (by simp)) (by rfl)
  · exact .modPair h (by simp)

theorem Half.Keeps.timEvent {x y : Half} {i} (h : x.Keeps y) : x.Keeps (y.timEvent i) := by
  unfold Half.timEvent
  dsimp only
  exact .upd h (by rfl)

theorem Half.Keeps.acquire {x y : Half} {src port} (h : x.Keeps y) : x.Keeps (y.acquire src port) := by
  unfold Half.acquire
  dsimp only
  exact .ite (.timEvent (.upd h (by rfl))) (.upd h (by rfl))

theorem Half.Keeps.setRate {x y : Half} {r} (h : x.Keeps y) : x.Keeps (y.setRate r) := by
  unfold Half.setRate
  dsimp only
  exact .upd h (by rfl)

theorem Half.Keeps.newRate {x y : Half} (h : x.Keeps y) : x.Keeps y.newRate := by
  unfold Half.newRate
  dsimp only
  exact .upd (.setRate (.took h)) (by rfl)

theorem Half.Keeps.offsetState {x y : Half} {off} (h : x.Keeps y) : x.Keeps (y.offsetState off) := by
  unfold Half.offsetState
  dsimp only
  exact .ite (.timEvent (.upd h (by rfl))) (.upd h (by rfl))

theorem Half.Keeps.stepClock {x y : Half} {off} (h : x.Keeps y) : x.Keeps (y.stepClock off) := by
  unfold Half.stepClock
  dsimp only
  exact .timEvent (.ite (.upd h (by rfl)) (.upd h (by rfl)))

theorem Half.Keeps.measured {x y : Half} {off} (h : x.Keeps y) : x.Keeps (y.measured off) := by
  unfold Half.measured
  dsimp only
  refine .ite (.upd h (by rfl)) (.ite ?_ ?_)
  · exact .ite (.upd h (by rfl)) (.ite (.upd h (by rfl)) (.stepClock (.upd h (by rfl))))
  · exact .ite (.upd h (by rfl)) (.offsetState (.newRate (.upd h (by rfl))))

theorem Half.Keeps.portMeasure {x y : Half} {p t' origin corr} (h : x.Keeps y) : x.Keeps (y.portMeasure p t' origin corr) := by
  unfold Half.portMeasure
  dsimp only
  exact .ite (.measured (.acquire (.upd (.modPort h) (by rfl)))) (.modPort h)

theorem Half.Keeps.relay {x y : Half} {p t' origin corr} (h : x.Keeps y) : x.Keeps (y.relay p t' origin corr) := by
  unfold Half.relay
  dsimp only
  exact .ite h (.ite (.send (.relayOut h)) (.relayOut h))

theorem Half.Keeps.regather {x y : Half} (h : x.Keeps y) : x.Keeps y.regather := by
  unfold Half.regather
  dsimp only
  exact .ite (.upd h (by rfl)) (.upd h (by rfl))

theorem Half.Keeps.newGm {x y : Half} {gm steps} (h : x.Keeps y) : x.Keeps (y.newGm gm steps) := by
  unfold Half.newGm
  dsimp only
  exact .ite (.upd h (by rfl)) (.ite (.upd h (by rfl)) (.timEvent (.regather (.upd h (by rfl)))))

theorem Half.Keeps.loseSource {x y : Half} (h : x.Keeps y) : x.Keeps y.loseSource := by
  unfold Half.loseSource
  dsimp only
  exact .ite h (.umpEvent (.timEvent (.ite (.upd h (by rfl)) (.upd h (by rfl)))))

theorem Half.Keeps.bmca {x y : Half} (h : x.Keeps y) : x.Keeps y.bmca := by
  unfold Half.bmca
  dsimp only
  refine .ite (.upd h (by simp)) ?_
  split
  · exact .newGm (.ite (.ite (.ite (.upd h (by simp)) (.loseSource (.upd h (by simp)))) (.upd h (by simp))) (.upd h (by simp)))
  · exact .ite (.ite (.ite (.upd h (by simp)) (.loseSource (.upd h (by simp)))) (.upd h (by simp))) (.upd h (by simp))

theorem Half.Keeps.setCapable {x y : Half} {p b} (h : x.Keeps y) : x.Keeps (y.setCapable p b) := by
  unfold Half.setCapable
  dsimp only
  exact .ite (.ite (.loseSource (.modPort h)) (.modPort h)) (.bmca (.ite (.loseSource (.modPort h)) (.modPort h)))

theorem Half.Keeps.ptnSeen {x y : Half} {n} (h : x.Keeps y) : x.Keeps (y.ptnSeen n) := by
  unfold Half.ptnSeen
  exact .modPartner h

theorem Half.Keeps.ptnArrive {x y : Half} {kind attach ident} (h : x.Keeps y) : x.Keeps (y.ptnArrive kind attach ident) := by
  unfold Half.ptnArrive
  dsimp only
  split
  · exact .ptnSeen (.modPartner h)
  · split
    · exact .modPartner h
    · split
      · exact .modPartner h
      · exact .upd h (by rfl)

theorem Half.Keeps.endLost {x y : Half} {n} (h : x.Keeps y) : x.Keeps (y.endLost n) := by
  unfold Half.endLost
  split
  · exact .record (.took h)
  · exact h

theorem Half.Keeps.retrainReply {x y : Half} {i} (h : x.Keeps y) : x.Keeps (y.retrainReply i) := by
  unfold Half.retrainReply
  split
  · exact .finishWaiting (.modLink h)
  · exact h

theorem Half.Keeps.endDebug {x y : Half} (h : x.Keeps y) : x.Keeps y.endDebug := by
  unfold Half.endDebug
  dsimp only
  exact .upd h (by rfl)

theorem Half.Keeps.umpireReset {x y : Half} (h : x.Keeps y) : x.Keeps y.umpireReset := by
  unfold Half.umpireReset
  exact .upd h (by rfl)

theorem Half.Keeps.secReset {x y : Half} (h : x.Keeps y) : x.Keeps y.secReset := by
  unfold Half.secReset
  dsimp only
  exact .upd h (by rfl)

theorem Half.Keeps.halfReset {x y : Half} (h : x.Keeps y) : x.Keeps y.halfReset := by
  unfold Half.halfReset
  dsimp only
  exact .upd (.secReset (.umpireReset (.switchedOff h))) (by rfl)

theorem Half.Keeps.holdMsg {x y : Half} {m us} (h : x.Keeps y) : x.Keeps (y.holdMsg m us) := by
  unfold Half.holdMsg
  dsimp only
  exact .upd h (by rfl)

theorem Half.Keeps.finishBad {x y : Half} {slot c} (h : x.Keeps y) : x.Keeps (y.finishBad slot c) := by
  unfold Half.finishBad
  dsimp only
  exact .ite (.finish h) (.ite (.finish (.holdMsg (.took h))) (.finish h))

theorem Half.Keeps.failWaiting {x y : Half} {slot c} (h : x.Keeps y) : x.Keeps (y.failWaiting slot c) := by
  unfold Half.failWaiting
  exact .ite (.finishBad h) h

theorem Half.Keeps.trimDomains {x y : Half} (h : x.Keeps y) : x.Keeps y.trimDomains := by
  unfold Half.trimDomains
  dsimp only
  exact .upd h (by rfl)

theorem Half.Keeps.systemClient {x y : Half} (h : x.Keeps y) : x.Keeps y.systemClient := by
  unfold Half.systemClient
  dsimp only
  exact .upd h (by rfl)

theorem Half.Keeps.loadRings {x y : Half} (h : x.Keeps y) : x.Keeps y.loadRings := by
  unfold Half.loadRings
  dsimp only
  exact .foldl (fun _ _ k => .vioLog k) (.upd h (by simp))

theorem Half.Keeps.loadPorts {x y : Half} {old} (h : x.Keeps y) : x.Keeps (y.loadPorts old) := by
  unfold Half.loadPorts
  dsimp only
  refine .ite ?_ ?_
  · exact .regather (.bmca (.ite (.upd h (by simp)) (.loadRings (.upd h (by simp)))))
  · exact .bmca (.ite (.upd h (by simp)) (.loadRings (.upd h (by simp))))

theorem Half.Keeps.loadClock {x y : Half} {run} (h : x.Keeps y) : x.Keeps (y.loadClock run) := by
  unfold Half.loadClock
  dsimp only
  exact .upd h (by rfl)

theorem Half.Keeps.startClock {x y : Half} (h : x.Keeps y) : x.Keeps y.startClock := by
  unfold Half.startClock
  dsimp only
  exact .upd h (by rfl)

theorem Half.Keeps.bootFailed {x y : Half} (h : x.Keeps y) : x.Keeps y.bootFailed := by
  unfold Half.bootFailed
  dsimp only
  exact .upd h (by rfl)

theorem Half.Keeps.offReset {x y : Half} (h : x.Keeps y) : x.Keeps y.offReset := by
  unfold Half.offReset
  dsimp only
  exact .upd (.halfReset h) (by rfl)

theorem Half.Keeps.powerEngine {x y : Half} {n} (h : x.Keeps y) : x.Keeps (y.powerEngine n) := by
  unfold Half.powerEngine
  dsimp only
  exact .modEngine h

theorem Half.Keeps.applyClocks {x y : Half} (h : x.Keeps y) : x.Keeps y.applyClocks := by
  unfold Half.applyClocks
  dsimp only
  exact .upd h (by simp)

theorem Half.Keeps.thmEvent {x y : Half} {i} (h : x.Keeps y) : x.Keeps (y.thmEvent i) := by
  unfold Half.thmEvent
  dsimp only
  exact .ite (.raise (.upd h (by rfl))) (.upd h (by rfl))

theorem Half.Keeps.regulate {x y : Half} (h : x.Keeps y) : x.Keeps y.regulate := by
  unfold Half.regulate
  dsimp only
  exact .ite (.ite (.thmEvent (.upd h (by rfl))) (.upd h (by rfl))) (.ite (.upd h (by rfl)) (.upd h (by rfl)))

theorem Half.Keeps.lnkStore {x y : Half} {o size v} (h : x.Keeps y) : x.Keeps (y.lnkStore o size v) := by
  unfold Half.lnkStore
  dsimp only
  exact .ite (.rearm (.upd h (by rfl))) (.ite (.upd h (by rfl)) h)

theorem Half.Keeps.coreVio {x y : Half} {ag code off addr} (h : x.Keeps y) : x.Keeps (y.coreVio ag code off addr) := by
  unfold Half.coreVio
  exact .violate h

theorem Half.Keeps.ctrlVio {x y : Half} {ag code off} (h : x.Keeps y) : x.Keeps (y.ctrlVio ag code off) := by
  unfold Half.ctrlVio
  exact .coreVio h

theorem Half.Keeps.readCplHead {x y : Half} {q} (h : x.Keeps y) : x.Keeps (y.readCplHead q) := by
  unfold Half.readCplHead
  dsimp only
  exact .ite (.memErr h) (.modQueue h)

theorem Half.Keeps.doorbellStore {x y : Half} {ag d v} (h : x.Keeps y) : x.Keeps (y.doorbellStore ag d v) := by
  unfold Half.doorbellStore
  dsimp only
  refine .ite h (.ite (.ctrlVio h) ?_)
  split
  · refine .ctrlVio ?_
    split
    · exact .modClient h
    · exact h
  · refine .ite ?_ ?_
    · refine .ctrlVio ?_
      split
      · exact .modClient h
      · exact h
    · refine .ite ?_ ?_
      · split
        · exact .modClient h
        · exact h
      · refine .readCplHead (.modQueue ?_)
        split
        · exact .modClient h
        · exact h

theorem Half.Keeps.dblStore {x y : Half} {ag o size v} (h : x.Keeps y) : x.Keeps (y.dblStore ag o size v) := by
  unfold Half.dblStore
  exact .ite (.doorbellStore h) (.ite (.ctrlVio h) h)

theorem Half.Keeps.clusterStore {x y : Half} {ag c mhz} (h : x.Keeps y) : x.Keeps (y.clusterStore ag c mhz) := by
  unfold Half.clusterStore
  dsimp only
  exact .ite (.ctrlVio h) (.applyClocks (.upd h (by rfl)))

theorem Half.Keeps.thmStore {x y : Half} {ag o size v} (h : x.Keeps y) : x.Keeps (y.thmStore ag o size v) := by
  unfold Half.thmStore
  dsimp only
  exact .ite (.rearm (.upd h (by rfl))) (.ite (.upd h (by rfl)) (.ite (.clusterStore h) h))

theorem Half.Keeps.timStore {x y : Half} {o size v} (h : x.Keeps y) : x.Keeps (y.timStore o size v) := by
  unfold Half.timStore
  dsimp only
  exact .ite (.upd h (by rfl)) h

theorem Half.Keeps.umpStore {x y : Half} {o size v} (h : x.Keeps y) : x.Keeps (y.umpStore o size v) := by
  unfold Half.umpStore
  dsimp only
  exact .ite (.rearm (.upd h (by rfl))) (.ite (.upd h (by rfl)) h)

theorem Half.Keeps.doorbell {x y : Half} {ag slot one} (h : x.Keeps y) : x.Keeps (y.doorbell ag slot one) := by
  unfold Half.doorbell
  dsimp only
  refine .ite ?_ ?_
  · refine .upd (.modSlot ?_) (by rfl)
    split
    · exact .ptnArrive h
    · exact h
  · split
    · exact .violate h
    · exact .ctrlVio h

theorem Half.Keeps.ownerStore {x y : Half} {ag slot valid client} (h : x.Keeps y) : x.Keeps (y.ownerStore ag slot valid client) := by
  unfold Half.ownerStore
  exact .modSlot h

theorem Half.Keeps.inStore {x y : Half} {slot off size v} (h : x.Keeps y) : x.Keeps (y.inStore slot off size v) := by
  unfold Half.inStore
  exact .modSlot h

theorem Half.Keeps.slotRefused {x y : Half} {ag slot off} (h : x.Keeps y) : x.Keeps (y.slotRefused ag slot off) := by
  unfold Half.slotRefused
  split
  · exact h
  · exact .ctrlVio h

theorem Half.Keeps.slotStore {x y : Half} {ag slot p size v} (h : x.Keeps y) : x.Keeps (y.slotStore ag slot p size v) := by
  unfold Half.slotStore
  exact .ite (.slotRefused h) (.ite (.inStore h) (.ite (.ownerStore h) (.ite (.doorbell h) h)))

theorem Half.Keeps.mbxStore {x y : Half} {ag o size v} (h : x.Keeps y) : x.Keeps (y.mbxStore ag o size v) := by
  unfold Half.mbxStore
  dsimp only
  exact .ite (.slotStore h) (.ite (.foldl (fun _ _ k => .ite (.rearm k) k) (.upd h (by rfl))) (.ite (.upd h (by rfl)) h))

theorem Half.Keeps.modApp {x y : Half} {n f} (h : x.Keeps y) : x.Keeps (y.modApp n f) := by
  unfold Half.modApp
  dsimp only
  exact .upd h (by simp)

theorem Half.Keeps.abandon {x y : Half} {c} (h : x.Keeps y) : x.Keeps (y.abandon c) := by
  unfold Half.abandon
  dsimp only
  exact .ite (.upd h (by rfl)) h

theorem Half.Keeps.wasted {x y : Half} {c cycles} (h : x.Keeps y) : x.Keeps (y.wasted c cycles) := by
  unfold Half.wasted
  dsimp only
  split
  · exact h
  · exact .upd h (by rfl)

theorem Half.Keeps.endCmd {x y : Half} {n status det1} (h : x.Keeps y) : x.Keeps (y.endCmd n status det1) := by
  unfold Half.endCmd
  split
  · exact .ite (.record h) (.record (.wasted (.abandon (.took h))))
  · exact h

theorem Half.Keeps.endCmds {x y : Half} {ns status} (h : x.Keeps y) : x.Keeps (y.endCmds ns status) := by
  unfold Half.endCmds
  exact .foldl (fun _ _ k => .endCmd k) h

theorem Half.Keeps.retrainClock {x y : Half} (h : x.Keeps y) : x.Keeps y.retrainClock := by
  unfold Half.retrainClock
  dsimp only
  exact .ite h (.upd h (by rfl))

theorem Half.Keeps.ptnFixed {x y : Half} {n attach ident} (h : x.Keeps y) : x.Keeps (y.ptnFixed n attach ident) := by
  unfold Half.ptnFixed
  dsimp only
  exact .modPartner h

theorem Half.Keeps.useLeaf {x y : Half} (h : x.Keeps y) : x.Keeps y.useLeaf := by
  unfold Half.useLeaf
  dsimp only
  exact .upd h (by rfl)

theorem Half.Keeps.trained {x y : Half} {i rate bad} (h : x.Keeps y) : x.Keeps (y.trained i rate bad) := by
  unfold Half.trained
  dsimp only
  exact .ite (.linkDown (.modLink h)) (.ite (.linkAdvisory (.linkSet (.modLink (.modLink h)))) (.linkSet (.modLink (.modLink h))))

theorem Half.Keeps.tetherTrained {x y : Half} {rate bad} (h : x.Keeps y) : x.Keeps (y.tetherTrained rate bad) := by
  unfold Half.tetherTrained
  dsimp only
  exact .ite (.trained h) (.upd (.ite (.useLeaf (.trained h)) (.trained h)) (by rfl))

theorem Half.Keeps.bullpen {x y : Half} {die} (h : x.Keeps y) : x.Keeps (y.bullpen die) := by
  unfold Half.bullpen
  dsimp only
  exact .ite h (.upd h (by simp))

theorem Half.Keeps.stepFails {x y : Half} {i step} (h : x.Keeps y) : x.Keeps (y.stepFails i step) := by
  unfold Half.stepFails
  exact .vioLog (.linkDown h)

theorem Half.Keeps.discovered {x y : Half} {i r} (h : x.Keeps y) : x.Keeps (y.discovered i r) := by
  unfold Half.discovered
  dsimp only
  refine .ite (.stepFails h) ?_
  split
  · exact .modLink (.ite (.upd (.bullpen (.ptnFixed (.modLink h))) (by rfl)) (.bullpen (.ptnFixed (.modLink h))))
  · exact .ite (.upd (.bullpen (.ptnFixed (.modLink h))) (by rfl)) (.bullpen (.ptnFixed (.modLink h)))
  · refine .ite ?_ ?_
    · exact .modPartner (.foldl (fun _ _ k => .linkSet k) (.modLink h))
    · exact .quarantine (.modPartner (.foldl (fun _ _ k => .linkSet k) (.modLink h)))

theorem Half.Keeps.bootClock {x y : Half} {run} (h : x.Keeps y) : x.Keeps (y.bootClock run) := by
  unfold Half.bootClock
  exact .ite (.loadClock h) h

theorem Half.Keeps.becomeFollower {x y : Half} (h : x.Keeps y) : x.Keeps y.becomeFollower := by
  unfold Half.becomeFollower
  dsimp only
  exact .ite (.upd h (by rfl)) h

theorem Half.Keeps.becomeLead {x y : Half} (h : x.Keeps y) : x.Keeps y.becomeLead := by
  unfold Half.becomeLead
  dsimp only
  refine .ite h ?_
  split
  · exact .ite (.upd h (by rfl)) (.loseSource (.upd h (by rfl)))
  · exact .loseSource (.upd h (by rfl))

theorem Half.Keeps.setGates {x y : Half} {g} (h : x.Keeps y) : x.Keeps (y.setGates g) := by
  unfold Half.setGates
  dsimp only
  exact .foldl (fun _ _ k => .ite k (.pairLine k)) (.upd h (by rfl))

theorem Half.Keeps.openGates {x y : Half} (h : x.Keeps y) : x.Keeps y.openGates := by
  unfold Half.openGates
  exact .ite (.setGates h) h

theorem Half.Keeps.shiftFrames {x y : Half} {d} (h : x.Keeps y) : x.Keeps (y.shiftFrames d) := by
  unfold Half.shiftFrames
  dsimp only
  exact .upd h (by rfl)

theorem Half.Keeps.raiseMinima {x y : Half} (h : x.Keeps y) : x.Keeps y.raiseMinima := by
  unfold Half.raiseMinima
  dsimp only
  exact .upd h (by rfl)

theorem Half.Keeps.becomeReady {x y : Half} (h : x.Keeps y) : x.Keeps y.becomeReady := by
  unfold Half.becomeReady
  dsimp only
  exact .upd (.raiseMinima h) (by simp)

theorem Half.Keeps.exchangeBound {x y : Half} {ps} (h : x.Keeps y) : x.Keeps (y.exchangeBound ps) := by
  unfold Half.exchangeBound
  dsimp only
  exact .ite (.ite (.umpEvent (.timEvent (.upd h (by rfl)))) (.upd h (by rfl))) (.upd h (by rfl))

theorem Half.Keeps.bridgeCross {x y : Half} {port f} (h : x.Keeps y) : x.Keeps (y.bridgeCross port f) := by
  unfold Half.bridgeCross
  dsimp only
  exact .ite (.send h) (.ite (.ite (.modPort h) (.upd (.send h) (by rfl))) h)

theorem Half.Keeps.addPacket {x y : Half} {b port t' p} (h : x.Keeps y) : x.Keeps (y.addPacket b port t' p) := by
  unfold Half.addPacket
  dsimp only
  exact .modPipe h

theorem Half.Keeps.toFlow {x y : Half} {port f k' t'} (h : x.Keeps y) : x.Keeps (y.toFlow port f k' t') := by
  unfold Half.toFlow
  dsimp only
  split
  · exact .modPort (.ptnArrive h)
  · split
    · exact .addPacket (.ptnArrive h)
    · exact .violate (.ptnArrive h)

theorem Half.Keeps.apError {x y : Half} {ctx va} (h : x.Keeps y) : x.Keeps (y.apError ctx va) := by
  unfold Half.apError
  dsimp only
  exact .memErr h

theorem Half.Keeps.forward {x y : Half} {b e} (h : x.Keeps y) : x.Keeps (y.forward b e) := by
  unfold Half.forward
  dsimp only
  exact .ite (.lnkEvent (.upd h (by rfl))) (.ite (.send (.upd h (by rfl))) (.upd h (by rfl)))

theorem Half.Keeps.modBinding {x y : Half} {n f} (h : x.Keeps y) : x.Keeps (y.modBinding n f) := by
  unfold Half.modBinding
  exact .modPipe h

theorem Half.Keeps.dropCaptures {x y : Half} {b n} (h : x.Keeps y) : x.Keeps (y.dropCaptures b n) := by
  unfold Half.dropCaptures
  dsimp only
  exact .commitBytes (.modBinding h)

theorem Half.Keeps.putCapture {x y : Half} {b e} (h : x.Keeps y) : x.Keeps (y.putCapture b e) := by
  unfold Half.putCapture
  dsimp only
  exact .ite (.dropCaptures h) (.modBinding (.commitBytes (.commitBytes (.commitBytes h))))

theorem Half.Keeps.qosEvent {x y : Half} {i} (h : x.Keeps y) : x.Keeps (y.qosEvent i) := by
  unfold Half.qosEvent
  dsimp only
  exact .ite (.raise (.upd h (by rfl))) (.upd h (by rfl))

theorem Half.Keeps.finishTxn {x y : Half} {t'} (h : x.Keeps y) : x.Keeps (y.finishTxn t') := by
  unfold Half.finishTxn
  dsimp only
  exact .ite (.qosEvent (.modQos (.modQos h (by simp)) (by simp))) (.modQos h (by simp))

theorem Half.Keeps.issue {x y : Half} {t'} (h : x.Keeps y) : x.Keeps (y.issue t') := by
  unfold Half.issue
  dsimp only
  exact .modQos h (by rfl)

theorem Half.Keeps.releaseHeld {x y : Half} (h : x.Keeps y) : x.Keeps y.releaseHeld := by
  unfold Half.releaseHeld
  dsimp only
  exact .foldl (fun _ _ k => .ite (.issue (.modQos k (by rfl))) k) (.modQos h (by rfl))

theorem Half.Keeps.missClass {x y : Half} {c} (h : x.Keeps y) : x.Keeps (y.missClass c) := by
  unfold Half.missClass
  dsimp only
  refine .ite ?_ ?_
  · exact .ite (.umpEvent (.upd (.qosEvent (.modQos h (by simp))) (by rfl))) (.upd (.qosEvent (.modQos h (by simp))) (by rfl))
  · exact .qosEvent (.modQos h (by simp))

theorem Half.Keeps.advisory {x y : Half} {loc} (h : x.Keeps y) : x.Keeps (y.advisory loc) := by
  unfold Half.advisory
  dsimp only
  exact .memErr (.upd h (by rfl))

theorem Half.Keeps.retireFrame {x y : Half} {stack frame} (h : x.Keeps y) : x.Keeps (y.retireFrame stack frame) := by
  unfold Half.retireFrame
  dsimp only
  refine .ite h (.ite (.memErr (.upd h (by rfl))) ?_)
  split
  · exact .upd h (by rfl)
  · exact .advisory h

theorem Half.Keeps.markBad {x y : Half} {stack frame block line} (h : x.Keeps y) : x.Keeps (y.markBad stack frame block line) := by
  unfold Half.markBad
  dsimp only
  exact .upd h (by rfl)

theorem Half.Keeps.selfMapOut {x y : Half} {pc idx} (h : x.Keeps y) : x.Keeps (y.selfMapOut pc idx) := by
  unfold Half.selfMapOut
  dsimp only
  exact .ite h (.ite (.cause (.upd h (by rfl))) (.advisory h))

theorem Half.Keeps.keepCorr {x y : Half} {k'} (h : x.Keeps y) : x.Keeps (y.keepCorr k') := by
  unfold Half.keepCorr
  dsimp only
  exact .upd h (by rfl)

theorem Half.Keeps.corrDram {x y : Half} {st f b pin} (h : x.Keeps y) : x.Keeps (y.corrDram st f b pin) := by
  unfold Half.corrDram
  dsimp only
  refine .ite ?_ ?_
  · exact .selfMapOut (.ite (.retireFrame (.keepCorr (.memErr h))) (.keepCorr (.memErr h)))
  · exact .ite (.retireFrame (.keepCorr (.memErr h))) (.keepCorr (.memErr h))

theorem Half.Keeps.engineReset {x y : Half} {n} (h : x.Keeps y) : x.Keeps (y.engineReset n) := by
  unfold Half.engineReset
  dsimp only
  exact .modEngine (.ite (.upd (.endCmds h) (by rfl)) (.endCmds h))

theorem Half.Keeps.dropWay {x y : Half} {sl line} (h : x.Keeps y) : x.Keeps (y.dropWay sl line) := by
  unfold Half.dropWay
  dsimp only
  split
  · exact .ite (.upd h (by rfl)) h
  · exact h

theorem Half.Keeps.corrCache {x y : Half} {sl line word} (h : x.Keeps y) : x.Keeps (y.corrCache sl line word) := by
  unfold Half.corrCache
  dsimp only
  refine .ite (.ite ?_ ?_) (.keepCorr (.memErr h))
  · exact .selfMapOut (.memErr (.dropWay (.upd (.keepCorr (.memErr h)) (by rfl))))
  · exact .memErr (.dropWay (.upd (.keepCorr (.memErr h)) (by rfl)))

theorem Half.Keeps.dataLost {x y : Half} {c va} (h : x.Keeps y) : x.Keeps (y.dataLost c va) := by
  unfold Half.dataLost
  dsimp only
  exact .endCmds (.record (.took (.memErr (.abandon h))))

theorem Half.Keeps.streamLost {x y : Half} {ctx va} (h : x.Keeps y) : x.Keeps (y.streamLost ctx va) := by
  unfold Half.streamLost
  exact .modPipe h

theorem Half.Keeps.gridLost {x y : Half} {c va} (h : x.Keeps y) : x.Keeps (y.gridLost c va) := by
  unfold Half.gridLost
  split
  · exact .ite (.commitBytes h) h
  · exact h

theorem Half.Keeps.modTest {x y : Half} {e f} (h : x.Keeps y) : x.Keeps (y.modTest e f) := by
  unfold Half.modTest
  exact .upd h (by rfl)

theorem Half.Keeps.closeGates {x y : Half} (h : x.Keeps y) : x.Keeps y.closeGates := by
  unfold Half.closeGates
  exact .setGates h

theorem Half.Keeps.enterSafe {x y : Half} {fault} (h : x.Keeps y) : x.Keeps (y.enterSafe fault) := by
  unfold Half.enterSafe
  dsimp only
  exact .modLink (.upd (.switchedOff (.closeGates h)) (by rfl))

theorem Half.Keeps.dropUntrusted {x y : Half} {frame} (h : x.Keeps y) : x.Keeps (y.dropUntrusted frame) := by
  unfold Half.dropUntrusted
  dsimp only
  exact .upd h (by rfl)

theorem Half.Keeps.pairSwitch {x y : Half} {opened} (h : x.Keeps y) : x.Keeps (y.pairSwitch opened) := by
  unfold Half.pairSwitch
  dsimp only
  exact .ite (.openGates (.umpEvent (.upd h (by rfl)))) (.umpEvent (.upd h (by rfl)))

theorem Half.Keeps.closeGate {x y : Half} {j} (h : x.Keeps y) : x.Keeps (y.closeGate j) := by
  unfold Half.closeGate
  exact .setGates h

theorem Half.Keeps.stopPair {x y : Half} {p} (h : x.Keeps y) : x.Keeps (y.stopPair p) := by
  unfold Half.stopPair
  dsimp only
  exact .upd (.modPair h (by simp)) (by rfl)

theorem Half.Keeps.switchSlot {x y : Half} {kind} (h : x.Keeps y) : x.Keeps (y.switchSlot kind) := by
  unfold Half.switchSlot
  dsimp only
  exact .upd h (by rfl)

theorem Half.Keeps.revertPair {x y : Half} {p} (h : x.Keeps y) : x.Keeps (y.revertPair p) := by
  unfold Half.revertPair
  dsimp only
  split
  · refine .ite ?_ h
    split
    · exact .failWaiting (.upd (.switchSlot (.modPair h (by simp))) (by rfl))
    · exact .upd (.switchSlot (.modPair h (by simp))) (by rfl)
  · exact h

theorem Half.Keeps.restoreFusion {x y : Half} {c} (h : x.Keeps y) : x.Keeps (y.restoreFusion c) := by
  unfold Half.restoreFusion
  dsimp only
  split
  · exact .upd h (by rfl)
  · exact .ite (.commitBytes (.upd h (by rfl))) (.upd h (by rfl))

theorem Half.Keeps.restorePlan {x y : Half} {c} (h : x.Keeps y) : x.Keeps (y.restorePlan c) := by
  unfold Half.restorePlan
  dsimp only
  exact .upd h (by rfl)

theorem Half.Keeps.dropOwn {x y : Half} {plan frame} (h : x.Keeps y) : x.Keeps (y.dropOwn plan frame) := by
  unfold Half.dropOwn
  dsimp only
  exact .upd h (by rfl)

theorem Half.Keeps.mismatch {x y : Half} {frame} (h : x.Keeps y) : x.Keeps (y.mismatch frame) := by
  unfold Half.mismatch
  dsimp only
  exact .ite (.umpEvent (.upd (.umpEvent (.upd h (by rfl))) (by rfl))) (.umpEvent (.upd h (by rfl)))

theorem Half.Keeps.giveGates {x y : Half} (h : x.Keeps y) : x.Keeps y.giveGates := by
  unfold Half.giveGates
  dsimp only
  exact .ite (.send (.closeGates h)) (.closeGates h)

theorem Half.Keeps.beginRerun {x y : Half} {n} (h : x.Keeps y) : x.Keeps (y.beginRerun n) := by
  unfold Half.beginRerun
  dsimp only
  exact .upd (.modEngine h) (by rfl)

theorem Half.Keeps.recordDisagree {x y : Half} {n k' verdict} (h : x.Keeps y) : x.Keeps (y.recordDisagree n k' verdict) := by
  unfold Half.recordDisagree
  dsimp only
  exact .upd (.modEngine h) (by rfl)

theorem Half.Keeps.decideRetire {x y : Half} {n} (h : x.Keeps y) : x.Keeps (y.decideRetire n) := by
  unfold Half.decideRetire
  dsimp only
  exact .upd h (by rfl)

theorem Half.Keeps.nextRetire {x y : Half} (h : x.Keeps y) : x.Keeps y.nextRetire := by
  unfold Half.nextRetire
  dsimp only
  refine .ite h ?_
  split
  · exact .decideRetire h
  · split
    · exact .ite (.decideRetire h) h
    · exact h

theorem Half.Keeps.condemn {x y : Half} {n k'} (h : x.Keeps y) : x.Keeps (y.condemn n k') := by
  unfold Half.condemn
  exact .nextRetire (.recordDisagree h)

theorem Half.Keeps.rerunsPassed {x y : Half} {n k'} (h : x.Keeps y) : x.Keeps (y.rerunsPassed n k') := by
  unfold Half.rerunsPassed
  dsimp only
  exact .ite (.condemn h) (.umpEvent (.upd (.recordDisagree h) (by rfl)))

theorem Half.Keeps.trust {x y : Half} (h : x.Keeps y) : x.Keeps y.trust := by
  unfold Half.trust
  dsimp only
  split
  · exact .ite (.upd h (by rfl)) h
  · exact h

theorem Half.Keeps.passEngine {x y : Half} {n} (h : x.Keeps y) : x.Keeps (y.passEngine n) := by
  unfold Half.passEngine
  exact .trust (.modEngine h)

theorem Half.Keeps.waitBoundary {x y : Half} {slot on} (h : x.Keeps y) : x.Keeps (y.waitBoundary slot on) := by
  unfold Half.waitBoundary
  exact .modSlot h

theorem Half.Keeps.updWaits {x y : Half} {on} (h : x.Keeps y) : x.Keeps (y.updWaits on) := by
  unfold Half.updWaits
  dsimp only
  exact .foldl (fun _ _ k => .waitBoundary k) h

theorem Half.Keeps.swapFailed {x y : Half} {n} (h : x.Keeps y) : x.Keeps (y.swapFailed n) := by
  unfold Half.swapFailed
  dsimp only
  exact .upd (.updWaits (.switchSlot (.modEngine h))) (by rfl)

theorem Half.Keeps.swapPassed {x y : Half} {n} (h : x.Keeps y) : x.Keeps (y.swapPassed n) := by
  unfold Half.swapPassed
  dsimp only
  exact .passEngine (.updWaits (.upd (.modEngine h) (by rfl)))

theorem Half.Keeps.verdict {x y : Half} {n agrees} (h : x.Keeps y) : x.Keeps (y.verdict n agrees) := by
  unfold Half.verdict
  dsimp only
  refine .ite (.upd (.modEngine (.modEngine h)) (by rfl)) (.ite (.ite (.swapPassed (.modEngine h)) (.ite (.condemn (.modEngine
      (.modEngine h))) (.swapFailed (.modEngine h)))) (.ite (.ite (.passEngine (.upd (.modEngine h) (by rfl))) (.condemn (.upd
      (.modEngine h) (by rfl)))) ?_))
  split
  · exact .ite (.condemn (.modEngine h)) (.ite (.upd (.modEngine h) (by rfl)) (.rerunsPassed (.modEngine h)))
  · exact .ite (.passEngine (.modEngine h)) (.beginRerun (.modEngine h))

theorem Half.Keeps.warmupBoundary {x y : Half} (h : x.Keeps y) : x.Keeps y.warmupBoundary := by
  unfold Half.warmupBoundary
  dsimp only
  exact .upd h (by simp)

theorem Half.Keeps.causeBoundary {x y : Half} (h : x.Keeps y) : x.Keeps y.causeBoundary := by
  unfold Half.causeBoundary
  dsimp only
  exact .ite (.cause (.upd (.cause h) (by rfl))) (.ite (.upd (.cause h) (by rfl)) (.cause h))

theorem Half.Keeps.standbyBoundary {x y : Half} (h : x.Keeps y) : x.Keeps y.standbyBoundary := by
  unfold Half.standbyBoundary
  dsimp only
  exact .ite (.upd h (by rfl)) h

theorem Half.Keeps.quickBoundary {x y : Half} (h : x.Keeps y) : x.Keeps y.quickBoundary := by
  unfold Half.quickBoundary
  dsimp only
  refine .ite (.upd h (by simp)) (.ite (.upd h (by rfl)) ?_)
  split
  · exact .modEngine (.upd h (by rfl))
  · exact .upd h (by rfl)

theorem Half.Keeps.measureBoundary {x y : Half} (h : x.Keeps y) : x.Keeps y.measureBoundary := by
  unfold Half.measureBoundary
  dsimp only
  exact .ite (.upd h (by rfl)) (.foldl (fun _ _ k => .modEngine k) (.upd h (by rfl)))

theorem Half.Keeps.activateSpare {x y : Half} {m st} (h : x.Keeps y) : x.Keeps (y.activateSpare m st) := by
  unfold Half.activateSpare
  dsimp only
  exact .upd (.modEngine h) (by rfl)

theorem Half.Keeps.selectSpare {x y : Half} (h : x.Keeps y) : x.Keeps y.selectSpare := by
  unfold Half.selectSpare
  dsimp only
  exact .upd h (by rfl)

theorem Half.Keeps.retireNow {x y : Half} {n} (h : x.Keeps y) : x.Keeps (y.retireNow n) := by
  unfold Half.retireNow
  dsimp only
  exact .umpEvent (.upd (.modEngine (.endCmds h)) (by rfl))

theorem Half.Keeps.retireDone {x y : Half} (h : x.Keeps y) : x.Keeps y.retireDone := by
  unfold Half.retireDone
  dsimp only
  exact .upd h (by rfl)

theorem Half.Keeps.retireBoundary {x y : Half} (h : x.Keeps y) : x.Keeps y.retireBoundary := by
  unfold Half.retireBoundary
  dsimp only
  split
  · exact h
  · refine .ite (.retireDone h) (.ite (.retireDone (.retireNow h)) ?_)
    split
    · exact .ite (.selectSpare h) (.ite (.selectSpare (.retireNow h)) (.ite (.retireDone (.activateSpare (.retireNow h))) h))
    · exact .ite (.selectSpare h) (.retireDone (.retireNow h))

theorem Half.Keeps.paySpares {x y : Half} {quick} (h : x.Keeps y) : x.Keeps (y.paySpares quick) := by
  unfold Half.paySpares
  dsimp only
  exact .upd (.foldl (fun _ _ k => .retireNow k) (.foldl (fun _ _ k => .activateSpare k) h)) (by rfl)

theorem Half.Keeps.deadDie {x y : Half} {die} (h : x.Keeps y) : x.Keeps (y.deadDie die) := by
  unfold Half.deadDie
  dsimp only
  refine .ite ?_ ?_
  · exact h
  · exact .paySpares (.upd (.ite (.retireDone (.foldl (fun _ _ k => .retireNow k) h)) (.foldl (fun _ _ k => .retireNow k) h)) (by rfl))

theorem Half.Keeps.rehome {x y : Half} (h : x.Keeps y) : x.Keeps y.rehome := by
  unfold Half.rehome
  dsimp only
  exact .upd h (by rfl)

theorem Half.Keeps.mapOutBoundary {x y : Half} (h : x.Keeps y) : x.Keeps y.mapOutBoundary := by
  unfold Half.mapOutBoundary
  dsimp only
  split
  · exact h
  · split
    · refine .finishWaiting (.cause (.ite ?_ ?_))
      · refine .memErr (.ite ?_ ?_)
        · exact .ite (.upd h (by rfl)) (.rehome (.upd h (by rfl)))
        · exact .upd (.ite (.upd h (by rfl)) (.rehome (.upd h (by rfl)))) (by rfl)
      · refine .memErr (.ite ?_ ?_)
        · exact .ite (.upd h (by rfl)) (.rehome (.upd h (by rfl)))
        · exact .upd (.ite (.upd h (by rfl)) (.rehome (.upd h (by rfl)))) (by rfl)
    · refine .cause (.ite ?_ ?_)
      · refine .memErr (.ite ?_ ?_)
        · exact .ite (.upd h (by rfl)) (.rehome (.upd h (by rfl)))
        · exact .upd (.ite (.upd h (by rfl)) (.rehome (.upd h (by rfl)))) (by rfl)
      · refine .memErr (.ite ?_ ?_)
        · exact .ite (.upd h (by rfl)) (.rehome (.upd h (by rfl)))
        · exact .upd (.ite (.upd h (by rfl)) (.rehome (.upd h (by rfl)))) (by rfl)

theorem Half.Keeps.freshMirror {x y : Half} (h : x.Keeps y) : x.Keeps y.freshMirror := by
  unfold Half.freshMirror
  dsimp only
  exact .upd h (by rfl)

theorem Half.Keeps.releaseCtx {x y : Half} {c} (h : x.Keeps y) : x.Keeps (y.releaseCtx c) := by
  unfold Half.releaseCtx
  dsimp only
  exact .upd (.ite (.detachSw h) h) (by simp)

theorem Half.Keeps.sleepDebug {x y : Half} {off} (h : x.Keeps y) : x.Keeps (y.sleepDebug off) := by
  unfold Half.sleepDebug
  dsimp only
  exact .ite (.endDebug h) (.upd h (by rfl))

theorem Half.Keeps.leaveDoze {x y : Half} (h : x.Keeps y) : x.Keeps y.leaveDoze := by
  unfold Half.leaveDoze
  dsimp only
  split
  · split
    · exact .ite (.failWaiting (.upd h (by rfl))) (.finishWaiting (.upd h (by rfl)))
    · exact .upd h (by rfl)
  · exact h

theorem Half.Keeps.goRunDim {x y : Half} {st} (h : x.Keeps y) : x.Keeps (y.goRunDim st) := by
  unfold Half.goRunDim
  dsimp only
  exact .applyClocks (.upd (.ite (.leaveDoze h) h) (by rfl))

theorem Half.Keeps.storeOvl {x y : Half} {k' e} (h : x.Keeps y) : x.Keeps (y.storeOvl k' e) := by
  unfold Half.storeOvl
  dsimp only
  exact .upd h (by rfl)

theorem Half.Keeps.ovlDone {x y : Half} {e} (h : x.Keeps y) : x.Keeps (y.ovlDone e) := by
  unfold Half.ovlDone
  dsimp only
  split
  · exact .finishWaiting (.upd h (by rfl))
  · exact .upd h (by rfl)

theorem Half.Keeps.dropHeld {x y : Half} {e c} (h : x.Keeps y) : x.Keeps (y.dropHeld e c) := by
  unfold Half.dropHeld
  dsimp only
  split
  · exact .failWaiting (.upd h (by rfl))
  · exact .upd h (by rfl)

theorem Half.Keeps.applyLife {x y : Half} {b} (h : x.Keeps y) : x.Keeps (y.applyLife b) := by
  unfold Half.applyLife
  dsimp only
  refine .ite (.endDebug (.upd h (by rfl))) (.ite (.upd h (by rfl)) (.ite (.upd h (by rfl)) (.ite ?_ ?_)))
  · exact .upd h (by rfl)
  · exact .ite (.endDebug (.upd h (by rfl))) (.ite (.endDebug (.upd h (by rfl))) (.endDebug (.upd h (by rfl))))

theorem Half.Keeps.beginFrame {x y : Half} {k'} (h : x.Keeps y) : x.Keeps (y.beginFrame k') := by
  unfold Half.beginFrame
  dsimp only
  exact .upd h (by rfl)

theorem Half.Keeps.heldStep {x y : Half} (h : x.Keeps y) : x.Keeps y.heldStep := by
  unfold Half.heldStep
  dsimp only
  split
  · exact .shiftFrames (.stepClock h)
  · exact h

theorem Half.Keeps.fetchView {x y : Half} {c n} (h : x.Keeps y) : x.Keeps (y.fetchView c n) := by
  unfold Half.fetchView
  dsimp only
  exact .vputs h

theorem Half.Keeps.refetch {x y : Half} {c} (h : x.Keeps y) : x.Keeps (y.refetch c) := by
  unfold Half.refetch
  dsimp only
  exact .ite h (.modCmd (.took h))

theorem Half.Keeps.tryCommit {x y : Half} {n} (h : x.Keeps y) : x.Keeps (y.tryCommit n) := by
  unfold Half.tryCommit
  split
  · exact h
  · exact .ite (.commit h) (.ite (.record (.took h)) (.tickSeq (.modCmd h)))

theorem Half.Keeps.touchReads {x y : Half} {ctx rs} (h : x.Keeps y) : x.Keeps (y.touchReads ctx rs) := by
  unfold Half.touchReads
  exact .touch h

theorem Half.Keeps.served {x y : Half} {c} (h : x.Keeps y) : x.Keeps (y.served c) := by
  unfold Half.served
  dsimp only
  exact .upd h (by rfl)

theorem Half.Keeps.begin {x y : Half} {c eng w} (h : x.Keeps y) : x.Keeps (y.begin c eng w) := by
  unfold Half.begin
  dsimp only
  refine .ite ?_ ?_
  · refine .tryCommit ?_
    split
    · exact .upd (.touchReads (.took (.tickSeq (.modCmd (.served h))))) (by rfl)
    · exact .touchReads (.took (.tickSeq (.modCmd (.served h))))
  · split
    · exact .upd (.touchReads (.took (.tickSeq (.modCmd (.served h))))) (by rfl)
    · exact .touchReads (.took (.tickSeq (.modCmd (.served h))))

theorem Half.Keeps.failRun {x y : Half} {c k' high} (h : x.Keeps y) : x.Keeps (y.failRun c k' high) := by
  unfold Half.failRun
  dsimp only
  exact .record (.took (.abandon h))

theorem Half.Keeps.remoteVio {x y : Half} {tether code st num} (h : x.Keeps y) : x.Keeps (y.remoteVio tether code st num) := by
  unfold Half.remoteVio
  dsimp only
  exact .ite (.announce (.violate h)) (.violate h)

theorem Half.Keeps.markFar {x y : Half} {n st} (h : x.Keeps y) : x.Keeps (y.markFar n st) := by
  unfold Half.markFar
  exact .ite (.modCmd h) h

theorem Half.Keeps.beginSearch {x y : Half} {before n} (h : x.Keeps y) : x.Keeps (Half.beginSearch before y n) := by
  unfold Half.beginSearch
  dsimp only
  split
  · exact .ite (.upd (.took h) (by simp)) h
  · exact h

theorem Half.Keeps.mendGrid {x y : Half} {before n} (h : x.Keeps y) : x.Keeps (Half.mendGrid before y n) := by
  unfold Half.mendGrid
  split
  · refine .ite h ?_
    split
    · exact .commitBytes h
    · exact h
  · exact h

theorem Half.Keeps.decideSlot {x y : Half} {n s' place pic} (h : x.Keeps y) : x.Keeps (y.decideSlot n s' place pic) := by
  unfold Half.decideSlot
  exact .beginDecodes (.modPipe (.modBatchSlot h))

theorem Half.Keeps.expireSlots {x y : Half} {n b} (h : x.Keeps y) : x.Keeps (y.expireSlots n b) := by
  unfold Half.expireSlots
  dsimp only
  exact .modPipe (.foldl (fun _ _ k => .ite k (.decideSlot k)) h)

theorem Half.Keeps.keepRefs {x y : Half} {b k'} (h : x.Keeps y) : x.Keeps (y.keepRefs b k') := by
  unfold Half.keepRefs
  dsimp only
  exact .modPipe (.commitBytes h)

theorem Half.Keeps.postSw {x y : Half} {n s' budget data} (h : x.Keeps y) : x.Keeps (y.postSw n s' budget data) := by
  unfold Half.postSw
  dsimp only
  split
  · exact .queueIrq (.modPipe (.vwrite (.vwrite (.took h))))
  · exact h

theorem Half.Keeps.enqueueBatch {x y : Half} {before n} (h : x.Keeps y) : x.Keeps (Half.enqueueBatch before y n) := by
  unfold Half.enqueueBatch
  dsimp only
  split
  · exact .ite h (.beginDecodes (.foldl (fun _ _ k => .ite k (.ite (.modBatchSlot (.postSw k)) (.modPipe k))) (.modPipe h)))
  · exact h

theorem Half.Keeps.stateLost {x y : Half} {before n} (h : x.Keeps y) : x.Keeps (Half.stateLost before y n) := by
  unfold Half.stateLost
  dsimp only
  split
  · exact .modPipe h
  · exact h

theorem Half.Keeps.quickArrives {x y : Half} {n} (h : x.Keeps y) : x.Keeps (y.quickArrives n) := by
  unfold Half.quickArrives
  dsimp only
  split
  · exact h
  · exact .ite (.upd h (by simp)) h

theorem Half.Keeps.admitB {x y : Half} {before n} (h : x.Keeps y) : x.Keeps (Half.admitB before y n) := by
  unfold Half.admitB
  dsimp only
  split
  · exact .ite (.ite h (.upd h (by rfl))) h
  · exact h

theorem Half.Keeps.crosses {x y : Half} (h : x.Keeps y) : x.Keeps y.crosses := by
  unfold Half.crosses
  dsimp only
  exact .upd (.took h) (by simp)

theorem Half.Keeps.advanceHead {x y : Half} {q} (h : x.Keeps y) : x.Keeps (y.advanceHead q) := by
  unfold Half.advanceHead
  dsimp only
  exact .vwrite (.modQueue h)

theorem Half.Keeps.diagWork {x y : Half} {test n starts pass} (h : x.Keeps y) : x.Keeps (y.diagWork test n starts pass) := by
  unfold Half.diagWork
  dsimp only
  exact .ite (.upd (.closeGate h) (by rfl)) (.ite (.upd (.ite (.setGates h) h) (by rfl)) (.ite (.modTest h) h))

theorem Half.Keeps.finishReplay {x y : Half} {slot} (h : x.Keeps y) : x.Keeps (y.finishReplay slot) := by
  unfold Half.finishReplay
  dsimp only
  exact .ite (.mbxIrq (.upd (.modSlot h) (by rfl))) (.upd (.modSlot h) (by rfl))

theorem Half.Keeps.diagEnd {x y : Half} {slot pass} (h : x.Keeps y) : x.Keeps (y.diagEnd slot pass) := by
  unfold Half.diagEnd
  dsimp only
  exact .ite (.finishWaiting (.diagWork h)) (.cause (.finishWaiting (.diagWork h)))

theorem Half.Keeps.coolantReport {x y : Half} {v} (h : x.Keeps y) : x.Keeps (y.coolantReport v) := by
  unfold Half.coolantReport
  dsimp only
  refine .ite ?_ ?_
  · exact .thmEvent (.ite (.ite (.upd h (by rfl)) (.thmEvent (.upd h (by rfl)))) (.upd h (by rfl)))
  · exact .ite (.ite (.upd h (by rfl)) (.thmEvent (.upd h (by rfl)))) (.upd h (by rfl))

theorem Half.Keeps.openDebug {x y : Half} {level secs} (h : x.Keeps y) : x.Keeps (y.openDebug level secs) := by
  unfold Half.openDebug
  dsimp only
  exact .ite (.closeGates (.upd h (by rfl))) (.upd h (by rfl))

theorem Half.Keeps.newReport {x y : Half} {dev nonce} (h : x.Keeps y) : x.Keeps (y.newReport dev nonce) := by
  unfold Half.newReport
  dsimp only
  exact .upd (.useLeaf h) (by rfl)

theorem Half.Keeps.hold {x y : Half} {slot image msg} (h : x.Keeps y) : x.Keeps (y.hold slot image msg) := by
  unfold Half.hold
  dsimp only
  exact .upd h (by rfl)

theorem Half.Keeps.toggleSlot {x y : Half} {kind} (h : x.Keeps y) : x.Keeps (y.toggleSlot kind) := by
  unfold Half.toggleSlot
  dsimp only
  exact .upd h (by rfl)

theorem Half.Keeps.writeSlot {x y : Half} {kind i valid} (h : x.Keeps y) : x.Keeps (y.writeSlot kind i valid) := by
  unfold Half.writeSlot
  dsimp only
  exact .upd h (by rfl)

theorem Half.Keeps.removeTpt {x y : Half} {gone} (h : x.Keeps y) : x.Keeps (y.removeTpt gone) := by
  unfold Half.removeTpt
  dsimp only
  exact .upd h (by rfl)

theorem Half.Keeps.teardown {x y : Half} {c} (h : x.Keeps y) : x.Keeps (y.teardown c) := by
  unfold Half.teardown
  dsimp only
  exact .upd (.removeTpt (.releaseCtx (.ite (.queueIrq (.endCmds (.upd h (by simp)))) (.endCmds (.upd h (by simp)))))) (by rfl)

theorem Half.Keeps.faultAll {x y : Half} {ctx ns} (h : x.Keeps y) : x.Keeps (y.faultAll ctx ns) := by
  unfold Half.faultAll
  exact .ite h (.teardown (.foldl (fun _ _ k => .endCmd (.took k)) h))

theorem Half.Keeps.loosen {x y : Half} {ctx pages} (h : x.Keeps y) : x.Keeps (y.loosen ctx pages) := by
  unfold Half.loosen
  dsimp only
  exact .upd h (by rfl)

theorem Half.Keeps.freeSlots {x y : Half} {cl} (h : x.Keeps y) : x.Keeps (y.freeSlots cl) := by
  unfold Half.freeSlots
  dsimp only
  exact .upd h (by simp)

theorem Half.Keeps.releaseClient {x y : Half} {cl} (h : x.Keeps y) : x.Keeps (y.releaseClient cl) := by
  unfold Half.releaseClient
  dsimp only
  exact .upd (.freeSlots (.foldl (fun _ _ k => .teardown k) h)) (by rfl)

theorem Half.Keeps.acknowledge {x y : Half} (h : x.Keeps y) : x.Keeps y.acknowledge := by
  unfold Half.acknowledge
  dsimp only
  split
  · exact h
  · refine .ite h (.ite (.ite (.mbxIrq (.modSlot (.upd h (by rfl)))) (.modSlot (.upd h (by rfl)))) (.ite (.finishReplay (.ite (.mbxIrq
      (.modSlot (.upd h (by rfl)))) (.modSlot (.upd h (by rfl))))) ?_))
    split
    · exact .finishBad (.ite (.mbxIrq (.modSlot (.upd h (by rfl)))) (.modSlot (.upd h (by rfl))))
    · exact .ite (.mbxIrq (.modSlot (.upd h (by rfl)))) (.modSlot (.upd h (by rfl)))

theorem Half.Keeps.tick {x y : Half} (h : x.Keeps y) : x.Keeps y.tick := by
  unfold Half.tick
  dsimp only
  exact .upd h (by rfl)

end Sys2Proof.Machine
end

section
/-! PROOFS. What the operations of a half that release waiters, reset and start commands keep. -/

namespace Sys2Proof.Machine
open Sys2Proof.Laws.Memory

theorem Half.Keeps.settleOne {x y z : Half} (h : x.Keeps y) (hz : y.settleOne = some z) : x.Keeps z := by
  revert hz
  unfold Half.settleOne
  dsimp only
  split
  · rintro ⟨⟩
    exact .modCmd h
  · split
    · rintro ⟨⟩
      exact .syncCommit h
    · split
      · rintro ⟨⟩
        exact .ite (.commit h) (.syncCommit h)
      · split
        · rintro ⟨⟩
          exact .commit h
        · rintro ⟨⟩

theorem Half.Keeps.settleN {x y : Half} {n} (h : x.Keeps y) : x.Keeps (settleN n y) := by
  induction n generalizing y with
  | zero => exact h
  | succ n ih =>
    unfold Machine.settleN
    split
    · exact ih (.settleOne h ‹_›)
    · exact h

theorem Half.Keeps.beginOne {x y z : Half} (h : x.Keeps y) (hz : y.beginOne = some z) : x.Keeps z := by
  revert hz
  unfold Half.beginOne
  dsimp only
  split
  · rintro ⟨⟩
  · split
    · rintro ⟨⟩
      exact .failCmd h
    · rintro ⟨⟩
      exact .tickSeq (.modCmd h)

theorem Half.Keeps.beginN {x y : Half} {n} (h : x.Keeps y) : x.Keeps (beginN n y) := by
  induction n generalizing y with
  | zero => exact h
  | succ n ih =>
    unfold Machine.beginN
    split
    · exact ih (.beginOne h ‹_›)
    · exact h

theorem Half.Keeps.qosPut {x y : Half} {off size v : Nat} {q : Qos} (h : x.Keeps y) (hq : y.qosPut off size v = some q) :
    x.Keeps { y with qos := q } :=
  .withQos h (Half.qosPut_sizes hq).1 (Half.qosPut_sizes hq).2

theorem Half.Keeps.qosStore {x y : Half} {ag off size v} (h : x.Keeps y) : x.Keeps (y.qosStore ag off size v) := by
  unfold Half.qosStore
  split
  · exact .ite (.rearm (.qosPut h ‹_›)) (.qosPut h ‹_›)
  · exact .ctrlVio h

theorem Half.Keeps.loadQos {x y : Half} (h : x.Keeps y) : x.Keeps y.loadQos := by
  unfold Half.loadQos
  dsimp only
  refine .upd (.foldl (fun z a k => ?_) (.upd h (by simp))) (by simp)
  split
  · exact .qosPut k ‹_›
  · exact k

theorem Half.Keeps.powerReset {x y : Half} (h : x.Keeps y) : x.Keeps y.powerReset := by
  refine h.halfReset.trans ⟨rfl, fun e => ?_, id⟩
  rw [Half.shaped_iff] at e ⊢
  obtain ⟨hslots, hengines, happ, hpairs, -, -, hrecs, hports, -⟩ := e
  exact ⟨hslots, hengines, happ, hpairs, by simp [Half.powerReset], by simp [Half.powerReset], hrecs, hports, by simp [Half.powerReset]⟩

/-- Another memory, which is canonical where the half from which it comes is. -/
theorem Half.Keeps.withMem {x y : Half} {m : Mem} (h : x.Keeps y) (hm : x.canonical = true → Memory.wf m.cells = true) :
    x.Keeps { y with mem := m } := by
  refine ⟨h.me, h.shaped, fun e => ?_⟩
  have hy := h.canonical e
  simp only [Half.canonical, Bool.and_eq_true] at hy ⊢
  exact ⟨hm e, hy.2⟩

theorem Half.canonical_cells {x : Half} (h : x.canonical = true) : Memory.wf x.mem.cells = true := by
  simp only [Half.canonical, Bool.and_eq_true] at h
  exact h.1

theorem Half.Keeps.asleep {x y : Half} {st} (h : x.Keeps y) : x.Keeps (y.asleep st) := by
  unfold Half.asleep
  dsimp only
  have hz : x.Keeps (y.sleepDebug (decide (st = .off))) := .sleepDebug h
  generalize y.sleepDebug (decide (st = .off)) = z at hz ⊢
  have hm := Half.Keeps.withMem (m := { z.closeGates.switchedOff.mem with
    cells := if st = .off then [] else z.mem.cells, bad := if st = .off then [] else z.mem.bad }) hz.closeGates.switchedOff
    (fun e => by
      dsimp only
      split
      · exact rfl
      · exact Half.canonical_cells (hz.canonical e))
  exact .ite (.upd (.trimDomains (.upd hm (by rfl))) (by rfl)) (.trimDomains (.upd hm (by rfl)))

theorem Half.Keeps.settle {x y : Half} (h : x.Keeps y) : x.Keeps y.settle := by
  unfold Half.settle
  dsimp only
  exact .stampReached (.settleN (.beginN (.settleN (.beginN h))))

theorem Half.Keeps.discardSent {x y : Half} {tether} (h : x.Keeps y) : x.Keeps (y.discardSent tether) := by
  unfold Half.discardSent
  exact .settle (.foldl (fun _ _ k => .endLost k) h)

theorem Half.Keeps.tetherGone {x y : Half} (h : x.Keeps y) : x.Keeps y.tetherGone := by
  unfold Half.tetherGone
  dsimp only
  exact .retrainReply (.discardSent (.ptnAbsent (.upd (.linkDown h) (by rfl))))

theorem Half.Keeps.handoffGone {x y : Half} {st} (h : x.Keeps y) : x.Keeps (y.handoffGone st) := by
  unfold Half.handoffGone
  dsimp only
  exact .discardSent (.upd (.ite (.linkDown h) (.linkSet (.modLink h))) (by rfl))

theorem Half.Keeps.takeCfg {x y : Half} {c} (h : x.Keeps y) : x.Keeps (y.takeCfg c) := by
  unfold Half.takeCfg
  dsimp only
  exact .loadPorts (.loadQos (.upd h (by rfl)))

theorem Half.Keeps.bootUp {x y : Half} {imgs ovls run} (h : x.Keeps y) : x.Keeps (y.bootUp imgs ovls run) := by
  unfold Half.bootUp
  dsimp only
  refine .trimDomains (.cause (.upd ?_ (by rfl)))
  split
  · refine .upd (.takeCfg (.systemClient ?_)) (by rfl)
    split
    · exact .ite (.loadClock (.startClock (.upd h (by simp)))) (.startClock (.upd h (by simp)))
    · exact .startClock (.upd h (by simp))
  · refine .takeCfg (.systemClient ?_)
    split
    · exact .ite (.loadClock (.startClock (.upd h (by simp)))) (.startClock (.upd h (by simp)))
    · exact .startClock (.upd h (by simp))

theorem Half.Keeps.bootChain {x y : Half} {serial lifeOk umpOk run} (h : x.Keeps y) : x.Keeps (y.bootChain serial lifeOk umpOk run) := by
  unfold Half.bootChain
  dsimp only
  refine .ite (.bootFailed (.upd h (by rfl))) ?_
  split
  · exact .bootFailed (.upd h (by rfl))
  · exact .ite (.upd (.bootFailed (.upd h (by rfl))) (by rfl)) (.ite (.bootFailed (.upd h (by rfl))) (.bootUp (.upd h (by rfl))))

theorem Half.Keeps.ctrlStore {x y : Half} {ag off size v} (h : x.Keeps y) : x.Keeps (y.ctrlStore ag off size v) := by
  unfold Half.ctrlStore
  dsimp only
  refine .ite (.ctrlVio h) (.ite (.mbxStore h) (.ite ?_ ?_))
  · exact .umpStore h
  · exact .ite (.qosStore h) (.ite (.timStore h) (.ite (.thmStore h) (.ite (.dblStore h) (.ite (.lnkStore h) h))))

theorem Half.Keeps.killBatches {x y : Half} (h : x.Keeps y) : x.Keeps y.killBatches := by
  unfold Half.killBatches
  exact .settle (.endCmds h)

theorem Half.Keeps.retrainEnd {x y : Half} {i reason} (h : x.Keeps y) : x.Keeps (y.retrainEnd i reason) := by
  unfold Half.retrainEnd
  dsimp only
  exact .ite (.killBatches (.upd (.cause (.linkSet (.modLink h))) (by rfl))) (.cause (.linkSet (.modLink h)))

theorem Half.Keeps.linkVio {x y : Half} {i code} (h : x.Keeps y) : x.Keeps (y.linkVio i code) := by
  unfold Half.linkVio
  dsimp only
  exact .ite (.violate h) (.ite (.tetherGone (.violate h)) (.foldl (fun _ _ k => .ite (.retrainReply k) k) (.violate h)))

theorem Half.Keeps.takeOverlays {x y : Half} {run} (h : x.Keeps y) : x.Keeps (y.takeOverlays run) := by
  unfold Half.takeOverlays
  dsimp only
  exact .ite (.takeCfg (.upd h (by rfl))) (.shiftFrames (.takeCfg (.upd h (by rfl))))

theorem Half.Keeps.stopChainSteps {x y : Half} (h : x.Keeps y) : x.Keeps y.stopChainSteps := by
  unfold Half.stopChainSteps
  dsimp only
  exact .settle (.endCmds h)

theorem Half.Keeps.takeChain {x y : Half} {crossed} (h : x.Keeps y) : x.Keeps (y.takeChain crossed) := by
  unfold Half.takeChain
  dsimp only
  refine .announce ?_
  split
  · exact .upd (.restorePlan (.restoreFusion (.stopChainSteps h))) (by rfl)
  · exact .upd (.stopChainSteps h) (by rfl)

theorem Half.Keeps.localReplay {x y : Half} {frame} (h : x.Keeps y) : x.Keeps (y.localReplay frame) := by
  unfold Half.localReplay
  dsimp only
  exact .umpEvent (.upd (.takeChain (.dropUntrusted h)) (by rfl))

theorem Half.Keeps.emptyChain {x y : Half} (h : x.Keeps y) : x.Keeps y.emptyChain := by
  unfold Half.emptyChain
  dsimp only
  exact .upd (.stopChainSteps h) (by rfl)

theorem Half.Keeps.becomeStandby {x y : Half} (h : x.Keeps y) : x.Keeps y.becomeStandby := by
  unfold Half.becomeStandby
  dsimp only
  exact .upd (.emptyChain h) (by rfl)

theorem Half.Keeps.beginSwap {x y : Half} {u n} (h : x.Keeps y) : x.Keeps (y.beginSwap u n) := by
  unfold Half.beginSwap
  dsimp only
  exact .updWaits (.upd (.ite (.upd (.modEngine (.ite (.settle (.endCmds h)) h)) (by rfl)) (.modEngine (.ite (.settle (.endCmds h)) h)))
      (by rfl))

theorem Half.Keeps.swapBoundary {x y : Half} (h : x.Keeps y) : x.Keeps y.swapBoundary := by
  unfold Half.swapBoundary
  dsimp only
  split
  · exact h
  · refine .ite h ?_
    split
    · exact .beginSwap h
    · split
      · exact .ite (.failWaiting (.upd h (by rfl))) (.finishWaiting (.upd h (by rfl)))
      · exact .upd h (by rfl)

theorem Half.Keeps.engineBoundary {x y : Half} (h : x.Keeps y) : x.Keeps y.engineBoundary := by
  unfold Half.engineBoundary
  dsimp only
  refine .quickBoundary (.ite ?_ ?_)
  · exact .swapBoundary (.nextRetire (.paySpares (.deadDie (.deadDie (.retireBoundary (.measureBoundary h))))))
  · exact .nextRetire (.paySpares (.deadDie (.deadDie (.retireBoundary (.measureBoundary h)))))

theorem Half.Keeps.enterDoze {x y : Half} (h : x.Keeps y) : x.Keeps y.enterDoze := by
  unfold Half.enterDoze
  dsimp only
  exact .applyClocks (.trimDomains (.upd (.settle (.endCmds h)) (by simp)))

theorem Half.Keeps.dozeBoundary {x y : Half} (h : x.Keeps y) : x.Keeps y.dozeBoundary := by
  unfold Half.dozeBoundary
  dsimp only
  split
  · exact .finishWaiting (.enterDoze (.upd h (by rfl)))
  · exact h

theorem Half.Keeps.ownBoundary {x y : Half} (h : x.Keeps y) : x.Keeps y.ownBoundary := by
  unfold Half.ownBoundary
  dsimp only
  exact .standbyBoundary (.causeBoundary (.warmupBoundary (.applyClocks (.trimDomains (.dozeBoundary (.mapOutBoundary
      (.engineBoundary h)))))))

theorem Half.Keeps.sleepSteps {x y : Half} {keep} (h : x.Keeps y) : x.Keeps (y.sleepSteps keep) := by
  unfold Half.sleepSteps
  dsimp only
  exact .thmEvent (.upd (.foldl (fun _ _ k => .releaseCtx k) (.endCmds (.settle (.endCmds (.upd h (by rfl)))))) (by simp))

theorem Half.Keeps.stopWork {x y : Half} (h : x.Keeps y) : x.Keeps y.stopWork := by
  unfold Half.stopWork
  exact .settle (.endCmds h)

theorem Half.Keeps.takeOvls {x y : Half} {now} (h : x.Keeps y) : x.Keeps (y.takeOvls now) := by
  unfold Half.takeOvls
  dsimp only
  refine .ite ?_ ?_
  · exact .goRunDim (.ite (.takeCfg h) (.upd (.shiftFrames (.takeCfg h)) (by rfl)))
  · exact .ite (.takeCfg h) (.upd (.shiftFrames (.takeCfg h)) (by rfl))

theorem Half.Keeps.commitStarted {x y : Half} {n} (h : x.Keeps y) : x.Keeps (y.commitStarted n) := by
  unfold Half.commitStarted
  dsimp only
  split
  · exact h
  · exact .ite (.settle (.tryCommit h)) h

theorem Half.Keeps.planCommit {x y : Half} {c} (h : x.Keeps y) : x.Keeps (y.planCommit c) := by
  unfold Half.planCommit
  split
  · exact .ite (.settle (.tryCommit (.modCmd (.took (.took (.took (.took h))))))) h
  · exact h

theorem Half.Keeps.batchCommit {x y : Half} {n status} (h : x.Keeps y) : x.Keeps (y.batchCommit n status) := by
  unfold Half.batchCommit
  split
  · exact .ite (.settle (.tryCommit (.modCmd (.took (.took h))))) h
  · exact h

theorem Half.Keeps.addHuddle {x y : Half} {x' n} (h : x.Keeps y) : x.Keeps (Half.addHuddle x' y n) := by
  unfold Half.addHuddle
  dsimp only
  split
  · exact .ite (.settle (.upd h (by rfl))) h
  · exact h

theorem Half.Keeps.endRemote {x y : Half} {n st retry} (h : x.Keeps y) : x.Keeps (y.endRemote n st retry) := by
  unfold Half.endRemote
  split
  · exact .settle (.record (.took h))
  · exact h

theorem Half.Keeps.takeAnswer {x y : Half} {n st retry} (h : x.Keeps y) : x.Keeps (y.takeAnswer n st retry) := by
  unfold Half.takeAnswer
  dsimp only
  split
  · exact h
  · exact .ite h (.ite (.settle (.tryCommit h)) (.settle (.record (.took h))))

theorem Half.Keeps.takeSw {x y : Half} {before n} (h : x.Keeps y) : x.Keeps (Half.takeSw before y n) := by
  unfold Half.takeSw
  dsimp only
  split
  · split
    · exact h
    · refine .ite h ?_
      split
      · exact .modPipe h
      · refine .ite (.modPipe h) (.ite (.decideSlot (.modPipe h)) ?_)
        split
        · exact .settle (.endCmds (.endCmd (.memErr (.modPipe h))))
        · exact .ite (.modPipe (.decideSlot (.modPipe h))) (.decideSlot (.modPipe h))
  · exact h

theorem Half.Keeps.fetch {x y : Half} {qn} (h : x.Keeps y) : x.Keeps (y.fetch qn) := by
  unfold Half.fetch
  dsimp only
  split
  · exact h
  · refine .ite (.ite (.readCplHead h) h) ?_
    split
    · exact .settle (.endCmds (.putRecord (.memErr (.modClient (.advanceHead (.ite (.readCplHead h) h))))))
    · exact .settle (.upd (.modClient (.advanceHead (.ite (.readCplHead h) h))) (by rfl))

theorem Half.Keeps.unmapAll {x y : Half} {ctx rs} (h : x.Keeps y) : x.Keeps (y.unmapAll ctx rs) := by
  unfold Half.unmapAll
  dsimp only
  exact .settle (.faultAll (.removeTpt (.loosen h)))

theorem Half.Keeps.mapAll {x y : Half} {ctx rs} (h : x.Keeps y) : x.Keeps (y.mapAll ctx rs) := by
  unfold Half.mapAll
  dsimp only
  exact .settle (.faultAll (.removeTpt (.foldl (fun _ _ k => .foldl (fun _ _ k1 => .mapPage k1) k) (.loosen h))))

/-- Cells moved one by one leave the memory canonical. -/
theorem foldl_memWrite_wf {l : List Host.Cell} {m : List Host.Cell} {f : Host.Cell → Nat} (hm : Memory.wf m = true) :
    Memory.wf (l.foldl (fun acc c => memWrite acc (f c) c.2) m) = true := by
  induction l generalizing m with
  | nil => exact hm
  | cons c l ih => exact ih (memWrite_wf _ _ _ hm)

theorem Half.Keeps.finishMove {x y : Half} (h : x.Keeps y) : x.Keeps y.finishMove := by
  unfold Half.finishMove
  split
  · exact h
  · rename_i m rest _
    dsimp only
    refine .settle (.memErr (.withMem h.moveLines fun e => ?_))
    exact foldl_memWrite_wf (memClear_wf _ _ _ (memClear_wf _ _ _ (Half.canonical_cells (h.canonical e))))

theorem Half.Keeps.subsystemReset {x y : Half} {code} (h : x.Keeps y) : x.Keeps (y.subsystemReset code) := by
  unfold Half.subsystemReset
  dsimp only
  have hz : x.Keeps (y.endCmds (y.onSubsystem code) stKilled).settle := .settle (.endCmds h)
  generalize (y.endCmds (y.onSubsystem code) stKilled).settle = z at hz ⊢
  have hw : x.Keeps { z with powx := { z.powx with
      subReset := if z.powx.subReset.contains code then z.powx.subReset else z.powx.subReset ++ [code] } } := .upd hz (by rfl)
  have hpairs := hw.modPair (n := code - 4) (f := fun r => { fw := r.fw }) (fun _ _ => rfl)
  exact .ite (.upd hw (by simp)) (.ite hpairs (.ite (.upd hw (by rfl)) (.ite (.upd hw (by rfl)) (.ite (.upd hw (by rfl)) (.ite (.upd hw
      (by rfl))
    (.ite (.modPipe (.ite (.detachSw (.killBatches hw)) (.killBatches hw))) (.ite (.foldl (fun _ _ k => .ite
        (.ptnAbsent k) k) hw) hw)))))))

theorem Half.Keeps.csiVio {x y : Half} {r cls code n} (h : x.Keeps y) : x.Keeps (y.csiVio r cls code n) := by
  induction n with
  | zero => exact h
  | succ n ih => exact .violate ih

theorem chooseEngine_length (es : List Engine) (free : List Nat) (fuel : Nat) : (chooseEngine es free fuel).1.length = es.length := by
  induction fuel generalizing es free with
  | zero => cases free <;> simp [chooseEngine]
  | succ n ih =>
    cases free with
    | nil => simp [chooseEngine]
    | cons a l =>
      simp only [chooseEngine]
      split
      · exact rfl
      · split
        · split
          · simp
          · simp [ih]
        · exact rfl

theorem Half.Keeps.start {x y : Half} {n u op ok chk work} (h : x.Keeps y) : x.Keeps (y.start n u op ok chk work) := by
  unfold Half.start
  split
  · exact h
  · rename_i c _
    refine .ite h ?_
    split
    · exact .ite (.settle (.tryCommit (.modCmd (.served h)))) (.settle (.failCmd (.served h)))
    · have hes : ∀ es, es = (if isEngine c then chooseEngine y.sched.engines (y.freeEngines c) 19 else (y.sched.engines, none)).1 →
          es.length = y.sched.engines.length := by
        rintro es rfl
        split
        · exact chooseEngine_length _ _ _
        · exact rfl
      generalize (if isEngine c then chooseEngine y.sched.engines (y.freeEngines c) 19 else (y.sched.engines, none)) = p at hes ⊢
      obtain ⟨es, eng⟩ := p
      have he : x.Keeps { y with sched := { y.sched with engines := es } } := .upd h (by rw [hes es rfl])
      dsimp only
      refine .ite he (.ite (.modCmd h) ?_)
      split
      · exact .settle (.dataLost (.served he))
      · split
        · exact .settle (.failRun (.served he))
        · exact .settle (.begin he)

theorem Half.Keeps.startWord {x y : Half} {cmd op value} (h : x.Keeps y) : x.Keeps (y.startWord cmd op value) := by
  unfold Half.startWord
  exact .start h

end Sys2Proof.Machine
end

section
/-! PROOFS. What every operation of the block and every command keeps. -/

namespace Sys2Proof.Machine
open Sys2Proof.Laws.Memory

/-! ### The block -/

/-- What every operation of the block keeps: what each half keeps, and the queue of waiting commands. -/
structure State.Keeps (s t : State) : Prop where
  pending : t.pending = s.pending
  half : ∀ h, (s.half h).Keeps (t.half h)

theorem State.Keeps.refl {s : State} : s.Keeps s := ⟨rfl, fun _ => .refl⟩

theorem State.Keeps.trans {s t u : State} (h : s.Keeps t) (k : t.Keeps u) : s.Keeps u :=
  ⟨k.pending.trans h.pending, fun g => (h.half g).trans (k.half g)⟩

/-- A new record of what the halves share, or a new answer. -/
theorem State.Keeps.upd {s t : State} (h : s.Keeps t) {dev resp} : s.Keeps (State.mk t.a t.b dev resp t.pending) :=
  ⟨h.pending, fun g => by simpa using h.half g⟩

theorem State.Keeps.setHalf {s t : State} {k x} (h : s.Keeps t) (hx : (s.half k).Keeps x) : s.Keeps (t.setHalf k x) := by
  refine ⟨by simp [h.pending], fun g => ?_⟩
  by_cases hg : g = k
  · subst hg
    simpa using hx
  · obtain rfl : g = other k := by cases g <;> cases k <;> simp_all [other]
    simpa using h.half (other k)

theorem State.Keeps.mod {s t : State} {k f} (h : s.Keeps t) (hf : ∀ y, (s.half k).Keeps y → (s.half k).Keeps (f y)) :
    s.Keeps (t.mod k f) :=
  h.setHalf (hf _ (h.half k))

theorem State.Keeps.ite {s t u : State} {c : Prop} [Decidable c] (h : s.Keeps t) (k : s.Keeps u) : s.Keeps (if c then t else u) := by
  split
  · exact h
  · exact k

theorem State.Keeps.foldl {s t : State} {α : Type} {f : State → α → State} {l : List α} (hf : ∀ u a, s.Keeps u → s.Keeps (f u a))
    (h : s.Keeps t) : s.Keeps (l.foldl f t) := by
  induction l generalizing t with
  | nil => exact h
  | cons a l ih => exact ih (hf t a h)

/-- A message's effect keeps what the block keeps. -/
inductive Reply.Keeps (s : State) : Reply → Prop where
  | done {t st fields} (h : s.Keeps t) : Reply.Keeps s (.done t st fields)
  | fail {t c} (h : s.Keeps t) : Reply.Keeps s (.fail t c)
  | wait {t} (h : s.Keeps t) : Reply.Keeps s (.wait t)

theorem Reply.Keeps.ite {s : State} {r q : Reply} {c : Prop} [Decidable c] (h : Reply.Keeps s r) (k : Reply.Keeps s q) :
    Reply.Keeps s (if c then r else q) := by
  split
  · exact h
  · exact k

/-- A command answers a next state, which keeps what the block keeps. -/
inductive Answers (s : State) : Host.Outcome State Fault Refusal → Prop where
  | next {t} (h : s.Keeps t) : Answers s (.next t)

theorem Answers.ite {s : State} {r q : Host.Outcome State Fault Refusal} {c : Prop} [Decidable c] (h : Answers s r) (k : Answers s q) :
    Answers s (if c then r else q) := by
  split
  · exact h
  · exact k

theorem State.Keeps.runMsg {s t : State} {h slot op f chk act} (k : s.Keeps t) (ha : ∀ m, Reply.Keeps s (act t m)) :
    s.Keeps (t.runMsg h slot op f chk act) := by
  unfold State.runMsg
  dsimp only
  refine .ite (.ite (.setHalf k (.finishReplay (k.half h))) ?_) k
  split
  · exact .setHalf k (.finishBad (k.half h))
  · generalize hr : act t _ = r
    cases hr ▸ ha _ with
    | done hd => exact .mod hd fun _ => .finish
    | fail hd => exact .mod hd fun _ => .finishBad
    | wait hd => exact .mod hd fun _ => .modSlot

theorem Answers.mgmtBusFramingError {s : State} {h tool} : Answers s (execMgmtBusFramingError h tool s) := by
  unfold Machine.execMgmtBusFramingError
  exact .next (.mod .refl (fun _ k => .ite k (.violate k)))

theorem Answers.bridgeFrameReceive {s : State} {h} : Answers s (execBridgeFrameReceive h s) := by
  unfold Machine.execBridgeFrameReceive
  dsimp only
  refine .next ?_
  split
  · exact .refl
  · refine .ite .refl (.mod (.setHalf .refl (.upd .refl (by rfl))) ?_)
    intro y k
    split
    · exact .relayOut k
    · exact .ite (.toRing (.bridgeLocal (.learn k))) (.bridgeLocal (.learn k))

theorem Answers.linkRecoveryCauseClear {s : State} {h} : Answers s (execLinkRecoveryCauseClear h s) := by
  unfold Machine.execLinkRecoveryCauseClear
  dsimp only
  exact .next (.mod .refl (fun _ k => .ite (.upd k (by simp)) (.cause (.upd k (by simp)))))

theorem Answers.frameMoveComplete {s : State} {h} : Answers s (execFrameMoveComplete h s) := by
  unfold Machine.execFrameMoveComplete
  exact .next (.mod .refl (fun _ k => .finishMove k))

theorem Answers.subsystemResetComplete {s : State} {h code} : Answers s (execSubsystemResetComplete h code s) := by
  unfold Machine.execSubsystemResetComplete
  dsimp only
  refine .ite (.next .refl) (.ite ?_ ?_)
  · exact .next (.mod (.mod .refl (fun _ k => .upd k (by rfl))) (fun _ k => .pairRestart k))
  · exact .next (.mod (.mod .refl (fun _ k => .upd k (by rfl))) (fun _ k => .settle k))

theorem Answers.gatePermitRefresh {s : State} {h} : Answers s (execGatePermitRefresh h s) := by
  unfold Machine.execGatePermitRefresh
  dsimp only
  exact .next (.mod .refl (fun _ k => .ite (.upd k (by rfl)) k))

theorem Answers.umpireHeartbeatSend {s : State} {h} : Answers s (execUmpireHeartbeatSend h s) := by
  unfold Machine.execUmpireHeartbeatSend
  dsimp only
  exact .next (.mod .refl (fun _ k => .ite k (.upd (.ite (.send k) k) (by rfl))))

theorem Answers.announceTransmit {s : State} {h port} : Answers s (execAnnounceTransmit h port s) := by
  unfold Machine.execAnnounceTransmit
  exact .next (.mod .refl (fun _ k => .ite (.sendOn k) k))

theorem Answers.pdelayReqTransmit {s : State} {h port t'} : Answers s (execPdelayReqTransmit h port t' s) := by
  unfold Machine.execPdelayReqTransmit
  exact .next (.mod .refl (fun _ k => .ite (.modPort (.sendOn k)) k))

theorem State.Keeps.feedLead {s t : State} {h p off} (hk : s.Keeps t) : s.Keeps (t.feedLead h p off) := by
  unfold State.feedLead
  dsimp only
  exact .ite (.setHalf hk (.measured (.acquire (.upd (hk.half _) (by rfl))))) hk

theorem Answers.tetherLinkDown {s : State} {h} : Answers s (execTetherLinkDown h s) := by
  unfold Machine.execTetherLinkDown
  exact .next (.mod .refl (fun _ k => .ite (.tetherGone k) k))

theorem Answers.rootPortLinkDown {s : State} {h fn} : Answers s (execRootPortLinkDown h fn s) := by
  unfold Machine.execRootPortLinkDown
  dsimp only
  exact .next (.mod .refl (fun _ k => .ite k (.announce (.foldl (fun _ _ k1 => .ptnAbsent k1) k))))

theorem Answers.keygenComplete {s : State} {h} : Answers s (execKeygenComplete h s) := by
  unfold Machine.execKeygenComplete
  dsimp only
  exact .next (.mod .refl (fun _ k => .ite (.upd (.took k) (by rfl)) k))

theorem Answers.treeGenerationComplete {s : State} {h} : Answers s (execTreeGenerationComplete h s) := by
  unfold Machine.execTreeGenerationComplete
  dsimp only
  exact .next (.mod .refl (fun _ k => .ite (.upd k (by rfl)) k))

theorem Answers.attestBucketRefill {s : State} {h} : Answers s (execAttestBucketRefill h s) := by
  unfold Machine.execAttestBucketRefill
  dsimp only
  exact .next (.mod .refl (fun _ k => .ite (.upd k (by rfl)) k))

theorem Answers.transferStageIdleTimeout {s : State} {h} : Answers s (execTransferStageIdleTimeout h s) := by
  unfold Machine.execTransferStageIdleTimeout
  dsimp only
  exact .next (.mod .refl (fun _ k => .ite (.upd k (by rfl)) k))

theorem Answers.uploadStageIdleTimeout {s : State} {h} : Answers s (execUploadStageIdleTimeout h s) := by
  unfold Machine.execUploadStageIdleTimeout
  dsimp only
  exact .next (.mod .refl (fun _ k => .ite (.upd k (by rfl)) k))

theorem State.Keeps.peerGone {s t : State} {h} (hk : s.Keeps t) : s.Keeps (t.peerGone h) := by
  unfold State.peerGone
  dsimp only
  exact .mod hk (fun _ k => .ite k (.settle (.foldl (fun _ _ k1 => .endLost k1) (.handoffGone k))))

theorem State.Keeps.resetHalf {s t : State} {h} (hk : s.Keeps t) : s.Keeps (t.resetHalf h) := by
  unfold State.resetHalf
  exact .peerGone (.mod hk (fun _ k => .halfReset k))

theorem State.Keeps.dropChange {s t : State} (hk : s.Keeps t) : s.Keeps t.dropChange := by
  unfold State.dropChange
  dsimp only
  refine .upd ?_
  split
  · split
    · refine .mod ?_ (fun _ k => .failWaiting k)
      split
      · split
        · exact .mod hk (fun _ k => .failWaiting k)
        · exact hk
      · exact hk
    · split
      · split
        · exact .mod hk (fun _ k => .failWaiting k)
        · exact hk
      · exact hk
  · split
    · split
      · exact .mod hk (fun _ k => .failWaiting k)
      · exact hk
    · exact hk

theorem State.Keeps.rejoinFails {s t : State} (hk : s.Keeps t) : s.Keeps t.rejoinFails := by
  unfold State.rejoinFails
  dsimp only
  split
  · exact hk
  · exact .mod (.mod (.dropChange hk) (fun _ k => .ite (.cause k) (.upd (.cause k) (by rfl)))) (fun _ k => .upd k (by rfl))

theorem State.Keeps.trainHandoff {s t : State} {h} (hk : s.Keeps t) : s.Keeps (t.trainHandoff h) := by
  unfold State.trainHandoff
  dsimp only
  exact .ite (.mod (.mod hk (fun _ k => .modLink k)) (fun _ k => .modLink k)) hk

theorem State.Keeps.bootHalf {s t : State} {h lifeOk umpOk} (hk : s.Keeps t) : s.Keeps (t.bootHalf h lifeOk umpOk) := by
  unfold State.bootHalf
  dsimp only
  refine .ite ?_ ?_
  · exact .rejoinFails (.trainHandoff (.mod hk (fun _ k => .bootChain (.halfReset k))))
  · exact .trainHandoff (.mod hk (fun _ k => .bootChain (.halfReset k)))

theorem State.Keeps.rebootHalf {s t : State} {h} (hk : s.Keeps t) : s.Keeps (t.rebootHalf h) := by
  unfold State.rebootHalf
  exact .bootHalf (.resetHalf hk)

theorem State.Keeps.afterDebug {s t : State} {before} (hk : s.Keeps t) : s.Keeps (State.afterDebug before t) := by
  unfold State.afterDebug
  dsimp only
  exact .ite (.rebootHalf (.ite (.rebootHalf hk) hk)) (.ite (.rebootHalf hk) hk)

theorem Answers.debugLevelExpiry {s : State} {h} : Answers s (execDebugLevelExpiry h s) := by
  unfold Machine.execDebugLevelExpiry
  exact .next (.afterDebug (.mod .refl (fun _ k => .ite (.endDebug k) k)))

theorem Answers.fieldDebugExpiry {s : State} {h} : Answers s (execFieldDebugExpiry h s) := by
  unfold Machine.execFieldDebugExpiry
  dsimp only
  exact .next (.mod .refl (fun _ k => .ite (.upd k (by rfl)) k))

theorem Answers.fieldDebugTimeSave {s : State} {h} : Answers s (execFieldDebugTimeSave h s) := by
  unfold Machine.execFieldDebugTimeSave
  dsimp only
  exact .next (.mod .refl (fun _ k => .ite (.upd k (by rfl)) k))

theorem State.Keeps.setRoles {s t : State} (hk : s.Keeps t) : s.Keeps t.setRoles := by
  unfold State.setRoles
  dsimp only
  exact .mod (.mod hk (fun _ k => .upd k (by rfl))) (fun _ k => .upd k (by rfl))

theorem Answers.halfResetRelease {s : State} {h lifeOk umpOk} : Answers s (execHalfResetRelease h lifeOk umpOk s) := by
  unfold Machine.execHalfResetRelease
  dsimp only
  exact .ite (.next (.setRoles (.bootHalf (.mod .refl (fun _ k => .upd k (by rfl)))))) (.next .refl)

theorem Answers.halfResetAssert {s : State} {h} : Answers s (execHalfResetAssert h s) := by
  unfold Machine.execHalfResetAssert
  dsimp only
  exact .ite (.next (.setRoles (.mod (.resetHalf .refl) (fun _ k => .upd k (by rfl))))) (.next .refl)

theorem Answers.pwrOkFall {s : State} : Answers s (execPwrOkFall s) := by
  unfold Machine.execPwrOkFall
  dsimp only
  refine .ite ?_ ?_
  · exact .next (.setRoles (.mod (.mod (.upd .refl) (fun _ k => .upd (.powerReset k) (by rfl))) (fun _ k => .upd (.powerReset k)
      (by rfl))))
  · exact .next .refl

theorem State.Keeps.powerOnHalf {s t : State} {h lifeOk umpOk} (hk : s.Keeps t) : s.Keeps (t.powerOnHalf h lifeOk umpOk) := by
  unfold State.powerOnHalf
  dsimp only
  exact .ite (.mod hk (fun _ k => .upd (.powerReset k) (by rfl))) (.trainHandoff (.mod hk (fun _ k => .bootChain (.powerReset k))))

theorem Answers.devicePowerOn {s : State} {lifeA umpA lifeB umpB} : Answers s (execDevicePowerOn lifeA umpA lifeB umpB s) := by
  unfold Machine.execDevicePowerOn
  dsimp only
  exact .ite (.next .refl) (.next (.setRoles (.powerOnHalf (.powerOnHalf (.upd .refl)))))

theorem State.Keeps.wakeHibernate {s t : State} {h} (hk : s.Keeps t) : s.Keeps (t.wakeHibernate h) := by
  unfold State.wakeHibernate
  dsimp only
  exact .ite (.bootHalf hk) (.trainHandoff (.setHalf hk (.upd (.bootUp (hk.half _)) (by rfl))))

theorem State.Keeps.wake {s t : State} {h} (hk : s.Keeps t) : s.Keeps (t.wake h) := by
  unfold State.wake
  dsimp only
  exact .ite hk (.ite (.wakeHibernate hk) (.ite (.trainHandoff (.mod hk (fun _ k => .bootChain (.offReset k)))) hk))

theorem State.Keeps.wakeOrLatch {s t : State} {h} (hk : s.Keeps t) : s.Keeps (t.wakeOrLatch h) := by
  unfold State.wakeOrLatch
  dsimp only
  exact .ite (.mod hk (fun _ k => .upd k (by rfl))) (.wake hk)

theorem Answers.peerWake {s : State} {h} : Answers s (execPeerWake h s) := by
  unfold Machine.execPeerWake
  dsimp only
  exact .ite (.next (.wakeOrLatch (.mod .refl (fun _ k => .upd k (by rfl))))) (.next .refl)

theorem Answers.wakeTimerExpiry {s : State} {h} : Answers s (execWakeTimerExpiry h s) := by
  unfold Machine.execWakeTimerExpiry
  dsimp only
  exact .ite (.next (.wakeOrLatch .refl)) (.next .refl)

theorem Answers.wakePin {s : State} {h} : Answers s (execWakePin h s) := by
  unfold Machine.execWakePin
  exact .next (.wakeOrLatch .refl)

theorem Answers.domainPowerGood {s : State} {h d} : Answers s (execDomainPowerGood h d s) := by
  unfold Machine.execDomainPowerGood
  dsimp only
  exact .next (.mod .refl (fun _ k => .ite k (.ite (.applyClocks (.powerEngine (.upd k (by rfl)))) (.upd k (by rfl)))))

theorem Answers.coolantReportTimeout {s : State} {h} : Answers s (execCoolantReportTimeout h s) := by
  unfold Machine.execCoolantReportTimeout
  dsimp only
  exact .next (.mod .refl (fun _ k => .ite (.thmEvent (.upd k (by rfl))) k))

theorem Answers.temperatureSample {s : State} {h pairs stks} : Answers s (execTemperatureSample h pairs stks s) := by
  unfold Machine.execTemperatureSample
  dsimp only
  refine .next (.mod .refl ?_)
  intro y k
  refine .ite k (.applyClocks (.ite ?_ ?_))
  · refine .thmEvent (.ite ?_ ?_)
    · refine .thmEvent (.ite ?_ ?_)
      · refine .thmEvent (.ite ?_ ?_)
        · exact .thmEvent (.ite (.thmEvent (.upd k (by rfl))) (.upd k (by rfl)))
        · exact .ite (.thmEvent (.upd k (by rfl))) (.upd k (by rfl))
      · refine .ite ?_ ?_
        · exact .thmEvent (.ite (.thmEvent (.upd k (by rfl))) (.upd k (by rfl)))
        · exact .ite (.thmEvent (.upd k (by rfl))) (.upd k (by rfl))
    · refine .ite ?_ ?_
      · refine .thmEvent (.ite ?_ ?_)
        · exact .thmEvent (.ite (.thmEvent (.upd k (by rfl))) (.upd k (by rfl)))
        · exact .ite (.thmEvent (.upd k (by rfl))) (.upd k (by rfl))
      · refine .ite ?_ ?_
        · exact .thmEvent (.ite (.thmEvent (.upd k (by rfl))) (.upd k (by rfl)))
        · exact .ite (.thmEvent (.upd k (by rfl))) (.upd k (by rfl))
  · refine .ite ?_ ?_
    · refine .thmEvent (.ite ?_ ?_)
      · refine .thmEvent (.ite ?_ ?_)
        · exact .thmEvent (.ite (.thmEvent (.upd k (by rfl))) (.upd k (by rfl)))
        · exact .ite (.thmEvent (.upd k (by rfl))) (.upd k (by rfl))
      · refine .ite ?_ ?_
        · exact .thmEvent (.ite (.thmEvent (.upd k (by rfl))) (.upd k (by rfl)))
        · exact .ite (.thmEvent (.upd k (by rfl))) (.upd k (by rfl))
    · refine .ite ?_ ?_
      · refine .thmEvent (.ite ?_ ?_)
        · exact .thmEvent (.ite (.thmEvent (.upd k (by rfl))) (.upd k (by rfl)))
        · exact .ite (.thmEvent (.upd k (by rfl))) (.upd k (by rfl))
      · refine .ite ?_ ?_
        · exact .thmEvent (.ite (.thmEvent (.upd k (by rfl))) (.upd k (by rfl)))
        · exact .ite (.thmEvent (.upd k (by rfl))) (.upd k (by rfl))

theorem Answers.thetaProbe {s : State} {h} : Answers s (execThetaProbe h s) := by
  unfold Machine.execThetaProbe
  dsimp only
  exact .next (.mod .refl (fun _ k => .ite (.upd k (by rfl)) k))

theorem Answers.thetaEstimate {s : State} {h p tj tm tin} : Answers s (execThetaEstimate h p tj tm tin s) := by
  unfold Machine.execThetaEstimate
  dsimp only
  refine .next (.mod .refl ?_)
  intro y k
  refine .ite k ?_
  split
  · exact .upd k (by rfl)
  · refine .ite (.upd k (by rfl)) ?_
    split
    · exact .ite (.thmEvent (.upd k (by rfl))) (.upd k (by rfl))
    · exact .upd k (by rfl)

theorem Answers.thermalLimitUpdate {s : State} {h} : Answers s (execThermalLimitUpdate h s) := by
  unfold Machine.execThermalLimitUpdate
  dsimp only
  refine .next (.mod .refl ?_)
  intro y k
  refine .ite ?_ ?_
  · exact k
  · exact .applyClocks (.regulate (.ite (.thmEvent (.upd k (by rfl))) (.ite (.thmEvent (.upd k (by rfl))) (.upd k (by rfl)))))

theorem Answers.forcedDimRelease {s : State} {h} : Answers s (execForcedDimRelease h s) := by
  unfold Machine.execForcedDimRelease
  dsimp only
  exact .next (.mod .refl (fun _ k => .ite (.applyClocks (.upd k (by rfl))) k))

theorem Answers.powerSample {s : State} {h power} : Answers s (execPowerSample h power s) := by
  unfold Machine.execPowerSample
  dsimp only
  exact .next (.mod .refl (fun _ k => .ite (.upd k (by rfl)) k))

theorem State.Keeps.ctrlLoad {s t : State} {h off size} (hk : s.Keeps t) : s.Keeps (t.ctrlLoad h off size) := by
  unfold State.ctrlLoad
  dsimp only
  exact .ite (.upd hk) (.upd (.ite (.mod hk (fun _ k => .upd k (by rfl))) hk))

theorem State.Keeps.tapInvasive {s t : State} {h op} (hk : s.Keeps t) : s.Keeps (t.tapInvasive h op) := by
  unfold State.tapInvasive
  dsimp only
  split
  · exact .mod hk (fun _ k => .upd k (by rfl))
  · exact .mod hk (fun _ k => .modApp k)
  · exact .mod hk (fun _ k => .modPair k (by simp))
  · exact .ite (.upd hk) (.upd hk)
  · exact .ite (.upd (.mod hk (fun _ k => .settle (.commitBytes k)))) (.upd hk)
  · exact .ctrlLoad hk
  · exact .ite (.upd (.mod hk (fun _ k => .ctrlStore k))) (.upd hk)
  · exact hk
  · exact hk
  · exact hk
  · exact hk
  · exact hk
  · exact hk

theorem State.Keeps.tapFree {s t : State} {h} (hk : s.Keeps t) : s.Keeps (t.tapFree h) := by
  unfold State.tapFree
  dsimp only
  exact .upd (.mod hk (fun _ k => .took k))

theorem State.Keeps.tapObserve {s t : State} {h} (hk : s.Keeps t) : s.Keeps (t.tapObserve h) := by
  unfold State.tapObserve
  exact .tapFree hk

theorem State.Keeps.tapAwake {s t : State} {h op} (hk : s.Keeps t) : s.Keeps (t.tapAwake h op) := by
  unfold State.tapAwake
  dsimp only
  split
  · exact .upd hk
  · exact .upd hk
  · exact .tapFree hk
  · exact .upd hk
  · exact .ite (.upd hk) (.tapObserve hk)
  · exact .ite (.tapInvasive hk) (.upd hk)
  · exact .ite (.tapInvasive hk) (.upd hk)
  · exact .ite (.tapInvasive hk) (.upd hk)
  · exact .ite (.tapInvasive hk) (.upd hk)
  · exact .ite (.tapInvasive hk) (.upd hk)
  · exact .ite (.tapInvasive hk) (.upd hk)
  · exact .ite (.tapInvasive hk) (.upd hk)
  · exact .ite (.tapInvasive hk) (.upd hk)

theorem State.Keeps.tapAsleep {s t : State} {h op} (hk : s.Keeps t) : s.Keeps (t.tapAsleep h op) := by
  unfold State.tapAsleep
  dsimp only
  split
  · exact .upd hk
  · exact .upd hk
  · exact .ite (.ctrlLoad hk) (.upd hk)
  · exact .ite (.upd (.mod hk (fun _ k => .umpStore k))) (.upd hk)
  · exact .upd hk
  · exact .upd hk
  · exact .upd hk
  · exact .upd hk
  · exact .upd hk
  · exact .upd hk
  · exact .upd hk
  · exact .upd hk
  · exact .upd hk

theorem Answers.mgmtAlertResponse {s : State} {h} : Answers s (execMgmtAlertResponse h s) := by
  unfold Machine.execMgmtAlertResponse
  dsimp only
  exact .next (.mod (.mod .refl (fun _ k => .upd k (by rfl))) (fun _ k => .upd k (by rfl)))

theorem State.Keeps.retrain {s t : State} {h i reason} (hk : s.Keeps t) : s.Keeps (t.retrain h i reason) := by
  unfold State.retrain
  refine .ite ?_ ?_
  · exact .mod (.mod hk (fun _ k => .retrainClock (.retrainEnd k))) (fun _ k => .retrainClock (.retrainEnd k))
  · exact .mod hk (fun _ k => .retrainEnd k)

theorem State.Keeps.release {s t : State} {h n} (hk : s.Keeps t) : s.Keeps (t.release h n) := by
  unfold State.release
  dsimp only
  refine .ite ?_ ?_
  · exact .mod (.foldl (fun _ _ k => .retrain k) (.mod hk (fun _ k => .modPartner k))) (fun _ k => .upd k (by rfl))
  · exact .foldl (fun _ _ k => .retrain k) (.mod hk (fun _ k => .modPartner k))

theorem Answers.quarantineReleaseTimeout {s : State} {h n} : Answers s (execQuarantineReleaseTimeout h n s) := by
  unfold Machine.execQuarantineReleaseTimeout
  dsimp only
  exact .ite (.next (.release .refl)) (.next .refl)

theorem Answers.partnerAbsentTimeout {s : State} {h n} : Answers s (execPartnerAbsentTimeout h n s) := by
  unfold Machine.execPartnerAbsentTimeout
  dsimp only
  exact .next (.mod .refl (fun _ k => .ite (.ptnAbsent k) k))

theorem Answers.tetherIdentityReceive {s : State} {h serial half report} :
    Answers s (execTetherIdentityReceive h serial half report s) := by
  unfold Machine.execTetherIdentityReceive
  dsimp only
  refine .next (.mod .refl ?_)
  intro y k
  refine .ite ?_ ?_
  · exact k
  · exact .ite (.announce (.modPartner (.ptnFixed (.upd k (by rfl))))) (.announce (.quarantine (.modPartner (.upd k (by rfl)))))

theorem Answers.tetherLinkUp {s : State} {h rate bad} : Answers s (execTetherLinkUp h rate bad s) := by
  unfold Machine.execTetherLinkUp
  dsimp only
  exact .next (.mod .refl (fun _ k => .ite k (.tetherTrained (.upd k (by rfl)))))

theorem State.Keeps.handoffDown {s t : State} (hk : s.Keeps t) : s.Keeps t.handoffDown := by
  unfold State.handoffDown
  dsimp only
  refine .ite (.ite ?_ ?_) (.upd (.dropChange (.mod (.mod hk (fun _ k => .umpEvent (.handoffGone k))) (fun _ k => .umpEvent
      (.handoffGone k)))))
  · exact .dropChange (.mod (.mod hk (fun _ k => .umpEvent (.handoffGone k))) (fun _ k => .umpEvent (.handoffGone k)))
  · exact .mod (.mod hk (fun _ k => .umpEvent (.handoffGone k))) (fun _ k => .umpEvent (.handoffGone k))

theorem State.Keeps.linkLost {s t : State} {h i} (hk : s.Keeps t) : s.Keeps (t.linkLost h i) := by
  unfold State.linkLost
  exact .ite (.handoffDown hk) (.ite (.mod hk (fun _ k => .tetherGone k)) (.mod hk (fun _ k => .linkDown k)))

theorem State.Keeps.retrainFailed {s t : State} {h i} (hk : s.Keeps t) : s.Keeps (t.retrainFailed h i) := by
  unfold State.retrainFailed
  dsimp only
  refine .ite (.linkLost (.ite (.mod (.mod hk (fun _ k => .modLink k)) (fun _ k => .modLink k)) (.mod hk (fun _ k => .modLink k))))
      (.ite ?_ ?_)
  · exact .mod (.mod (.ite (.mod (.mod hk (fun _ k => .modLink k)) (fun _ k => .modLink k)) (.mod hk (fun _ k => .modLink k)))
      (fun _ k => .modLink k)) (fun _ k => .modLink k)
  · exact .mod (.ite (.mod (.mod hk (fun _ k => .modLink k)) (fun _ k => .modLink k)) (.mod hk (fun _ k => .modLink k)))
      (fun _ k => .modLink k)

theorem Answers.retrainComplete {s : State} {h i ok rate bad die} : Answers s (execRetrainComplete h i ok rate bad die s) := by
  unfold Machine.execRetrainComplete
  dsimp only
  refine .ite (.next .refl) (.ite (.next (.mod (.mod (.linkLost .refl) (fun _ k => .retrainReply k)) (fun _ k => .ite
      (.retrainReply k) k))) (.ite (.next (.mod (.mod (.mod .refl (fun _ k => .stepFails k)) (fun _ k => .retrainReply k))
      (fun _ k => .ite (.retrainReply k) k))) (.ite (.next (.mod (.mod (.retrainFailed .refl) (fun _ k => .retrainReply k))
      (fun _ k => .ite (.retrainReply k) k))) (.ite ?_ ?_))))
  · refine .ite ?_ ?_
    · exact .next (.mod (.mod (.handoffDown .refl) (fun _ k => .retrainReply k)) (fun _ k => .ite (.retrainReply k) k))
    · exact .next (.mod (.mod (.mod (.mod (.mod (.mod .refl (fun _ k => .trained k)) (fun _ k => .trained k)) (fun _ k => .bootClock k))
        (fun _ k => .bootClock k)) (fun _ k => .retrainReply k)) (fun _ k => .ite (.retrainReply k) k))
  · refine .ite (.ite ?_ ?_) (.next (.mod (.mod (.mod .refl (fun _ k => .ite (.discovered (.trained k)) (.trained k)))
      (fun _ k => .retrainReply k)) (fun _ k => .ite (.retrainReply k) k)))
    · exact .next (.mod (.mod (.linkLost .refl) (fun _ k => .retrainReply k)) (fun _ k => .ite (.retrainReply k) k))
    · exact .next (.mod (.mod (.mod .refl (fun _ k => .tetherTrained k)) (fun _ k => .retrainReply k)) (fun _ k => .ite
        (.retrainReply k) k))

theorem Answers.sidebandLoss {s : State} {h i} : Answers s (execSidebandLoss h i s) := by
  unfold Machine.execSidebandLoss
  dsimp only
  exact .ite (.next .refl) (.next (.mod (.retrain .refl) (fun _ k => .linkVio k)))

theorem Answers.laneFaultDetected {s : State} {h i lane rx bad} : Answers s (execLaneFaultDetected h i lane rx bad s) := by
  unfold Machine.execLaneFaultDetected
  dsimp only
  exact .ite (.next .refl) (.ite (.next (.retrain (.setHalf .refl (.modLink .refl)))) (.next (.setHalf .refl (.modLink .refl))))

theorem Answers.flitCrcError {s : State} {h i again} : Answers s (execFlitCrcError h i again s) := by
  unfold Machine.execFlitCrcError
  dsimp only
  refine .ite (.next .refl) (.ite ?_ ?_)
  · exact .next (.ite (.mod (.setHalf .refl (.modLink .refl)) (fun _ k => .modLink k)) (.setHalf .refl (.modLink .refl)))
  · exact .next (.mod (.retrain (.ite (.mod (.setHalf .refl (.modLink .refl)) (fun _ k => .modLink k)) (.setHalf .refl
      (.modLink .refl)))) (fun _ k => .ite k (.linkVio k)))

theorem Answers.mbxHeartbeatTick {s : State} {h} : Answers s (execMbxHeartbeatTick h s) := by
  unfold Machine.execMbxHeartbeatTick
  dsimp only
  exact .next (.mod .refl (fun _ k => .ite (.upd k (by rfl)) k))

theorem Answers.mtimeCompare {s : State} {h pair cmp} : Answers s (execMtimeCompare h pair cmp s) := by
  unfold Machine.execMtimeCompare
  exact .next (.mod .refl (fun _ k => .ite (.modPair k (by simp)) k))

theorem State.Keeps.setLead {s t : State} {h} (hk : s.Keeps t) : s.Keeps (t.setLead h) := by
  unfold State.setLead
  exact .mod (.mod hk (fun _ k => .becomeLead k)) (fun _ k => .becomeFollower k)

theorem State.Keeps.moveChain {s t : State} {h} (hk : s.Keeps t) : s.Keeps (t.moveChain h) := by
  unfold State.moveChain
  dsimp only
  exact .setRoles (.setLead (.upd hk))

theorem State.Keeps.openChain {s t : State} {h} (hk : s.Keeps t) : s.Keeps (t.openChain h) := by
  unfold State.openChain
  exact .ite hk (.mod hk (fun _ k => .openGates k))

theorem State.Keeps.rejoinStep1 {s t : State} {r} (hk : s.Keeps t) : s.Keeps (t.rejoinStep1 r) := by
  unfold State.rejoinStep1
  dsimp only
  exact .ite (.upd (.mod hk (fun _ k => .takeOverlays k))) (.rejoinFails hk)

theorem State.Keeps.enterMode {s t : State} {mode chain} (hk : s.Keeps t) : s.Keeps (t.enterMode mode chain) := by
  unfold State.enterMode
  dsimp only
  exact .ite (.openChain (.moveChain (.upd hk))) (.moveChain (.upd hk))

theorem Answers.halfReady {s : State} {h} : Answers s (execHalfReady h s) := by
  unfold Machine.execHalfReady
  dsimp only
  refine .ite (.next .refl) (.ite ?_ ?_)
  · refine .ite (.ite ?_ ?_) (.next (.mod .refl (fun _ k => .becomeReady k)))
    · exact .next (.mod (.enterMode (.mod .refl (fun _ k => .becomeReady k))) (fun _ k => .upd k (by rfl)))
    · exact .next (.enterMode (.mod .refl (fun _ k => .becomeReady k)))
  · split
    · refine .ite ?_ ?_
      · exact .next (.setRoles (.rejoinStep1 (.mod .refl (fun _ k => .becomeReady k))))
      · exact .next (.setRoles (.mod .refl (fun _ k => .becomeReady k)))
    · refine .ite (.next (.openChain (.moveChain (.mod .refl (fun _ k => .becomeReady k))))) (.ite ?_ ?_)
      · exact .next (.setRoles (.mod (.mod .refl (fun _ k => .becomeReady k)) (fun _ k => .upd k (by rfl))))
      · exact .next (.setRoles (.mod .refl (fun _ k => .becomeReady k)))

theorem Answers.startWaitExpiry {s : State} {h} : Answers s (execStartWaitExpiry h s) := by
  unfold Machine.execStartWaitExpiry
  dsimp only
  exact .next (.mod .refl (fun _ k => .ite (.upd k (by rfl)) k))

theorem Answers.followerExchangeTimeout {s : State} {h} : Answers s (execFollowerExchangeTimeout h s) := by
  unfold Machine.execFollowerExchangeTimeout
  exact .next (.mod .refl (fun _ k => .ite (.loseSource k) k))

theorem Answers.timeExchange {s : State} {h ps} : Answers s (execTimeExchange h ps s) := by
  unfold Machine.execTimeExchange
  dsimp only
  refine .next (.mod .refl ?_)
  intro y k
  refine .ite k (.ite ?_ ?_)
  · exact .upd (.ite (.exchangeBound (.acquire (.upd k (by rfl)))) (.measured (.exchangeBound (.acquire (.upd k (by rfl)))))) (by rfl)
  · exact .upd (.ite (.exchangeBound (.acquire (.upd k (by rfl)))) (.measured (.exchangeBound (.acquire (.upd k (by rfl)))))) (by rfl)

theorem Answers.syncReceiptTimeout {s : State} {h} : Answers s (execSyncReceiptTimeout h s) := by
  unfold Machine.execSyncReceiptTimeout
  exact .next (.mod .refl (fun _ k => .ite (.loseSource k) k))

theorem Answers.gptpSyncTransmit {s : State} {h out} : Answers s (execGptpSyncTransmit h out s) := by
  unfold Machine.execGptpSyncTransmit
  dsimp only
  refine .next (.mod .refl ?_)
  intro y k
  refine .ite k ?_
  split
  · exact .modPort (.sendOn k)
  · exact .ite k (.sendOn k)

theorem Answers.macTransmit {s : State} {h port ring t'} : Answers s (execMacTransmit h port ring t' s) := by
  unfold Machine.execMacTransmit
  dsimp only
  refine .next (.mod .refl ?_)
  intro y k
  split
  · exact k
  · refine .ite k (.ite (.ringDone k) ?_)
    split
    · exact .ringDone (.upd (.modPort k) (by rfl))
    · exact .ite (.ringDone (.sendOn k)) (.ringDone k)

theorem Answers.siteDieFill {s : State} {h ctx va v} : Answers s (execSiteDieFill h ctx va v s) := by
  unfold Machine.execSiteDieFill
  exact .next (.mod .refl (fun _ k => .ite k (.ite (.ite k (.settle (.fillWord k))) (.violate k))))

theorem Answers.siteDieWrite {s : State} {h ctx va data} : Answers s (execSiteDieWrite h ctx va data s) := by
  unfold Machine.execSiteDieWrite
  exact .next (.mod .refl (fun _ k => .ite k (.ite (.settle (.commitBytes k)) (.violate k))))

theorem Answers.pcieEndpointDma {s : State} {h fn req} : Answers s (execPcieEndpointDma h fn req s) := by
  unfold Machine.execPcieEndpointDma
  dsimp only
  refine .ite (.next .refl) (.ite (.next (.upd (.setHalf .refl (.ptnArrive .refl)))) ?_)
  split
  · refine .ite ?_ ?_
    · exact .next (.upd (.setHalf .refl (.commitBytes (.ptnArrive .refl))))
    · exact .next (.upd (.setHalf .refl (.violate (.ptnArrive .refl))))
  · refine .ite (.next (.upd (.setHalf .refl (.violate (.ptnArrive .refl))))) ?_
    split
    · exact .next (.upd (.setHalf .refl (.apError (.ptnArrive .refl))))
    · exact .next (.upd (.setHalf .refl (.ptnArrive .refl)))
  · exact .next (.upd (.setHalf .refl (.violate (.ptnArrive .refl))))
  · exact .next (.upd (.setHalf .refl (.violate (.ptnArrive .refl))))
  · exact .next (.upd (.setHalf .refl (.violate (.ptnArrive .refl))))

theorem State.Keeps.captured {s t : State} {h b e} (hk : s.Keeps t) : s.Keeps (t.captured h b e) := by
  unfold State.captured
  dsimp only
  exact .ite (.mod (.mod hk (fun _ k => .putCapture k)) (fun _ k => .forward k)) (.mod hk (fun _ k => .putCapture k))

theorem Answers.arrivalMark {s : State} {h} : Answers s (execArrivalMark h s) := by
  unfold Machine.execArrivalMark
  dsimp only
  split
  · exact .ite (.next (.mod .refl (fun _ k => .dropCaptures k))) (.next (.captured .refl))
  · exact .next .refl

theorem Answers.forwardedCaptureReceive {s : State} {h} : Answers s (execForwardedCaptureReceive h s) := by
  unfold Machine.execForwardedCaptureReceive
  dsimp only
  split
  · exact .next .refl
  · refine .ite (.next .refl) (.next (.mod (.setHalf .refl (.upd .refl (by rfl))) ?_))
    intro y k
    split
    · exact .upd k (by rfl)
    · split
      · refine .ite ?_ ?_
        · exact .dropCaptures (.ite (.upd k (by rfl)) (.dropCaptures (.upd k (by rfl))))
        · exact .putCapture (.ite (.upd k (by rfl)) (.dropCaptures (.upd k (by rfl))))
      · exact .ite (.upd k (by rfl)) (.dropCaptures (.upd k (by rfl)))

theorem State.Keeps.flowCapture {s t : State} {h source} (hk : s.Keeps t) : s.Keeps (t.flowCapture h source) := by
  unfold State.flowCapture
  dsimp only
  split
  · exact hk
  · exact .mod hk (fun _ k => .modPipe k)
  · refine .ite ?_ ?_
    · exact .mod hk (fun _ k => .modPipe k)
    · exact .ite (.mod (.mod hk (fun _ k => .modPipe k)) (fun _ k => .dropCaptures k)) (.captured (.mod hk (fun _ k => .modPipe k)))

theorem State.Keeps.csiCapture {s t : State} {h c} (hk : s.Keeps t) : s.Keeps (t.csiCapture h c) := by
  unfold State.csiCapture
  dsimp only
  refine .ite hk ?_
  split
  · refine .ite (.setHalf hk (.modPartner (.ptnFixed (hk.half _)))) (.ite (.setHalf hk (.csiVio (.csiVio (.csiVio (.csiVio (.modPartner
      (.ptnFixed (hk.half _)))))))) (.ite ?_ ?_))
    · exact .mod (.setHalf hk (.csiVio (.csiVio (.csiVio (.csiVio (.modPartner (.ptnFixed (hk.half _)))))))) (fun _ k => .dropCaptures k)
    · exact .captured (.setHalf hk (.csiVio (.csiVio (.csiVio (.csiVio (.modPartner (.ptnFixed (hk.half _))))))))
  · exact .setHalf hk (.modPartner (.ptnFixed (hk.half _)))

theorem Answers.captureWrite {s : State} {h c} : Answers s (execCaptureWrite h c s) := by
  unfold Machine.execCaptureWrite
  exact .ite (.next .refl) (.ite (.next (.csiCapture .refl)) (.ite (.next (.flowCapture .refl)) (.next .refl)))

theorem Answers.qosWindowEnd {s : State} {h busy} : Answers s (execQosWindowEnd h busy s) := by
  unfold Machine.execQosWindowEnd
  dsimp only
  exact .next (.mod .refl (fun _ k => .ite k (.modQos (.foldl (fun _ _ k1 => .ite (.missClass k1) (.upd k1 (by rfl))) k) (by simp))))

theorem Answers.scrubRead {s : State} {h stack frame block found} : Answers s (execScrubRead h stack frame block found s) := by
  unfold Machine.execScrubRead
  dsimp only
  refine .next (.mod .refl ?_)
  intro y k
  refine .ite k ?_
  split
  · exact k
  · exact .corrDram k
  · exact .ite (.memErr (.markBad k)) (.retireFrame (.memErr (.markBad k)))

theorem Answers.sramUncorrectable {s : State} {h site} : Answers s (execSramUncorrectable h site s) := by
  unfold Machine.execSramUncorrectable
  dsimp only
  refine .next (.mod .refl ?_)
  intro y k
  split
  · exact .memErr k
  · split
    · exact .ite (.memErr (.markBad k)) k
    · exact k
  · split
    · exact .ite k (.settle (.endCmd (.memErr k)))
    · exact k
  · exact .memErr k
  · exact .settle (.setSync (.foldl (fun _ _ k1 => .endCmd k1) (.memErr k)))
  · exact .settle (.engineReset (.modEngine k))
  · exact .memErr (.upd k (by rfl))
  · exact .settle (.foldl (fun _ _ k1 => .endCmds k1) (.foldl (fun _ _ k1 => .endCmd k1) (.memErr k)))
  · exact .settle (.foldl (fun _ _ k1 => .endCmd k1) (.upd (.memErr k) (by rfl)))
  · exact .settle (.foldl (fun _ _ k1 => .endCmd k1) (.upd (.memErr k) (by rfl)))
  · exact .settle (.foldl (fun _ _ k1 => .endCmd k1) (.upd (.memErr k) (by rfl)))

theorem Answers.correctedError {s : State} {h site} : Answers s (execCorrectedError h site s) := by
  unfold Machine.execCorrectedError
  refine .next (.mod .refl ?_)
  intro y k
  split
  · exact .corrDram k
  · exact .corrCache k
  · exact .memErr (.modEngine k)
  · exact .memErr k

theorem Answers.memoryUeDetected {s : State} {h by'} : Answers s (execMemoryUeDetected h by' s) := by
  unfold Machine.execMemoryUeDetected
  refine .next (.mod .refl ?_)
  intro y k
  split
  · split
    · exact k
    · split
      · exact .ite (.settle (.gridLost (.streamLost (.dataLost (.markBad k))))) k
      · exact k
  · exact .ite (.retireFrame k) k

theorem Answers.calibrationSlice {s : State} {h item target result} : Answers s (execCalibrationSlice h item target result s) := by
  unfold Machine.execCalibrationSlice
  dsimp only
  refine .ite (.next .refl) (.ite ?_ ?_)
  · exact .next (.mod (.mod .refl (fun _ k => .upd k (by rfl))) (fun _ k => .modEngine k))
  · exact .ite (.next (.retrain (.mod .refl (fun _ k => .upd k (by rfl))))) (.next (.mod .refl (fun _ k => .upd k (by rfl))))

theorem Answers.selftestIntervalMissed {s : State} {h e} : Answers s (execSelftestIntervalMissed h e s) := by
  unfold Machine.execSelftestIntervalMissed
  dsimp only
  exact .next (.mod .refl (fun _ k => .ite k (.ite k (.ite (.ite (.umpEvent (.modTest (.modTest k))) (.modTest (.modTest k)))
      (.modTest k)))))

theorem State.Keeps.soloAfterFault {s t : State} (hk : s.Keeps t) : s.Keeps t.soloAfterFault := by
  unfold State.soloAfterFault
  dsimp only
  exact .setRoles (.upd hk)

theorem State.Keeps.halfFault {s t : State} {h falls} (hk : s.Keeps t) : s.Keeps (t.halfFault h falls) := by
  unfold State.halfFault
  dsimp only
  refine .ite hk (.setRoles (.ite ?_ ?_))
  · refine .ite ?_ ?_
    · refine .mod (.ite ?_ ?_) (fun _ k => .upd k (by rfl))
      · refine .mod ?_ (fun _ k => .enterSafe (.upd k (by rfl)))
        split
        · exact .mod hk (fun _ k => .dropUntrusted k)
        · exact hk
      · refine .mod (.mod ?_ (fun _ k => .enterSafe (.upd k (by rfl)))) (fun _ k => .upd k (by rfl))
        split
        · exact .mod hk (fun _ k => .dropUntrusted k)
        · exact hk
    · refine .ite ?_ ?_
      · refine .mod ?_ (fun _ k => .enterSafe (.upd k (by rfl)))
        split
        · exact .mod hk (fun _ k => .dropUntrusted k)
        · exact hk
      · refine .mod (.mod ?_ (fun _ k => .enterSafe (.upd k (by rfl)))) (fun _ k => .upd k (by rfl))
        split
        · exact .mod hk (fun _ k => .dropUntrusted k)
        · exact hk
  · refine .soloAfterFault (.dropChange (.ite ?_ ?_))
    · refine .mod (.ite ?_ ?_) (fun _ k => .upd k (by rfl))
      · refine .mod ?_ (fun _ k => .enterSafe (.upd k (by rfl)))
        split
        · exact .mod hk (fun _ k => .dropUntrusted k)
        · exact hk
      · refine .mod (.mod ?_ (fun _ k => .enterSafe (.upd k (by rfl)))) (fun _ k => .upd k (by rfl))
        split
        · exact .mod hk (fun _ k => .dropUntrusted k)
        · exact hk
    · refine .ite ?_ ?_
      · refine .mod ?_ (fun _ k => .enterSafe (.upd k (by rfl)))
        split
        · exact .mod hk (fun _ k => .dropUntrusted k)
        · exact hk
      · refine .mod (.mod ?_ (fun _ k => .enterSafe (.upd k (by rfl)))) (fun _ k => .upd k (by rfl))
        split
        · exact .mod hk (fun _ k => .dropUntrusted k)
        · exact hk

theorem State.Keeps.pairFails {s t : State} {h p falls} (hk : s.Keeps t) : s.Keeps (t.pairFails h p falls) := by
  unfold State.pairFails
  dsimp only
  refine .ite (.mod hk (fun _ k => .revertPair (.stopPair (.closeGate k)))) (.ite (.halfFault (.mod hk (fun _ k => .revertPair
      (.stopPair (.closeGate k))))) (.ite ?_ ?_))
  · exact .mod (.mod hk (fun _ k => .revertPair (.stopPair (.closeGate k)))) (fun _ k => .pairSwitch k)
  · exact .mod hk (fun _ k => .revertPair (.stopPair (.closeGate k)))

theorem Answers.selftestSlice {s : State} {h e ok pair falls} : Answers s (execSelftestSlice h e ok pair falls s) := by
  unfold Machine.execSelftestSlice
  dsimp only
  refine .ite (.next .refl) (.ite ?_ ?_)
  · exact .next (.mod .refl (fun _ k => .modTest k))
  · exact .ite (.next (.pairFails (.mod .refl (fun _ k => .modTest k)))) (.next (.halfFault (.mod .refl (fun _ k => .modTest k))))

theorem Answers.gatePermitExpiry {s : State} {h} : Answers s (execGatePermitExpiry h s) := by
  unfold Machine.execGatePermitExpiry
  dsimp only
  exact .next (.mod .refl (fun _ k => .ite k (.foldl (fun _ _ k1 => .ite (.pairLine k1) k1) (.upd k (by rfl)))))

theorem State.Keeps.takeover {s t : State} {h} (hk : s.Keeps t) : s.Keeps (t.takeover h) := by
  unfold State.takeover
  dsimp only
  exact .openChain (.moveChain (.mod hk (fun _ k => .ite (.umpEvent (.upd (.takeChain k) (by rfl))) (.umpEvent (.umpEvent (.upd
      (.takeChain k) (by rfl)))))))

theorem State.Keeps.lostPeer {s t : State} {h} (hk : s.Keeps t) : s.Keeps (t.lostPeer h) := by
  unfold State.lostPeer
  dsimp only
  refine .ite (.upd (.bootHalf (.dropChange (.peerGone hk)))) (.ite (.soloAfterFault (.moveChain (.mod (.dropChange (.peerGone hk))
      (fun _ k => .cause (.upd k (by rfl)))))) ?_)
  split
  · refine .ite (.ite ?_ ?_) (.soloAfterFault (.takeover (.mod (.dropChange (.peerGone hk)) (fun _ k => .cause (.upd k (by rfl))))))
    · refine .openChain (.soloAfterFault (.ite ?_ ?_))
      · exact .mod (.mod (.dropChange (.peerGone hk)) (fun _ k => .cause (.upd k (by rfl)))) (fun _ k => .localReplay k)
      · exact .mod (.dropChange (.peerGone hk)) (fun _ k => .cause (.upd k (by rfl)))
    · refine .soloAfterFault (.ite ?_ ?_)
      · exact .mod (.mod (.dropChange (.peerGone hk)) (fun _ k => .cause (.upd k (by rfl)))) (fun _ k => .localReplay k)
      · exact .mod (.dropChange (.peerGone hk)) (fun _ k => .cause (.upd k (by rfl)))
  · refine .openChain (.soloAfterFault (.ite ?_ ?_))
    · exact .mod (.dropChange (.peerGone hk)) (fun _ k => .cause (.upd k (by rfl)))
    · exact .moveChain (.mod (.mod (.dropChange (.peerGone hk)) (fun _ k => .cause (.upd k (by rfl)))) (fun _ k => .umpEvent k))
  · refine .ite (.setRoles (.mod (.dropChange (.peerGone hk)) (fun _ k => .cause (.upd k (by rfl))))) (.ite ?_ ?_)
    · exact .soloAfterFault (.takeover (.mod (.dropChange (.peerGone hk)) (fun _ k => .cause (.upd k (by rfl)))))
    · exact .openChain (.soloAfterFault (.moveChain (.mod (.dropChange (.peerGone hk)) (fun _ k => .cause (.upd k (by rfl))))))

theorem Answers.faultReceive {s : State} {h} : Answers s (execFaultReceive h s) := by
  unfold Machine.execFaultReceive
  dsimp only
  exact .ite (.next (.lostPeer (.mod (.mod .refl (fun _ k => .upd k (by rfl))) (fun _ k => .upd k (by rfl))))) (.next .refl)

theorem Answers.peerLoss {s : State} {h} : Answers s (execPeerLoss h s) := by
  unfold Machine.execPeerLoss
  dsimp only
  refine .ite ?_ ?_
  · exact .next .refl
  · exact .ite (.next (.lostPeer (.mod .refl (fun _ k => .upd k (by rfl))))) (.next (.mod .refl (fun _ k => .upd k (by rfl))))

theorem Answers.pairLockstepDisagree {s : State} {h pair falls} : Answers s (execPairLockstepDisagree h pair falls s) := by
  unfold Machine.execPairLockstepDisagree
  dsimp only
  exact .ite (.next (.pairFails .refl)) (.next .refl)

theorem Answers.umpireSelfFailure {s : State} {h} : Answers s (execUmpireSelfFailure h s) := by
  unfold Machine.execUmpireSelfFailure
  dsimp only
  exact .next (.mod .refl (fun _ k => .ite (.upd k (by rfl)) k))

theorem Answers.monitor {s : State} {h seen falls} : Answers s (s.monitor h seen falls) := by
  unfold State.monitor
  dsimp only
  exact .ite (.next (.halfFault .refl)) (.next .refl)

theorem Answers.captainMemoryUe {s : State} {h falls} : Answers s (execCaptainMemoryUe h falls s) := by
  unfold Machine.execCaptainMemoryUe
  exact .monitor

theorem Answers.hbmOvertemp {s : State} {h falls} : Answers s (execHbmOvertemp h falls s) := by
  unfold Machine.execHbmOvertemp
  dsimp only
  exact .monitor

theorem Answers.junctionOvertemp {s : State} {h falls} : Answers s (execJunctionOvertemp h falls s) := by
  unfold Machine.execJunctionOvertemp
  dsimp only
  exact .monitor

theorem Answers.supplyOutOfWindow {s : State} {h falls} : Answers s (execSupplyOutOfWindow h falls s) := by
  unfold Machine.execSupplyOutOfWindow
  exact .monitor

theorem Answers.refclkFailure {s : State} {h falls} : Answers s (execRefclkFailure h falls s) := by
  unfold Machine.execRefclkFailure
  exact .monitor

theorem Answers.captainHeartbeatLoss {s : State} {h falls} : Answers s (execCaptainHeartbeatLoss h falls s) := by
  unfold Machine.execCaptainHeartbeatLoss
  dsimp only
  exact .monitor

theorem State.Keeps.noteCompare {s t : State} (hk : s.Keeps t) : s.Keeps t.noteCompare := by
  unfold State.noteCompare
  dsimp only
  exact .ite (.upd (.dropChange hk)) hk

theorem Answers.compareRecordTimeout {s : State} {h} : Answers s (execCompareRecordTimeout h s) := by
  unfold Machine.execCompareRecordTimeout
  dsimp only
  refine .ite (.next .refl) ?_
  split
  · exact .next (.noteCompare (.mod (.mod .refl (fun _ k => .mismatch (.dropOwn k))) (fun _ k => .upd k (by rfl))))
  · exact .next .refl

theorem State.Keeps.swapLead {s t : State} {h} (hk : s.Keeps t) : s.Keeps (t.swapLead h) := by
  unfold State.swapLead
  exact .moveChain (.mod hk (fun _ k => .giveGates k))

theorem State.Keeps.untrustedFrame {s t : State} {h frame} (hk : s.Keeps t) : s.Keeps (t.untrustedFrame h frame) := by
  unfold State.untrustedFrame
  dsimp only
  split
  · refine .ite ?_ ?_
    · exact .mod (.mod hk (fun _ k => .umpEvent (.upd k (by rfl)))) (fun _ k => .localReplay k)
    · exact .mod (.mod hk (fun _ k => .umpEvent (.upd k (by rfl)))) (fun _ k => .umpEvent (.upd (.send (.dropUntrusted k)) (by rfl)))
  · refine .ite (.mod (.mod hk (fun _ k => .umpEvent (.upd k (by rfl)))) (fun _ k => .localReplay k)) (.ite ?_ ?_)
    · exact .mod (.mod hk (fun _ k => .umpEvent (.upd k (by rfl)))) (fun _ k => .upd k (by rfl))
    · exact .swapLead (.mod hk (fun _ k => .umpEvent (.upd k (by rfl))))
  · exact .mod (.mod hk (fun _ k => .umpEvent (.upd k (by rfl)))) (fun _ k => .localReplay k)

theorem State.Keeps.trustCopies {s t : State} {h} (hk : s.Keeps t) : s.Keeps (t.trustCopies h) := by
  unfold State.trustCopies
  dsimp only
  exact .mod hk (fun _ k => .upd k (by rfl))

theorem Answers.umpireVerdict {s : State} {h n out} : Answers s (execUmpireVerdict h n out s) := by
  unfold Machine.execUmpireVerdict
  dsimp only
  refine .ite (.next .refl) (.ite ?_ ?_)
  · exact .next (.setRoles (.untrustedFrame (.trustCopies (.mod .refl (fun _ k => .verdict k)))))
  · exact .next (.trustCopies (.mod .refl (fun _ k => .verdict k)))

theorem State.Keeps.pairBoundary {s t : State} {h} (hk : s.Keeps t) : s.Keeps (t.pairBoundary h) := by
  unfold State.pairBoundary
  dsimp only
  split
  · exact hk
  · refine .ite (.mod (.mod (.mod hk (fun _ k => .updWaits k)) (fun _ k => .modPair (.subsystemReset k) (by simp))) (fun _ k => .upd k
      (by rfl))) (.ite ?_ ?_)
    · exact .mod (.mod (.mod hk (fun _ k => .pairSwitch k)) (fun _ k => .modPair (.subsystemReset k) (by simp))) (fun _ k => .upd k
        (by rfl))
    · exact hk

theorem State.Keeps.answer {s t : State} {o} (hk : s.Keeps t) : s.Keeps (t.answer o) := by
  unfold State.answer
  split
  · exact .mod hk (fun _ k => .finishWaiting k)
  · exact hk

theorem State.Keeps.handChain {s t : State} {dest} (hk : s.Keeps t) : s.Keeps (t.handChain dest) := by
  unfold State.handChain
  dsimp only
  exact .moveChain (.mod (.mod hk (fun _ k => .emptyChain (.giveGates k))) (fun _ k => .takeChain k))

theorem State.Keeps.soloRequested {s t : State} {c} (hk : s.Keeps t) : s.Keeps (t.soloRequested c) := by
  unfold State.soloRequested
  dsimp only
  exact .setRoles (.upd (.answer (.mod (.ite (.mod hk (fun _ k => .emptyChain k)) (.handChain hk)) (fun _ k => .upd k (by rfl)))))

theorem State.Keeps.dualByCompare {s t : State} (hk : s.Keeps t) : s.Keeps t.dualByCompare := by
  unfold State.dualByCompare
  dsimp only
  refine .ite ?_ ?_
  · exact .moveChain (.mod (.mod (.upd hk) (fun _ k => .becomeStandby (.giveGates k))) (fun _ k => .takeChain k))
  · exact .setRoles (.mod (.upd hk) (fun _ k => .becomeStandby k))

theorem State.Keeps.soloByLink {s t : State} (hk : s.Keeps t) : s.Keeps t.soloByLink := by
  unfold State.soloByLink
  dsimp only
  exact .setRoles (.upd (.mod hk (fun _ k => .upd (.emptyChain (.closeGates k)) (by rfl))))

theorem State.Keeps.quiet {s t : State} {h} (hk : s.Keeps t) : s.Keeps (t.quiet h) := by
  unfold State.quiet
  dsimp only
  exact .mod hk (fun _ k => .upd k (by rfl))

theorem State.Keeps.reachSleep {s t : State} {h st} (hk : s.Keeps t) : s.Keeps (t.reachSleep h st) := by
  unfold State.reachSleep
  exact .setRoles (.quiet (.peerGone (.mod hk (fun _ k => .asleep k))))

theorem State.Keeps.leave {s t : State} {c} (hk : s.Keeps t) : s.Keeps (t.leave c) := by
  unfold State.leave
  dsimp only
  refine .ite ?_ ?_
  · exact .mod (.upd hk) (fun _ k => .upd (.stopWork k) (by rfl))
  · exact .ite (.reachSleep (.mod (.upd hk) (fun _ k => .sleepSteps k))) (.upd hk)

theorem State.Keeps.changeBoundary {s t : State} (hk : s.Keeps t) : s.Keeps t.changeBoundary := by
  unfold State.changeBoundary
  dsimp only
  split
  · exact hk
  · refine .ite (.leave hk) (.ite (.ite (.mod (.upd hk) (fun _ k => .takeChain k)) (.upd hk)) ?_)
    split
    · exact .soloByLink hk
    · exact .dualByCompare hk
    · exact .soloByLink hk
    · split
      · exact .soloRequested hk
      · exact .answer (.mod (.enterMode hk) (fun _ k => .becomeStandby k))
      · exact .answer (.mod (.mod (.enterMode hk) (fun _ k => .freshMirror k)) (fun _ k => .freshMirror k))

theorem State.Keeps.rejoinEnter {s t : State} (hk : s.Keeps t) : s.Keeps t.rejoinEnter := by
  unfold State.rejoinEnter
  dsimp only
  split
  · refine .ite (.answer (.ite ?_ ?_)) hk
    · exact .mod (.mod (.mod (.enterMode (.mod hk (fun _ k => .upd k (by rfl)))) (fun _ k => .freshMirror k))
        (fun _ k => .freshMirror k)) (fun _ k => .takeChain k)
    · exact .mod (.enterMode (.mod hk (fun _ k => .upd k (by rfl)))) (fun _ k => .upd k (by rfl))
  · exact hk

theorem State.Keeps.evacBoundary {s t : State} (hk : s.Keeps t) : s.Keeps t.evacBoundary := by
  unfold State.evacBoundary
  dsimp only
  split
  · exact hk
  · refine .ite (.mod (.upd hk) (fun _ k => .failWaiting k)) (.ite (.ite ?_ ?_) (.ite (.mod (.upd hk) (fun _ k => .finishWaiting k))
      (.upd hk)))
    · exact .setRoles (.mod (.mod (.upd (.mod (.mod (.upd hk) (fun _ k => .closeGates k)) (fun _ k => .closeGates k)))
        (fun _ k => .emptyChain (.announce k))) (fun _ k => .finishWaiting k))
    · exact .mod (.mod (.mod (.upd hk) (fun _ k => .closeGates k)) (fun _ k => .closeGates k)) (fun _ k => .finishWaiting k)

theorem State.Keeps.evacTake {s t : State} {h} (hk : s.Keeps t) : s.Keeps (t.evacTake h) := by
  unfold State.evacTake
  dsimp only
  refine .ite ?_ ?_
  · exact .openChain (.moveChain (.upd (.mod (.mod hk (fun _ k => .closeGates k)) (fun _ k => .takeChain (.upd (.took k) (by rfl))))))
  · exact hk

theorem State.Keeps.countFrames {s t : State} (hk : s.Keeps t) : s.Keeps t.countFrames := by
  unfold State.countFrames
  dsimp only
  exact .upd hk

theorem State.Keeps.applyOvl {s t : State} {k' h e} (hk : s.Keeps t) : s.Keeps (t.applyOvl k' h e) := by
  unfold State.applyOvl
  dsimp only
  split
  · exact .mod hk (fun _ k => .dropHeld k)
  · refine .ite ?_ ?_
    · exact .mod (.mod hk (fun _ k => .ovlDone (.storeOvl k))) (fun _ k => .storeOvl k)
    · exact .mod hk (fun _ k => .ovlDone (.storeOvl k))

theorem State.Keeps.overlayBoundary {s t : State} {h} (hk : s.Keeps t) : s.Keeps (t.overlayBoundary h) := by
  unfold State.overlayBoundary
  dsimp only
  refine .ite ?_ ?_
  · exact .mod (.ite (.mod (.foldl (fun _ _ k => .applyOvl k) hk) (fun _ k => .takeOvls k)) (.foldl (fun _ _ k => .applyOvl k) hk))
      (fun _ k => .takeOvls k)
  · exact .ite (.mod (.foldl (fun _ _ k => .applyOvl k) hk) (fun _ k => .takeOvls k)) (.foldl (fun _ _ k => .applyOvl k) hk)

theorem State.Keeps.capBoundary {s t : State} (hk : s.Keeps t) : s.Keeps t.capBoundary := by
  unfold State.capBoundary
  dsimp only
  exact .upd (.foldl (fun _ _ k => .mod (.mod (.mod k (fun _ k1 => .ite (.upd k1 (by rfl)) k1)) (fun _ k1 => .ite (.upd k1
      (by rfl)) k1)) (fun _ k1 => .finishWaiting k1)) hk)

theorem State.Keeps.lifeBoundary {s t : State} {h} (hk : s.Keeps t) : s.Keeps (t.lifeBoundary h) := by
  unfold State.lifeBoundary
  dsimp only
  split
  · exact hk
  · refine .afterDebug (.ite ?_ ?_)
    · exact .mod (.mod hk (fun _ k => .ite (.applyLife (.upd k (by rfl))) (.upd k (by rfl)))) (fun _ k => .finishWaiting k)
    · exact .mod hk (fun _ k => .ite (.applyLife (.upd k (by rfl))) (.upd k (by rfl)))

theorem State.Keeps.fieldBoundary {s t : State} (hk : s.Keeps t) : s.Keeps t.fieldBoundary := by
  unfold State.fieldBoundary
  dsimp only
  exact .afterDebug (.mod (.mod hk (fun _ k => .ite (.endDebug (.upd k (by rfl))) k)) (fun _ k => .ite (.endDebug (.upd k (by rfl))) k))

theorem State.Keeps.deviceBoundary {s t : State} {h} (hk : s.Keeps t) : s.Keeps (t.deviceBoundary h) := by
  unfold State.deviceBoundary
  dsimp only
  refine .ite ?_ ?_
  · exact .fieldBoundary (.lifeBoundary (.lifeBoundary hk))
  · exact .evacTake (.evacTake (.evacBoundary (.rejoinEnter (.changeBoundary (.capBoundary (.overlayBoundary (.countFrames
      (.fieldBoundary (.lifeBoundary (.lifeBoundary hk))))))))))

theorem State.Keeps.rejoinLate {s t : State} {h} (hk : s.Keeps t) : s.Keeps (t.rejoinLate h) := by
  unfold State.rejoinLate
  dsimp only
  split
  · exact .ite (.rejoinFails hk) hk
  · exact hk

theorem State.Keeps.bootAlone {s t : State} {h} (hk : s.Keeps t) : s.Keeps (t.bootAlone h) := by
  unfold State.bootAlone
  dsimp only
  exact .ite (.enterMode hk) hk

theorem State.Keeps.rejoinOwn {s t : State} {r} (hk : s.Keeps t) : s.Keeps (t.rejoinOwn r) := by
  unfold State.rejoinOwn
  dsimp only
  refine .ite (.ite (.upd hk) hk) (.ite ?_ ?_)
  · exact .ite (.upd (.mod (.mod hk (fun _ k => .upd k (by rfl))) (fun _ k => .upd k (by rfl)))) (.ite (.rejoinFails hk) hk)
  · exact .ite (.ite (.ite (.upd (.mod hk (fun _ k => .cause (.upd k (by rfl))))) (.rejoinFails hk)) hk) hk

theorem Answers.frameBoundary {s : State} {h} : Answers s (execFrameBoundary h s) := by
  unfold Machine.execFrameBoundary
  dsimp only
  refine .ite (.next .refl) (.ite ?_ ?_)
  · refine .next (.setRoles (.mod (.pairBoundary (.ite ?_ ?_)) (fun _ k => .ownBoundary k)))
    · refine .deviceBoundary (.bootAlone (.rejoinLate ?_))
      split
      · exact .ite (.rejoinOwn (.mod .refl (fun _ k => .heldStep (.beginFrame k)))) (.mod .refl (fun _ k => .heldStep (.beginFrame k)))
      · exact .mod .refl (fun _ k => .heldStep (.beginFrame k))
    · refine .bootAlone (.rejoinLate ?_)
      split
      · exact .ite (.rejoinOwn (.mod .refl (fun _ k => .heldStep (.beginFrame k)))) (.mod .refl (fun _ k => .heldStep (.beginFrame k)))
      · exact .mod .refl (fun _ k => .heldStep (.beginFrame k))
  · refine .next (.setRoles (.ite ?_ ?_))
    · refine .deviceBoundary (.bootAlone (.rejoinLate ?_))
      split
      · exact .ite (.rejoinOwn (.mod .refl (fun _ k => .heldStep (.beginFrame k)))) (.mod .refl (fun _ k => .heldStep (.beginFrame k)))
      · exact .mod .refl (fun _ k => .heldStep (.beginFrame k))
    · refine .bootAlone (.rejoinLate ?_)
      split
      · exact .ite (.rejoinOwn (.mod .refl (fun _ k => .heldStep (.beginFrame k)))) (.mod .refl (fun _ k => .heldStep (.beginFrame k)))
      · exact .mod .refl (fun _ k => .heldStep (.beginFrame k))

theorem Answers.engineResetComplete {s : State} {h n} : Answers s (execEngineResetComplete h n s) := by
  unfold Machine.execEngineResetComplete
  exact .next (.mod .refl (fun _ k => .ite (.applyClocks (.modEngine k)) k))

theorem State.Keeps.subsystemReset {s t : State} {h code} (hk : s.Keeps t) : s.Keeps (t.subsystemReset h code) := by
  unfold State.subsystemReset
  dsimp only
  refine .ite ?_ ?_
  · exact .setRoles (.untrustedFrame (.ite (.mod (.mod hk (fun _ k => .subsystemReset k)) (fun _ k => .tetherGone k)) (.mod hk
      (fun _ k => .subsystemReset k))))
  · exact .ite (.mod (.mod hk (fun _ k => .subsystemReset k)) (fun _ k => .tetherGone k)) (.mod hk (fun _ k => .subsystemReset k))

theorem Answers.unitWatchdogExpiry {s : State} {h cmd} : Answers s (execUnitWatchdogExpiry h cmd s) := by
  unfold Machine.execUnitWatchdogExpiry
  dsimp only
  split
  · refine .ite ?_ (.next .refl)
    split
    · exact .next (.subsystemReset (.mod .refl (fun _ k => .took k)))
    · exact .next .refl
  · exact .next .refl

theorem Answers.budgetExpiry {s : State} {h cmd} : Answers s (execBudgetExpiry h cmd s) := by
  unfold Machine.execBudgetExpiry
  refine .next (.mod .refl ?_)
  intro y k
  split
  · exact .ite (.settle (.endCmd k)) k
  · exact k

theorem Answers.preemption {s : State} {h} : Answers s (execPreemption h s) := by
  unfold Machine.execPreemption
  dsimp only
  refine .next (.mod .refl ?_)
  intro y k
  split
  · exact k
  · split
    · exact .settle (.endCmd k)
    · exact k

theorem Answers.commandCommit {s : State} {h cmd} : Answers s (execCommandCommit h cmd s) := by
  unfold Machine.execCommandCommit
  refine .next (.mod .refl ?_)
  intro y k
  split
  · exact k
  · exact .ite k (.ite (.batchCommit k) (.ite (.planCommit k) (.commitStarted (.refetch k))))

theorem Answers.huddleArrive {s : State} {h cmd} : Answers s (execHuddleArrive h cmd s) := by
  unfold Machine.execHuddleArrive
  exact .next (.mod .refl (fun _ k => .start k))

theorem Answers.huddleOpen {s : State} {h cmd} : Answers s (execHuddleOpen h cmd s) := by
  unfold Machine.execHuddleOpen
  exact .next (.mod .refl (fun _ k => .addHuddle (.start k)))

theorem Answers.remoteUnbind {s : State} {h cmd} : Answers s (execRemoteUnbind h cmd s) := by
  unfold Machine.execRemoteUnbind
  exact .next (.mod .refl (fun _ k => .start k))

theorem Answers.remoteBind {s : State} {h cmd} : Answers s (execRemoteBind h cmd s) := by
  unfold Machine.execRemoteBind
  exact .next (.mod .refl (fun _ k => .start k))

theorem State.Keeps.sendStarted {s t : State} {h n msg} (hk : s.Keeps t) : s.Keeps (t.sendStarted h n msg) := by
  unfold State.sendStarted
  dsimp only
  split
  · exact hk
  · refine .ite hk (.ite ?_ ?_)
    · exact .setHalf hk (.endRemote (hk.half _))
    · exact .ite (.setHalf hk (.endRemote (hk.half _))) (.setHalf hk (.ite (.modCmd (hk.half _)) (.send (.modCmd (hk.half _)))))

theorem Answers.signalRemote {s : State} {h cmd} : Answers s (execSignalRemote h cmd s) := by
  unfold Machine.execSignalRemote
  dsimp only
  exact .next (.sendStarted (.mod .refl (fun _ k => .start k)))

theorem Answers.peek {s : State} {h cmd} : Answers s (execPeek h cmd s) := by
  unfold Machine.execPeek
  exact .next (.mod .refl (fun _ k => .startWord k))

theorem Answers.waitEmpty {s : State} {h cmd} : Answers s (execWaitEmpty h cmd s) := by
  unfold Machine.execWaitEmpty
  exact .next (.mod .refl (fun _ k => .startWord k))

theorem Answers.waitFull {s : State} {h cmd} : Answers s (execWaitFull h cmd s) := by
  unfold Machine.execWaitFull
  exact .next (.mod .refl (fun _ k => .startWord k))

theorem Answers.drain {s : State} {h cmd} : Answers s (execDrain h cmd s) := by
  unfold Machine.execDrain
  exact .next (.mod .refl (fun _ k => .startWord k))

theorem Answers.fill {s : State} {h cmd} : Answers s (execFill h cmd s) := by
  unfold Machine.execFill
  exact .next (.mod .refl (fun _ k => .startWord k))

theorem Answers.windowUnbind {s : State} {h cmd} : Answers s (execWindowUnbind h cmd s) := by
  unfold Machine.execWindowUnbind
  exact .next (.mod .refl (fun _ k => .start k))

theorem Answers.windowBind {s : State} {h cmd} : Answers s (execWindowBind h cmd s) := by
  unfold Machine.execWindowBind
  exact .next (.mod .refl (fun _ k => .start k))

theorem Answers.remoteAnswerReceive {s : State} {h tether} : Answers s (execRemoteAnswerReceive h tether s) := by
  unfold Machine.execRemoteAnswerReceive
  dsimp only
  refine .next ?_
  split
  · refine .mod .refl ?_
    intro y k
    split
    · exact .ite (.takeAnswer k) k
    · exact k
  · split
    · exact .refl
    · exact .ite .refl (.mod (.setHalf .refl (.upd .refl (by rfl))) (fun _ k => .takeAnswer k))

theorem Answers.copyOut {s : State} {h cmd} : Answers s (execCopyOut h cmd s) := by
  unfold Machine.execCopyOut
  exact .next (.sendStarted (.mod .refl (fun _ k => .start k)))

theorem Answers.copy {s : State} {h cmd} : Answers s (execCopy h cmd s) := by
  unfold Machine.execCopy
  exact .next (.mod .refl (fun _ k => .start k))

theorem Answers.planStep {s : State} {h cmd} : Answers s (execPlanStep h cmd s) := by
  unfold Machine.execPlanStep
  exact .next (.mod .refl (fun _ k => .beginSearch (.start k)))

theorem Answers.planClose {s : State} {h cmd} : Answers s (execPlanClose h cmd s) := by
  unfold Machine.execPlanClose
  exact .next (.mod .refl (fun _ k => .start k))

theorem Answers.planOpen {s : State} {h cmd} : Answers s (execPlanOpen h cmd s) := by
  unfold Machine.execPlanOpen
  exact .next (.mod .refl (fun _ k => .start k))

theorem Answers.fuseStep {s : State} {h cmd} : Answers s (execFuseStep h cmd s) := by
  unfold Machine.execFuseStep
  exact .next (.mod .refl (fun _ k => .mendGrid (.start k)))

theorem Answers.fuseClose {s : State} {h cmd} : Answers s (execFuseClose h cmd s) := by
  unfold Machine.execFuseClose
  exact .next (.mod .refl (fun _ k => .start k))

theorem Answers.fuseOpen {s : State} {h cmd} : Answers s (execFuseOpen h cmd s) := by
  unfold Machine.execFuseOpen
  exact .next (.mod .refl (fun _ k => .start k))

theorem Answers.swdecDeadlineExpiry {s : State} {h entry} : Answers s (execSwdecDeadlineExpiry h entry s) := by
  unfold Machine.execSwdecDeadlineExpiry
  dsimp only
  refine .next (.mod .refl ?_)
  intro y k
  split
  · exact k
  · exact .ite k (.ite (.decideSlot (.modPipe k)) (.modPipe k))

theorem Answers.swdecDetach {s : State} {h cmd} : Answers s (execSwdecDetach h cmd s) := by
  unfold Machine.execSwdecDetach
  exact .next (.mod .refl (fun _ k => .start k))

theorem Answers.swdecReturn {s : State} {h cmd} : Answers s (execSwdecReturn h cmd s) := by
  unfold Machine.execSwdecReturn
  exact .next (.mod .refl (fun _ k => .takeSw (.start k)))

theorem Answers.swdecAttach {s : State} {h cmd} : Answers s (execSwdecAttach h cmd s) := by
  unfold Machine.execSwdecAttach
  exact .next (.mod .refl (fun _ k => .start k))

theorem Answers.batchBudgetExpiry {s : State} {h cmd} : Answers s (execBatchBudgetExpiry h cmd s) := by
  unfold Machine.execBatchBudgetExpiry
  refine .next (.mod .refl ?_)
  intro y k
  split
  · exact .ite k (.batchCommit (.expireSlots k))
  · exact k

theorem Answers.sampleBudgetExpiry {s : State} {h cmd slot} : Answers s (execSampleBudgetExpiry h cmd slot s) := by
  unfold Machine.execSampleBudgetExpiry
  dsimp only
  refine .next (.mod .refl ?_)
  intro y k
  split
  · exact .ite (.decideSlot k) k
  · exact k

theorem Answers.decodeComplete {s : State} {h cmd slot} : Answers s (execDecodeComplete h cmd slot s) := by
  unfold Machine.execDecodeComplete
  dsimp only
  refine .next (.mod .refl ?_)
  intro y k
  split
  · refine .ite k (.ite ?_ ?_)
    · exact .decideSlot (.ite (.keepRefs k) k)
    · exact .ite (.modPipe (.decideSlot (.ite (.keepRefs k) k))) (.modPipe (.decideSlot (.ite (.keepRefs k) k)))
  · exact k

theorem Answers.batch {s : State} {h cmd} : Answers s (execBatch h cmd s) := by
  unfold Machine.execBatch
  exact .next (.mod .refl (fun _ k => .stateLost (.enqueueBatch (.start k))))

theorem Answers.ingestUnbind {s : State} {h cmd} : Answers s (execIngestUnbind h cmd s) := by
  unfold Machine.execIngestUnbind
  exact .next (.mod .refl (fun _ k => .start k))

theorem Answers.ingestBind {s : State} {h cmd} : Answers s (execIngestBind h cmd s) := by
  unfold Machine.execIngestBind
  exact .next (.mod .refl (fun _ k => .start k))

theorem State.Keeps.gatherStart {s t : State} {h cmd op} (hk : s.Keeps t) : s.Keeps (gatherStart h cmd op t) := by
  unfold Machine.gatherStart
  exact .mod hk (fun _ k => .start k)

theorem Answers.hotLoad {s : State} {h cmd} : Answers s (execHotLoad h cmd s) := by
  unfold Machine.execHotLoad
  exact .next (.gatherStart .refl)

theorem Answers.bagMax {s : State} {h cmd} : Answers s (execBagMax h cmd s) := by
  unfold Machine.execBagMax
  exact .next (.gatherStart .refl)

theorem Answers.bagMean {s : State} {h cmd} : Answers s (execBagMean h cmd s) := by
  unfold Machine.execBagMean
  exact .next (.gatherStart .refl)

theorem Answers.bagSum {s : State} {h cmd} : Answers s (execBagSum h cmd s) := by
  unfold Machine.execBagSum
  exact .next (.gatherStart .refl)

theorem Answers.gather {s : State} {h cmd} : Answers s (execGather h cmd s) := by
  unfold Machine.execGather
  exact .next (.gatherStart .refl)

theorem Answers.attendBwd {s : State} {h cmd} : Answers s (execAttendBwd h cmd s) := by
  unfold Machine.execAttendBwd
  exact .next (.mod .refl (fun _ k => .start k))

theorem Answers.attend {s : State} {h cmd} : Answers s (execAttend h cmd s) := by
  unfold Machine.execAttend
  exact .next (.mod .refl (fun _ k => .start k))

theorem Answers.kvRelease {s : State} {h cmd} : Answers s (execKvRelease h cmd s) := by
  unfold Machine.execKvRelease
  exact .next (.mod .refl (fun _ k => .start k))

theorem Answers.kvCompact {s : State} {h cmd} : Answers s (execKvCompact h cmd s) := by
  unfold Machine.execKvCompact
  exact .next (.mod .refl (fun _ k => .start k))

theorem Answers.kvEvict {s : State} {h cmd} : Answers s (execKvEvict h cmd s) := by
  unfold Machine.execKvEvict
  exact .next (.mod .refl (fun _ k => .start k))

theorem Answers.kvPin {s : State} {h cmd} : Answers s (execKvPin h cmd s) := by
  unfold Machine.execKvPin
  exact .next (.mod .refl (fun _ k => .start k))

theorem Answers.kvAppend {s : State} {h cmd} : Answers s (execKvAppend h cmd s) := by
  unfold Machine.execKvAppend
  exact .next (.mod .refl (fun _ k => .start k))

theorem Answers.kvPoolDestroy {s : State} {h cmd} : Answers s (execKvPoolDestroy h cmd s) := by
  unfold Machine.execKvPoolDestroy
  exact .next (.mod .refl (fun _ k => .start k))

theorem Answers.kvPoolInit {s : State} {h cmd} : Answers s (execKvPoolInit h cmd s) := by
  unfold Machine.execKvPoolInit
  exact .next (.mod .refl (fun _ k => .start k))

theorem State.Keeps.convStart {s t : State} {h cmd op chk pred val} (hk : s.Keeps t) : s.Keeps (convStart h cmd op chk pred val t) := by
  unfold Machine.convStart
  exact .mod hk (fun _ k => .start k)

theorem Answers.poolAvg {s : State} {h cmd} : Answers s (execPoolAvg h cmd s) := by
  unfold Machine.execPoolAvg
  exact .next (.convStart .refl)

theorem Answers.poolMax {s : State} {h cmd} : Answers s (execPoolMax h cmd s) := by
  unfold Machine.execPoolMax
  exact .next (.convStart .refl)

theorem Answers.conv {s : State} {h cmd} : Answers s (execConv h cmd s) := by
  unfold Machine.execConv
  exact .next (.convStart .refl)

theorem Answers.warmupDeadlineKill {s : State} {h} : Answers s (execWarmupDeadlineKill h s) := by
  unfold Machine.execWarmupDeadlineKill
  exact .next (.mod .refl (fun _ k => .ite (.settle (.endCmds k)) k))

theorem Answers.quickWarmupForce {s : State} {h} : Answers s (execQuickWarmupForce h s) := by
  unfold Machine.execQuickWarmupForce
  dsimp only
  exact .next (.mod .refl (fun _ k => .upd k (by simp)))

theorem Answers.quickWarmupSlice {s : State} {h} : Answers s (execQuickWarmupSlice h s) := by
  unfold Machine.execQuickWarmupSlice
  dsimp only
  exact .next (.mod .refl (fun _ k => .upd k (by simp)))

theorem Answers.warmup {s : State} {h n} : Answers s (execWarmup h n s) := by
  unfold Machine.execWarmup
  exact .next (.mod .refl (fun _ k => .ite (.modEngine k) k))

theorem State.Keeps.tensorStart {s t : State} {h cmd op chk work} (hk : s.Keeps t) : s.Keeps (tensorStart h cmd op chk work t) := by
  unfold Machine.tensorStart
  exact .mod hk (fun _ k => .start (.quickArrives k))

theorem Answers.convert {s : State} {h cmd} : Answers s (execConvert h cmd s) := by
  unfold Machine.execConvert
  exact .next (.tensorStart .refl)

theorem Answers.softmax {s : State} {h cmd} : Answers s (execSoftmax h cmd s) := by
  unfold Machine.execSoftmax
  exact .next (.tensorStart .refl)

theorem Answers.norm {s : State} {h cmd} : Answers s (execNorm h cmd s) := by
  unfold Machine.execNorm
  exact .next (.tensorStart .refl)

theorem Answers.reduce {s : State} {h cmd} : Answers s (execReduce h cmd s) := by
  unfold Machine.execReduce
  exact .next (.tensorStart .refl)

theorem Answers.elementwise {s : State} {h cmd} : Answers s (execElementwise h cmd s) := by
  unfold Machine.execElementwise
  exact .next (.tensorStart .refl)

theorem Answers.gemm {s : State} {h cmd} : Answers s (execGemm h cmd s) := by
  unfold Machine.execGemm
  dsimp only
  exact .next (.mod (.tensorStart .refl) (fun _ k => .admitB k))

theorem Answers.apLoad {s : State} {h ap addr size} : Answers s (s.apLoad h ap addr size) := by
  unfold State.apLoad
  dsimp only
  refine .ite (.next .refl) ?_
  split
  · exact .ite (.next (.upd .refl)) (.next (.upd .refl))
  · split
    · exact .next (.upd .refl)
    · refine .ite (.next (.upd .refl)) ?_
      split
      · exact .next (.upd (.setHalf .refl (.apError .refl)))
      · exact .next (.upd (.setHalf .refl (.touchReads .refl)))

theorem Answers.apertureLoad {s : State} {h ap addr size} : Answers s (execApertureLoad h ap addr size s) := by
  unfold Machine.execApertureLoad
  split
  · exact .apLoad
  · exact .ite (.next (.upd .refl)) (.next .refl)

theorem Answers.nvclassWrite {s : State} {h core v} : Answers s (execNvclassWrite h core v s) := by
  unfold Machine.execNvclassWrite
  dsimp only
  exact .next (.mod .refl (fun _ k => .ite k (.ite (.modApp k) (.coreVio k))))

theorem Answers.nvctxWrite {s : State} {h core v} : Answers s (execNvctxWrite h core v s) := by
  unfold Machine.execNvctxWrite
  exact .next (.mod .refl (fun _ k => .ite k (.ite (.coreVio k) (.modApp k))))

theorem Answers.remoteControlAccess {s : State} {h core client off size store} :
    Answers s (execRemoteControlAccess h core client off size store s) := by
  unfold Machine.execRemoteControlAccess
  dsimp only
  refine .ite (.next .refl) (.ite (.next (.upd (.mod .refl (fun _ k => .coreVio k)))) ?_)
  split
  · exact .next (.upd (.mod (.mod .refl (fun _ k => .crosses k)) (fun _ k => .ctrlStore k)))
  · exact .next (.ctrlLoad (.mod (.mod .refl (fun _ k => .crosses k)) (fun _ k => .crosses k)))

theorem Answers.timSyncLoad {s : State} {h ag size high} : Answers s (execTimSyncLoad h ag size high s) := by
  unfold Machine.execTimSyncLoad
  exact .ite (.next (.ctrlLoad .refl)) (.next .refl)

theorem Answers.thmClusterMhzWrite {s : State} {h ag cluster mhz} : Answers s (execThmClusterMhzWrite h ag cluster mhz s) := by
  unfold Machine.execThmClusterMhzWrite
  exact .next (.mod .refl (fun _ k => .ite (.clusterStore k) k))

theorem Answers.qosRegisterWrite {s : State} {h ag off size v} : Answers s (execQosRegisterWrite h ag off size v s) := by
  unfold Machine.execQosRegisterWrite
  exact .next (.mod .refl (fun _ k => .ite k (.ite (.ctrlVio k) (.qosStore k))))

theorem Answers.registerWrite {s : State} {h ag off size v} : Answers s (execRegisterWrite h ag off size v s) := by
  unfold Machine.execRegisterWrite
  exact .next (.mod .refl (fun _ k => .ite (.ctrlStore k) k))

theorem Answers.descriptorFetch {s : State} {h queue} : Answers s (execDescriptorFetch h queue s) := by
  unfold Machine.execDescriptorFetch
  exact .next (.mod .refl (fun _ k => .fetch k))

theorem Answers.doorbellStore {s : State} {h ag d v} : Answers s (execDoorbellStore h ag d v s) := by
  unfold Machine.execDoorbellStore
  exact .next (.mod .refl (fun _ k => .ite (.doorbellStore k) k))

theorem Answers.diagRun {s : State} {h slot pass} : Answers s (execDiagRun h slot pass s) := by
  unfold Machine.execDiagRun
  dsimp only
  refine .ite ?_ ?_
  · exact .next (.mod .refl (fun _ k => .diagEnd k))
  · exact .next (.runMsg .refl (fun _ => .wait (.mod .refl (fun _ k1 => .diagWork (.cause k1)))))

theorem Answers.logRead {s : State} {h slot} : Answers s (execLogRead h slot s) := by
  unfold Machine.execLogRead
  dsimp only
  exact .next (.runMsg .refl (fun _ => .ite (.done (.setHalf .refl (.settle (.commitBytes .refl)))) (.done .refl)))

theorem Answers.lnkRetrain {s : State} {h slot} : Answers s (execLnkRetrain h slot s) := by
  unfold Machine.execLnkRetrain
  dsimp only
  exact .next (.runMsg .refl (fun _ => .ite (.done .refl) (.wait (.mod (.retrain .refl) (fun _ k1 => .modLink k1)))))

theorem Answers.ptnRelease {s : State} {h slot} : Answers s (execPtnRelease h slot s) := by
  unfold Machine.execPtnRelease
  dsimp only
  exact .next (.runMsg .refl (fun _ => .ite (.done (.release .refl)) (.done .refl)))

theorem Answers.ptnList {s : State} {h slot} : Answers s (execPtnList h slot s) := by
  unfold Machine.execPtnList
  dsimp only
  refine .next (.runMsg .refl ?_)
  intro m
  refine .ite (.done (.setHalf .refl (.settle (.commitBytes .refl)))) ?_
  split <;> exact .done .refl

theorem Answers.timPortAsym {s : State} {h slot} : Answers s (execTimPortAsym h slot s) := by
  unfold Machine.execTimPortAsym
  exact .next (.runMsg .refl (fun _ => .done (.mod .refl (fun _ k1 => .modPort k1))))

theorem Answers.timStatus {s : State} {h slot} : Answers s (execTimStatus h slot s) := by
  unfold Machine.execTimStatus
  dsimp only
  exact .next (.runMsg .refl (fun _ => .done .refl))

theorem Answers.thmCoolantReport {s : State} {h slot} : Answers s (execThmCoolantReport h slot s) := by
  unfold Machine.execThmCoolantReport
  dsimp only
  refine .next (.runMsg .refl ?_)
  intro m
  refine .done (.ite ?_ ?_)
  · exact .mod (.mod .refl (fun _ k1 => .ite (.coolantReport k1) k1)) (fun _ k1 => .ite (.coolantReport k1) k1)
  · exact .mod .refl (fun _ k1 => .ite (.coolantReport k1) k1)

theorem Answers.pwrCapSet {s : State} {h slot} : Answers s (execPwrCapSet h slot s) := by
  unfold Machine.execPwrCapSet
  dsimp only
  exact .next (.runMsg .refl (fun _ => .wait (.upd .refl)))

theorem Answers.hibernateHoldExpiry {s : State} {h} : Answers s (execHibernateHoldExpiry h s) := by
  unfold Machine.execHibernateHoldExpiry
  dsimp only
  split
  · refine .ite ?_ ?_
    · exact .next (.ite (.wake (.reachSleep (.mod .refl (fun _ k => .upd k (by rfl))))) (.reachSleep (.mod .refl (fun _ k => .upd k
        (by rfl)))))
    · exact .next .refl
  · exact .next .refl

theorem Answers.pwrStateRequest {s : State} {h slot} : Answers s (execPwrStateRequest h slot s) := by
  unfold Machine.execPwrStateRequest
  dsimp only
  refine .ite (.next .refl) (.next (.runMsg .refl ?_))
  intro m
  refine .ite (.done .refl) ?_
  split
  · exact .done (.mod .refl (fun _ k1 => .goRunDim k1))
  · exact .done (.mod .refl (fun _ k1 => .goRunDim k1))
  · exact .wait (.mod .refl (fun _ k1 => .upd k1 (by rfl)))
  · exact .done (.mod .refl (fun _ k1 => .upd (.sleepSteps k1) (by rfl)))
  · exact .done (.mod .refl (fun _ k1 => .upd (.sleepSteps k1) (by rfl)))

theorem Answers.secDebugEnd {s : State} {h slot} : Answers s (execSecDebugEnd h slot s) := by
  unfold Machine.execSecDebugEnd
  dsimp only
  exact .next (.afterDebug (.runMsg .refl (fun _ => .done (.foldl (fun _ _ k1 => .mod k1 (fun _ k2 => .endDebug k2)) .refl))))

theorem State.Keeps.raiseSeq {s t : State} {b} (hk : s.Keeps t) : s.Keeps (t.raiseSeq b) := by
  unfold State.raiseSeq
  dsimp only
  exact .mod (.mod hk (fun _ k => .ite (.upd k (by rfl)) k)) (fun _ k => .ite (.upd k (by rfl)) k)

theorem Answers.secAttest {s : State} {h slot} : Answers s (execSecAttest h slot s) := by
  unfold Machine.execSecAttest
  dsimp only
  refine .next (.runMsg .refl ?_)
  intro m
  refine .ite ?_ ?_
  · exact .done (.setHalf .refl (.settle (.commitBytes (.ite (.newReport .refl) .refl))))
  · exact .done (.setHalf .refl (.ite (.newReport .refl) .refl))

theorem Answers.safSelftestStatus {s : State} {h slot} : Answers s (execSafSelftestStatus h slot s) := by
  unfold Machine.execSafSelftestStatus
  exact .next (.runMsg .refl (fun _ => .done .refl))

theorem Answers.safStatus {s : State} {h slot} : Answers s (execSafStatus h slot s) := by
  unfold Machine.execSafStatus
  exact .next (.runMsg .refl (fun _ => .done .refl))

theorem State.Keeps.startRejoin {s t : State} {r} (hk : s.Keeps t) : s.Keeps (t.startRejoin r) := by
  unfold State.startRejoin
  dsimp only
  refine .ite (.rejoinStep1 (.mod (.upd hk) (fun _ k => .cause k))) (.ite ?_ ?_)
  · exact .mod (.mod (.upd hk) (fun _ k => .cause k)) (fun _ k => .upd k (by rfl))
  · exact .rebootHalf (.mod (.upd hk) (fun _ k => .cause k))

theorem Answers.safModeRequest {s : State} {h slot} : Answers s (execSafModeRequest h slot s) := by
  unfold Machine.execSafModeRequest
  dsimp only
  exact .next (.runMsg .refl (fun _ => .ite (.done .refl) (.ite (.ite (.wait (.startRejoin .refl)) (.fail (.startRejoin .refl))) (.wait
      (.upd .refl)))))

theorem State.Keeps.evacOverlay {s t : State} {h i} (hk : s.Keeps t) : s.Keeps (t.evacOverlay h i) := by
  unfold State.evacOverlay
  dsimp only
  split
  · exact hk
  · exact .mod hk (fun _ k => .hold k)

theorem Answers.evacuateCommitReceive {s : State} {h overlays commit} : Answers s (execEvacuateCommitReceive h overlays commit s) := by
  unfold Machine.execEvacuateCommitReceive
  dsimp only
  exact .ite (.next .refl) (.next (.mod (.foldl (fun _ _ k => .evacOverlay k) .refl) (fun _ k => .announce (.upd k (by rfl)))))

theorem Answers.evacuateAcceptReceive {s : State} {h} : Answers s (execEvacuateAcceptReceive h s) := by
  unfold Machine.execEvacuateAcceptReceive
  dsimp only
  split
  · exact .ite (.next (.mod (.upd .refl) (fun _ k => .waitBoundary k))) (.next .refl)
  · exact .next .refl

theorem Answers.evacuate {s : State} {h slot receiver gm copied} : Answers s (execEvacuate h slot receiver gm copied s) := by
  unfold Machine.execEvacuate
  dsimp only
  refine .next (.runMsg .refl ?_)
  intro m
  refine .ite (.fail (.mod (.mod .refl (fun _ k1 => .announce k1)) (fun _ k1 => .took k1))) (.ite ?_ ?_)
  · exact .fail (.mod (.mod .refl (fun _ k1 => .announce k1)) (fun _ k1 => .took k1))
  · exact .ite (.wait (.upd (.mod .refl (fun _ k1 => .announce k1)))) (.done (.mod .refl (fun _ k1 => .announce k1)))

theorem Answers.mapOut {s : State} {h slot} : Answers s (execMapOut h slot s) := by
  unfold Machine.execMapOut
  dsimp only
  exact .next (.runMsg .refl (fun _ => .ite (.done .refl) (.wait (.setHalf .refl (.cause (.upd .refl (by rfl)))))))

theorem Answers.engRetire {s : State} {h slot} : Answers s (execEngRetire h slot s) := by
  unfold Machine.execEngRetire
  dsimp only
  exact .next (.runMsg .refl (fun _ => .done (.mod .refl (fun _ k1 => .ite k1 (.decideRetire k1)))))

theorem Answers.updActivate {s : State} {h slot} : Answers s (execUpdActivate h slot s) := by
  unfold Machine.execUpdActivate
  dsimp only
  refine .next (.runMsg .refl ?_)
  intro m
  refine .ite (.wait (.mod .refl (fun _ k1 => .upd (.waitBoundary (.switchSlot k1)) (by rfl)))) (.ite (.ite ?_ ?_) (.done (.mod .refl
      (fun _ k1 => .toggleSlot k1))))
  · exact .done (.mod .refl (fun _ k1 => .switchSlot k1))
  · exact .wait (.mod .refl (fun _ k1 => .upd (.waitBoundary (.switchSlot k1)) (by rfl)))

theorem Answers.ovlStatus {s : State} {h slot} : Answers s (execOvlStatus h slot s) := by
  unfold Machine.execOvlStatus
  exact .next (.runMsg .refl (fun _ => .done .refl))

theorem Answers.overlayConfirmReceive {s : State} {h} : Answers s (execOverlayConfirmReceive h s) := by
  unfold Machine.execOverlayConfirmReceive
  dsimp only
  refine .ite (.next .refl) ?_
  split
  · exact .next .refl
  · split
    · exact .next (.mod .refl (fun _ k => .dropHeld k))
    · exact .next (.mod .refl (fun _ k => .upd k (by rfl)))

theorem Answers.clientCounters {s : State} {h slot} : Answers s (execClientCounters h slot s) := by
  unfold Machine.execClientCounters
  dsimp only
  exact .next (.runMsg .refl (fun _ => .done .refl))

theorem Answers.tptUnmap {s : State} {h slot} : Answers s (execTptUnmap h slot s) := by
  unfold Machine.execTptUnmap
  dsimp only
  exact .next (.runMsg .refl (fun _ => .done (.setHalf .refl (.unmapAll .refl))))

theorem Answers.tptMap {s : State} {h slot} : Answers s (execTptMap h slot s) := by
  unfold Machine.execTptMap
  dsimp only
  exact .next (.runMsg .refl (fun _ => .done (.setHalf .refl (.mapAll .refl))))

theorem Answers.queueBindDoorbell {s : State} {h slot} : Answers s (execQueueBindDoorbell h slot s) := by
  unfold Machine.execQueueBindDoorbell
  dsimp only
  exact .next (.runMsg .refl (fun _ => .done (.mod .refl (fun _ k1 => .modQueue k1))))

theorem Answers.queueDestroy {s : State} {h slot} : Answers s (execQueueDestroy h slot s) := by
  unfold Machine.execQueueDestroy
  dsimp only
  exact .next (.runMsg .refl (fun _ => .done (.mod .refl (fun _ k1 => .settle (.upd (.endCmds k1) (by rfl))))))

theorem Answers.queueCreate {s : State} {h slot} : Answers s (execQueueCreate h slot s) := by
  unfold Machine.execQueueCreate
  dsimp only
  exact .next (.runMsg .refl (fun _ => .done (.mod .refl (fun _ k1 => .upd k1 (by rfl)))))

theorem Answers.ctxDestroy {s : State} {h slot} : Answers s (execCtxDestroy h slot s) := by
  unfold Machine.execCtxDestroy
  exact .next (.runMsg .refl (fun _ => .done (.mod .refl (fun _ k1 => .settle (.teardown k1)))))

theorem Answers.ctxCreate {s : State} {h slot} : Answers s (execCtxCreate h slot s) := by
  unfold Machine.execCtxCreate
  dsimp only
  exact .next (.runMsg .refl (fun _ => .done (.mod .refl (fun _ k1 => .upd k1 (by rfl)))))

theorem Answers.clientRelease {s : State} {h slot} : Answers s (execClientRelease h slot s) := by
  unfold Machine.execClientRelease
  exact .next (.runMsg .refl (fun _ => .done (.mod .refl (fun _ k1 => .settle (.releaseClient k1)))))

theorem Answers.clientRegister {s : State} {h slot} : Answers s (execClientRegister h slot s) := by
  unfold Machine.execClientRegister
  dsimp only
  exact .next (.runMsg .refl (fun _ => .done (.mod .refl (fun _ k1 => .upd k1 (by rfl)))))

theorem Answers.sysStatus {s : State} {h slot} : Answers s (execSysStatus h slot s) := by
  unfold Machine.execSysStatus
  exact .next (.runMsg .refl (fun _ => .done .refl))

theorem Answers.sysIdentify {s : State} {h slot} : Answers s (execSysIdentify h slot s) := by
  unfold Machine.execSysIdentify
  exact .next (.runMsg .refl (fun _ => .done .refl))

theorem Answers.sysNop {s : State} {h slot} : Answers s (execSysNop h slot s) := by
  unfold Machine.execSysNop
  exact .next (.runMsg .refl (fun _ => .done .refl))

theorem Answers.messageAcknowledge {s : State} {h} : Answers s (execMessageAcknowledge h s) := by
  unfold Machine.execMessageAcknowledge
  exact .next (.mod .refl (fun _ k => .acknowledge k))

theorem Answers.mbxInWrite {s : State} {h ag slot wide word v} : Answers s (execMbxInWrite h ag slot wide word v s) := by
  unfold Machine.execMbxInWrite
  dsimp only
  exact .next (.mod .refl (fun _ k => .ite k (.ite (.inStore k) (.slotRefused k))))

theorem Answers.mbxOwnerRelease {s : State} {h ag slot} : Answers s (execMbxOwnerRelease h ag slot s) := by
  unfold Machine.execMbxOwnerRelease
  exact .next (.mod .refl (fun _ k => .ite k (.ite (.ownerStore k) (.slotRefused k))))

theorem Answers.mbxOwnerClaim {s : State} {h ag slot client} : Answers s (execMbxOwnerClaim h ag slot client s) := by
  unfold Machine.execMbxOwnerClaim
  exact .next (.mod .refl (fun _ k => .ite k (.ite (.ownerStore k) (.slotRefused k))))

/-- Both halves change at once. -/
theorem State.Keeps.halves {s t : State} {a b : Half} (hk : s.Keeps t) (ha : s.a.Keeps a) (hb : s.b.Keeps b) :
    s.Keeps { t with a := a, b := b } :=
  ⟨hk.pending, fun g => by cases g <;> assumption⟩

theorem State.Keeps.tick {s t : State} (hk : s.Keeps t) : s.Keeps t.tick := by
  unfold State.tick
  exact .ite (.halves hk (.tick (hk.half .a)) (.tick (hk.half .b))) hk

theorem State.Keeps.relayRoles {s t : State} (hk : s.Keeps t) : s.Keeps t.relayRoles := by
  have hput : ∀ {x y : Half} {on : Bool}, x.Keeps y →
      x.Keeps (if y.timx.elsewhere = on then y else ({ y with timx := { y.timx with elsewhere := on } } : Half).bmca) :=
    fun h => .ite h (.bmca (.upd h (by rfl)))
  have hfollow : ∀ {x y o : Half}, x.Keeps y → x.Keeps (if !y.tim.lead then y
      else if y.timx.elsewhere then
        match (o.bestPort).bind (fun p => (o.port p).announce) with
        | some (_, gm, steps) => y.newGm gm steps
        | none => y
      else if y.tim.source = 1 && y.slavePort.isNone then y.loseSource else y) := by
    intro x y o h
    refine .ite h (.ite ?_ (.ite (.loseSource h) h))
    split
    · exact .newGm h
    · exact h
  unfold State.relayRoles
  exact .ite (.halves hk (hfollow (hput (hk.half .a))) (hfollow (hput (hk.half .b)))) hk

theorem Half.Keeps.takePtp {x y : Half} {m} (h : x.Keeps y) : x.Keeps (y.takePtp m).1 := by
  have hdrop := h.modPort (p := m.port) (f := fun p => { p with ptpDrops := p.ptpDrops + 1 })
  unfold Half.takePtp
  dsimp only
  split
  · exact h
  · split
    · exact hdrop
    · split
      · exact .ptnArrive h
      · split
        · exact .ite (.setCapable (.violate (.modPort (.ptnArrive h)))) (.violate (.modPort (.ptnArrive h)))
        · split
          · exact .ite (.setCapable (.violate (.modPort (.ptnArrive h)))) (.violate (.modPort (.ptnArrive h)))
          · exact .ptnArrive h

theorem Half.Keeps.farCopy {x y : Half} {tether client window rows} (h : x.Keeps y) :
    x.Keeps (y.farCopy tether client window rows).1 := by
  unfold Half.farCopy
  split
  · exact .announce h
  · split
    · exact .remoteVio h
    · dsimp only
      split
      · exact .remoteVio h
      · split
        · exact .remoteVio h
        · split
          · exact h
          · split
            · dsimp only
              exact .memErr h
            · dsimp only
              exact .settle (.commitBytes h)

theorem Half.Keeps.farSignal {x y : Half} {tether client slot v} (h : x.Keeps y) : x.Keeps (y.farSignal tether client slot v).1 := by
  unfold Half.farSignal
  split
  · exact .announce h
  · split
    · exact .remoteVio h
    · split
      · exact .remoteVio h
      · split
        · split
          · exact h
          · exact .settle (.fillWord h)
        · dsimp only
          split
          · exact .settle (.applyEff h)
          · exact h

theorem State.Keeps.takeMsg {α : Type} {s t u : State} {h} {f : LinkMsg → Option α} {a : α} (hk : s.Keeps t)
    (hu : t.takeMsg h f = some (a, u)) : s.Keeps u := by
  unfold State.takeMsg at hu
  dsimp only at hu
  split at hu
  · cases hu
  · obtain ⟨p, -, hp⟩ := Option.map_eq_some_iff.1 hu
    cases hp
    exact .mod hk fun _ k => .upd k (by rfl)

theorem State.Keeps.takeBus {α : Type} {s t u : State} {h} {f : LinkMsg → Option α} {a : α} (hk : s.Keeps t)
    (hu : t.takeBus h f = some (a, u)) : s.Keeps u := by
  obtain ⟨p, -, hp⟩ := Option.map_eq_some_iff.1 hu
  cases hp
  exact .mod hk fun _ k => .upd k (by rfl)

@[simp] theorem Qos.setFill_ports_length (q : Qos) (f : RtFill) : (q.setFill f).ports.length = q.ports.length := by
  simp [Qos.setFill]
@[simp] theorem Qos.setFill_classes (q : Qos) (f : RtFill) : (q.setFill f).classes = q.classes := by
  simp [Qos.setFill]

theorem State.Keeps.takeSync {s t : State} {h y p t' origin corr} (hk : s.Keeps t) (hy : (s.half h).Keeps y) :
    s.Keeps (t.takeSync h y p t' origin corr) := by
  unfold State.takeSync
  exact .feedLead (.setHalf hk (.relay (.portMeasure hy)))

theorem Answers.gptpFollowUpReceive {s : State} {h m origin corr} : Answers s (execGptpFollowUpReceive h m origin corr s) := by
  have hy : (s.half h).Keeps ((s.half h).takePtp m).1 := .takePtp .refl
  unfold Machine.execGptpFollowUpReceive
  dsimp only
  refine .next (.ite (.setHalf .refl hy) ?_)
  split
  · exact .ite (.takeSync .refl hy) (.setHalf .refl hy)
  · exact .setHalf .refl hy

theorem Answers.umpireHeartbeatReceive {s : State} {h bus} : Answers s (execUmpireHeartbeatReceive h bus s) := by
  unfold Machine.execUmpireHeartbeatReceive
  refine .ite (.next .refl) ?_
  split
  · rename_i hu
    refine .next (.mod ?_ fun _ k => .upd k (by rfl))
    split at hu
    · exact .takeBus .refl hu
    · exact .takeMsg .refl hu
  · exact .next .refl

theorem Answers.apStore {s : State} {h ap addr size v} : Answers s (s.apStore h ap addr size v) := by
  unfold State.apStore
  dsimp only
  refine .ite (.next .refl) ?_
  split
  · exact .ite (.next (.upd (.setHalf .refl (.modPair .refl fun _ => memWrites_wf _ _ _)))) (.next (.upd .refl))
  · split
    · exact .next (.upd .refl)
    · refine .ite (.next (.upd .refl)) (.ite (.next (.upd (.setHalf .refl (.coreVio .refl)))) ?_)
      split
      · exact .next (.upd (.setHalf .refl (.apError .refl)))
      · exact .next (.upd (.setHalf .refl (.commitBytes (.noteRaces .refl))))

theorem Reply.Keeps.keepStage {s t : State} {r : Reply} (hr : Reply.Keeps s r) (hk : s.Keeps t) : Reply.Keeps s (r.keepStage t) := by
  cases hr with
  | done h => exact .done h
  | fail h => exact .fail (.ite hk h)
  | wait h => exact .wait h

theorem State.Keeps.runRequest {s t : State} {h slot op run} (hk : s.Keeps t)
    (hr : ∀ u b, s.Keeps u → Reply.Keeps s (run u b)) : s.Keeps (t.runRequest h slot op run) := by
  unfold State.runRequest
  dsimp only
  refine .runMsg hk fun m => .ite (hr _ _ hk) ?_
  split
  · exact .fail hk
  · exact .fail (.mod hk fun _ k => .upd k (by rfl))
  · exact .done (.mod hk fun _ k => .upd k (by rfl))
  · exact .keepStage (hr _ _ (.mod hk fun _ k => .upd k (by rfl))) hk

theorem Reply.Keeps.runImage {s t : State} {h slot op m run} (hk : s.Keeps t)
    (hr : ∀ u b, s.Keeps u → Reply.Keeps s (run u b)) : Reply.Keeps s (t.runImage h slot op m run) := by
  unfold State.runImage
  dsimp only
  refine .ite (hr _ _ hk) ?_
  split
  · exact .fail hk
  · exact .fail (.mod hk fun _ k => .upd k (by rfl))
  · exact .ite (.fail (.mod hk fun _ k => .upd k (by rfl))) (.done (.mod hk fun _ k => .upd k (by rfl)))
  · exact .ite (.fail (.mod hk fun _ k => .upd k (by rfl))) (.keepStage (hr _ _ (.mod hk fun _ k => .upd k (by rfl))) hk)

theorem Answers.ethLinkChange {s : State} {h port up} : Answers s (execEthLinkChange h port up s) := by
  unfold Machine.execEthLinkChange
  dsimp only
  exact .next (.relayRoles (.mod .refl (fun _ k => .ite k (.ite (.bmca (.modPort k)) (.bmca (.modPort (.ite (.loseSource k) k)))))))

theorem Answers.announceReceiptTimeout {s : State} {h port} : Answers s (execAnnounceReceiptTimeout h port s) := by
  unfold Machine.execAnnounceReceiptTimeout
  dsimp only
  exact .next (.relayRoles (.mod .refl (fun _ k => .ite (.bmca (.modPort k)) k)))

theorem Answers.gptpPdelayReceive {s : State} {h m k'} : Answers s (execGptpPdelayReceive h m k' s) := by
  unfold Machine.execGptpPdelayReceive
  dsimp only
  refine .next (.relayRoles (.mod .refl ?_))
  intro y k
  refine .ite (.takePtp k) ?_
  split
  · exact .sendOn (.sendOn (.took (.takePtp k)))
  · exact .modPort (.takePtp k)
  · split
    · exact .setCapable (.modPort (.takePtp k))
    · exact .takePtp k

theorem Answers.gptpAnnounceReceive {s : State} {h m vec gm steps} : Answers s (execGptpAnnounceReceive h m vec gm steps s) := by
  unfold Machine.execGptpAnnounceReceive
  dsimp only
  exact .next (.ite (.setHalf .refl (.takePtp .refl)) (.relayRoles (.setHalf .refl (.bmca (.modPort (.takePtp .refl))))))

theorem Answers.gptpSyncReceive {s : State} {h m twoStep origin corr} : Answers s (execGptpSyncReceive h m twoStep origin corr s) := by
  unfold Machine.execGptpSyncReceive
  dsimp only
  refine .next (.ite ?_ ?_)
  · exact .setHalf .refl (.takePtp .refl)
  · exact .ite (.setHalf .refl (.modPort (.takePtp .refl))) (.takeSync .refl (.takePtp .refl))

theorem Answers.ethReceiveFrame {s : State} {h port frame fcs t'} : Answers s (execEthReceiveFrame h port frame fcs t' s) := by
  unfold Machine.execEthReceiveFrame
  dsimp only
  refine .next (.mod .refl ?_)
  intro y k
  refine .ite k (.ite (.ite (.takePtp k) k) ?_)
  split
  · exact .toFlow k
  · refine .ite (.ite ?_ ?_) (.toRing k)
    · exact .toRing (.ite (.bridgeCross (.bridgeLocal (.learn k))) (.bridgeLocal (.learn k)))
    · exact .ite (.bridgeCross (.bridgeLocal (.learn k))) (.bridgeLocal (.learn k))

theorem Answers.portTransactionComplete {s : State} {h turn} : Answers s (execPortTransactionComplete h turn s) := by
  unfold Machine.execPortTransactionComplete
  dsimp only
  refine .next (.mod .refl ?_)
  intro y k
  refine .ite k ?_
  split
  · exact .modQos k (by simp)
  · exact .releaseHeld (.finishTxn (.modQos (.modQos k (by simp)) (by rfl)))

theorem Answers.portTransactionRequest {s : State} {h port blocks turn cmd core} :
    Answers s (execPortTransactionRequest h port blocks turn cmd core s) := by
  unfold Machine.execPortTransactionRequest
  dsimp only
  refine .next (.mod .refl ?_)
  intro y k
  split
  · exact k
  · refine .ite k (.ite (.issue (.modQos (.modQos k (by simp)) (by rfl))) ?_)
    split
    · refine .ite ?_ ?_
      · exact .modCmd (.took (.modQos (.modQos (.modQos k (by simp)) (by rfl)) (by simp)))
      · exact .modQos (.modQos (.modQos k (by simp)) (by rfl)) (by simp)
    · exact .modQos (.modQos (.modQos k (by simp)) (by rfl)) (by simp)

theorem Answers.compareRecordReceive {s : State} {h} : Answers s (execCompareRecordReceive h s) := by
  unfold Machine.execCompareRecordReceive
  dsimp only
  refine .ite (.next .refl) ?_
  split
  · exact .next (.noteCompare (.mod (.takeMsg .refl ‹_›) (fun _ k => .ite (.upd (.dropOwn k) (by rfl)) (.mismatch (.dropOwn k)))))
  · exact .next .refl

theorem Answers.gateClosedReceive {s : State} {h} : Answers s (execGateClosedReceive h s) := by
  unfold Machine.execGateClosedReceive
  dsimp only
  refine .ite (.next .refl) ?_
  split
  · refine .ite ?_ ?_
    · exact .next (.openChain (.moveChain (.mod (.mod (.takeMsg .refl ‹_›) (fun _ k => .upd k (by rfl))) (fun _ k => .becomeStandby k))))
    · exact .ite (.next (.openChain (.takeMsg .refl ‹_›))) (.next (.takeMsg .refl ‹_›))
  · exact .next .refl

theorem Answers.substituteReceive {s : State} {h} : Answers s (execSubstituteReceive h s) := by
  unfold Machine.execSubstituteReceive
  dsimp only
  refine .ite (.next .refl) ?_
  split
  · exact .next (.setRoles (.mod (.mod (.takeMsg .refl ‹_›) (fun _ k => .umpEvent (.upd (.takeChain (.dropUntrusted k)) (by rfl))))
      (fun _ k => .giveGates k)))
  · exact .next .refl

theorem Answers.checkpointReceive {s : State} {h} : Answers s (execCheckpointReceive h s) := by
  unfold Machine.execCheckpointReceive
  dsimp only
  refine .ite (.next .refl) ?_
  split
  · exact .next (.mod (.takeMsg .refl ‹_›) (fun _ k => .upd k (by rfl)))
  · exact .next .refl

theorem State.Keeps.serveSignal {s t : State} {h} (hk : s.Keeps t) : s.Keeps (t.serveSignal h) := by
  unfold State.serveSignal
  dsimp only
  split
  · exact hk
  · exact .ite hk (.setHalf (.setHalf hk (.markFar (.upd (hk.half _) (by rfl)))) (.send (.farSignal (hk.half _))))

theorem Answers.remoteSignalReceive {s : State} {h tether} : Answers s (execRemoteSignalReceive h tether s) := by
  unfold Machine.execRemoteSignalReceive
  refine .next ?_
  split
  · exact .serveSignal .refl
  · exact .mod .refl (fun _ k => .ite (.farSignal k) k)

theorem State.Keeps.serveCopy {s t : State} {h} (hk : s.Keeps t) : s.Keeps (t.serveCopy h) := by
  unfold State.serveCopy
  dsimp only
  split
  · exact hk
  · exact .ite hk (.setHalf (.setHalf hk (.markFar (.upd (hk.half _) (by rfl)))) (.send (.farCopy (hk.half _))))

theorem Answers.remoteCopyReceive {s : State} {h tether} : Answers s (execRemoteCopyReceive h tether s) := by
  unfold Machine.execRemoteCopyReceive
  refine .next ?_
  split
  · exact .serveCopy .refl
  · exact .mod .refl (fun _ k => .ite (.farCopy k) k)

theorem Answers.apertureStore {s : State} {h ap addr size v} : Answers s (execApertureStore h ap addr size v s) := by
  unfold Machine.execApertureStore
  split
  · exact .apStore
  · exact .ite (.next (.upd .refl)) (.next .refl)

theorem Answers.secDebugAuth {s : State} {h slot} : Answers s (execSecDebugAuth h slot s) := by
  unfold Machine.execSecDebugAuth
  dsimp only
  refine .next (.runRequest .refl ?_)
  intro u b k
  split
  · exact .fail k
  · exact .done (.foldl (fun _ _ k1 => .mod k1 (fun _ k2 => .openDebug k2)) (.raiseSeq k))

theorem Answers.secLifecycle {s : State} {h slot} : Answers s (execSecLifecycle h slot s) := by
  unfold Machine.execSecLifecycle
  dsimp only
  refine .next (.runRequest .refl ?_)
  intro u b k
  split
  · exact .fail k
  · refine .wait (.ite ?_ ?_)
    · exact .mod (.mod (.raiseSeq k) (fun _ k1 => .upd k1 (by rfl))) (fun _ k1 => .upd k1 (by rfl))
    · exact .mod (.raiseSeq k) (fun _ k1 => .upd k1 (by rfl))

theorem Answers.updStage {s : State} {h slot} : Answers s (execUpdStage h slot s) := by
  unfold Machine.execUpdStage
  dsimp only
  refine .next (.runMsg .refl ?_)
  intro m
  refine .runImage .refl ?_
  intro u b k1
  split
  · exact .fail (.ite k1 (.mod k1 (fun _ k2 => .writeSlot k2)))
  · exact .done (.mod k1 (fun _ k2 => .writeSlot k2))

theorem Answers.ovlSubmit {s : State} {h slot} : Answers s (execOvlSubmit h slot s) := by
  unfold Machine.execOvlSubmit
  dsimp only
  refine .next (.runMsg .refl ?_)
  intro m
  refine .ite (.wait (.mod .refl (fun _ k1 => .hold k1))) (.runImage .refl ?_)
  intro u b k1
  split
  · exact .fail k1
  · exact .wait (.mod k1 (fun _ k2 => .hold k2))

end Sys2Proof.Machine
end

section
/-! PROOFS. Every command answers, and what every step keeps (spec/00_scope.md R4, spec/19_security_debug_power.md R485). -/

namespace Sys2Proof.Machine
open Sys2Proof.Laws.Memory

theorem Answers.or_private {s : State} {h op} : Answers s (execTapInstruction h op s) ∨
    (op = .priv ∧ execTapInstruction h op s = .refused .privateTap) := by
  unfold execTapInstruction
  dsimp only
  split
  · exact .inl (.next (.upd .refl))
  · split
    · exact .inl (.next (.tapAsleep .refl))
    · split
      next hpriv =>
        simp only [Bool.and_eq_true, decide_eq_true_eq] at hpriv
        exact .inr ⟨hpriv.1, rfl⟩
      next => exact .inl (.next (.tapAwake .refl))

/-- Every command but one of Nirlevan's own TAP instructions answers a state that keeps what the block keeps. -/
theorem exec_answers (c : Instr) (s : State) :
    Answers s (exec c s) ∨ ∃ h, c = .tapInstruction h .priv ∧ exec c s = .refused .privateTap := by
  cases c with
  | mbxOwnerClaim => exact .inl .mbxOwnerClaim
  | mbxOwnerRelease => exact .inl .mbxOwnerRelease
  | mbxInWrite => exact .inl .mbxInWrite
  | messageAcknowledge => exact .inl .messageAcknowledge
  | sysNop => exact .inl .sysNop
  | sysIdentify => exact .inl .sysIdentify
  | sysStatus => exact .inl .sysStatus
  | clientRegister => exact .inl .clientRegister
  | clientRelease => exact .inl .clientRelease
  | ctxCreate => exact .inl .ctxCreate
  | ctxDestroy => exact .inl .ctxDestroy
  | queueCreate => exact .inl .queueCreate
  | queueDestroy => exact .inl .queueDestroy
  | queueBindDoorbell => exact .inl .queueBindDoorbell
  | tptMap => exact .inl .tptMap
  | tptUnmap => exact .inl .tptUnmap
  | clientCounters => exact .inl .clientCounters
  | ovlSubmit => exact .inl .ovlSubmit
  | overlayConfirmReceive => exact .inl .overlayConfirmReceive
  | ovlStatus => exact .inl .ovlStatus
  | updStage => exact .inl .updStage
  | updActivate => exact .inl .updActivate
  | engRetire => exact .inl .engRetire
  | mapOut => exact .inl .mapOut
  | evacuate => exact .inl .evacuate
  | evacuateAcceptReceive => exact .inl .evacuateAcceptReceive
  | evacuateCommitReceive => exact .inl .evacuateCommitReceive
  | safModeRequest => exact .inl .safModeRequest
  | safStatus => exact .inl .safStatus
  | safSelftestStatus => exact .inl .safSelftestStatus
  | secAttest => exact .inl .secAttest
  | secLifecycle => exact .inl .secLifecycle
  | secDebugAuth => exact .inl .secDebugAuth
  | secDebugEnd => exact .inl .secDebugEnd
  | pwrStateRequest => exact .inl .pwrStateRequest
  | hibernateHoldExpiry => exact .inl .hibernateHoldExpiry
  | pwrCapSet => exact .inl .pwrCapSet
  | thmCoolantReport => exact .inl .thmCoolantReport
  | timStatus => exact .inl .timStatus
  | timPortAsym => exact .inl .timPortAsym
  | ptnList => exact .inl .ptnList
  | ptnRelease => exact .inl .ptnRelease
  | lnkRetrain => exact .inl .lnkRetrain
  | logRead => exact .inl .logRead
  | diagRun => exact .inl .diagRun
  | doorbellStore => exact .inl .doorbellStore
  | descriptorFetch => exact .inl .descriptorFetch
  | registerWrite => exact .inl .registerWrite
  | qosRegisterWrite => exact .inl .qosRegisterWrite
  | thmClusterMhzWrite => exact .inl .thmClusterMhzWrite
  | timSyncLoad => exact .inl .timSyncLoad
  | remoteControlAccess => exact .inl .remoteControlAccess
  | nvctxWrite => exact .inl .nvctxWrite
  | nvclassWrite => exact .inl .nvclassWrite
  | apertureLoad => exact .inl .apertureLoad
  | apertureStore => exact .inl .apertureStore
  | gemm => exact .inl .gemm
  | elementwise => exact .inl .elementwise
  | reduce => exact .inl .reduce
  | norm => exact .inl .norm
  | softmax => exact .inl .softmax
  | convert => exact .inl .convert
  | warmup => exact .inl .warmup
  | quickWarmupSlice => exact .inl .quickWarmupSlice
  | quickWarmupForce => exact .inl .quickWarmupForce
  | warmupDeadlineKill => exact .inl .warmupDeadlineKill
  | conv => exact .inl .conv
  | poolMax => exact .inl .poolMax
  | poolAvg => exact .inl .poolAvg
  | kvPoolInit => exact .inl .kvPoolInit
  | kvPoolDestroy => exact .inl .kvPoolDestroy
  | kvAppend => exact .inl .kvAppend
  | kvPin => exact .inl .kvPin
  | kvEvict => exact .inl .kvEvict
  | kvCompact => exact .inl .kvCompact
  | kvRelease => exact .inl .kvRelease
  | attend => exact .inl .attend
  | attendBwd => exact .inl .attendBwd
  | gather => exact .inl .gather
  | bagSum => exact .inl .bagSum
  | bagMean => exact .inl .bagMean
  | bagMax => exact .inl .bagMax
  | hotLoad => exact .inl .hotLoad
  | ingestBind => exact .inl .ingestBind
  | ingestUnbind => exact .inl .ingestUnbind
  | batch => exact .inl .batch
  | decodeComplete => exact .inl .decodeComplete
  | sampleBudgetExpiry => exact .inl .sampleBudgetExpiry
  | batchBudgetExpiry => exact .inl .batchBudgetExpiry
  | swdecAttach => exact .inl .swdecAttach
  | swdecReturn => exact .inl .swdecReturn
  | swdecDetach => exact .inl .swdecDetach
  | swdecDeadlineExpiry => exact .inl .swdecDeadlineExpiry
  | fuseOpen => exact .inl .fuseOpen
  | fuseClose => exact .inl .fuseClose
  | fuseStep => exact .inl .fuseStep
  | planOpen => exact .inl .planOpen
  | planClose => exact .inl .planClose
  | planStep => exact .inl .planStep
  | copy => exact .inl .copy
  | copyOut => exact .inl .copyOut
  | remoteCopyReceive => exact .inl .remoteCopyReceive
  | remoteAnswerReceive => exact .inl .remoteAnswerReceive
  | windowBind => exact .inl .windowBind
  | windowUnbind => exact .inl .windowUnbind
  | fill => exact .inl .fill
  | drain => exact .inl .drain
  | waitFull => exact .inl .waitFull
  | waitEmpty => exact .inl .waitEmpty
  | peek => exact .inl .peek
  | signalRemote => exact .inl .signalRemote
  | remoteSignalReceive => exact .inl .remoteSignalReceive
  | remoteBind => exact .inl .remoteBind
  | remoteUnbind => exact .inl .remoteUnbind
  | huddleOpen => exact .inl .huddleOpen
  | huddleArrive => exact .inl .huddleArrive
  | commandCommit => exact .inl .commandCommit
  | preemption => exact .inl .preemption
  | budgetExpiry => exact .inl .budgetExpiry
  | unitWatchdogExpiry => exact .inl .unitWatchdogExpiry
  | engineResetComplete => exact .inl .engineResetComplete
  | frameBoundary => exact .inl .frameBoundary
  | checkpointReceive => exact .inl .checkpointReceive
  | umpireVerdict => exact .inl .umpireVerdict
  | substituteReceive => exact .inl .substituteReceive
  | gateClosedReceive => exact .inl .gateClosedReceive
  | compareRecordReceive => exact .inl .compareRecordReceive
  | compareRecordTimeout => exact .inl .compareRecordTimeout
  | captainHeartbeatLoss => exact .inl .captainHeartbeatLoss
  | refclkFailure => exact .inl .refclkFailure
  | supplyOutOfWindow => exact .inl .supplyOutOfWindow
  | junctionOvertemp => exact .inl .junctionOvertemp
  | hbmOvertemp => exact .inl .hbmOvertemp
  | captainMemoryUe => exact .inl .captainMemoryUe
  | umpireSelfFailure => exact .inl .umpireSelfFailure
  | pairLockstepDisagree => exact .inl .pairLockstepDisagree
  | umpireHeartbeatReceive => exact .inl .umpireHeartbeatReceive
  | peerLoss => exact .inl .peerLoss
  | faultReceive => exact .inl .faultReceive
  | gatePermitExpiry => exact .inl .gatePermitExpiry
  | selftestSlice => exact .inl .selftestSlice
  | selftestIntervalMissed => exact .inl .selftestIntervalMissed
  | calibrationSlice => exact .inl .calibrationSlice
  | memoryUeDetected => exact .inl .memoryUeDetected
  | correctedError => exact .inl .correctedError
  | sramUncorrectable => exact .inl .sramUncorrectable
  | scrubRead => exact .inl .scrubRead
  | qosWindowEnd => exact .inl .qosWindowEnd
  | portTransactionRequest => exact .inl .portTransactionRequest
  | portTransactionComplete => exact .inl .portTransactionComplete
  | captureWrite => exact .inl .captureWrite
  | forwardedCaptureReceive => exact .inl .forwardedCaptureReceive
  | arrivalMark => exact .inl .arrivalMark
  | pcieEndpointDma => exact .inl .pcieEndpointDma
  | siteDieWrite => exact .inl .siteDieWrite
  | siteDieFill => exact .inl .siteDieFill
  | ethReceiveFrame => exact .inl .ethReceiveFrame
  | macTransmit => exact .inl .macTransmit
  | gptpSyncReceive => exact .inl .gptpSyncReceive
  | gptpAnnounceReceive => exact .inl .gptpAnnounceReceive
  | gptpPdelayReceive => exact .inl .gptpPdelayReceive
  | gptpSyncTransmit => exact .inl .gptpSyncTransmit
  | syncReceiptTimeout => exact .inl .syncReceiptTimeout
  | announceReceiptTimeout => exact .inl .announceReceiptTimeout
  | timeExchange => exact .inl .timeExchange
  | followerExchangeTimeout => exact .inl .followerExchangeTimeout
  | startWaitExpiry => exact .inl .startWaitExpiry
  | halfReady => exact .inl .halfReady
  | mtimeCompare => exact .inl .mtimeCompare
  | mbxHeartbeatTick => exact .inl .mbxHeartbeatTick
  | flitCrcError => exact .inl .flitCrcError
  | laneFaultDetected => exact .inl .laneFaultDetected
  | sidebandLoss => exact .inl .sidebandLoss
  | retrainComplete => exact .inl .retrainComplete
  | tetherLinkUp => exact .inl .tetherLinkUp
  | tetherIdentityReceive => exact .inl .tetherIdentityReceive
  | partnerAbsentTimeout => exact .inl .partnerAbsentTimeout
  | quarantineReleaseTimeout => exact .inl .quarantineReleaseTimeout
  | mgmtAlertResponse => exact .inl .mgmtAlertResponse
  | tapInstruction h op =>
    rcases Answers.or_private (s := s) (h := h) (op := op) with ha | ⟨rfl, hr⟩
    · exact .inl ha
    · exact .inr ⟨h, rfl, hr⟩
  | powerSample => exact .inl .powerSample
  | forcedDimRelease => exact .inl .forcedDimRelease
  | thermalLimitUpdate => exact .inl .thermalLimitUpdate
  | thetaEstimate => exact .inl .thetaEstimate
  | thetaProbe => exact .inl .thetaProbe
  | temperatureSample => exact .inl .temperatureSample
  | coolantReportTimeout => exact .inl .coolantReportTimeout
  | domainPowerGood => exact .inl .domainPowerGood
  | wakePin => exact .inl .wakePin
  | wakeTimerExpiry => exact .inl .wakeTimerExpiry
  | peerWake => exact .inl .peerWake
  | devicePowerOn => exact .inl .devicePowerOn
  | pwrOkFall => exact .inl .pwrOkFall
  | halfResetAssert => exact .inl .halfResetAssert
  | halfResetRelease => exact .inl .halfResetRelease
  | fieldDebugTimeSave => exact .inl .fieldDebugTimeSave
  | fieldDebugExpiry => exact .inl .fieldDebugExpiry
  | debugLevelExpiry => exact .inl .debugLevelExpiry
  | uploadStageIdleTimeout => exact .inl .uploadStageIdleTimeout
  | transferStageIdleTimeout => exact .inl .transferStageIdleTimeout
  | attestBucketRefill => exact .inl .attestBucketRefill
  | treeGenerationComplete => exact .inl .treeGenerationComplete
  | keygenComplete => exact .inl .keygenComplete
  | ethLinkChange => exact .inl .ethLinkChange
  | rootPortLinkDown => exact .inl .rootPortLinkDown
  | tetherLinkDown => exact .inl .tetherLinkDown
  | gptpFollowUpReceive => exact .inl .gptpFollowUpReceive
  | pdelayReqTransmit => exact .inl .pdelayReqTransmit
  | announceTransmit => exact .inl .announceTransmit
  | umpireHeartbeatSend => exact .inl .umpireHeartbeatSend
  | gatePermitRefresh => exact .inl .gatePermitRefresh
  | subsystemResetComplete => exact .inl .subsystemResetComplete
  | frameMoveComplete => exact .inl .frameMoveComplete
  | linkRecoveryCauseClear => exact .inl .linkRecoveryCauseClear
  | bridgeFrameReceive => exact .inl .bridgeFrameReceive
  | mgmtBusFramingError => exact .inl .mgmtBusFramingError

theorem State.Keeps.step {s t : State} (h : step s = .next t) : s.Keeps { t with pending := s.pending } := by
  unfold Machine.step at h
  split at h
  · cases h
    have k := State.Keeps.tick (s := s) .refl
    exact ⟨rfl, fun g => by simpa using k.half g⟩
  · rename_i c rest _
    rcases exec_answers c { s with pending := rest } with ha | ⟨g, rfl, hr⟩
    · rw [h] at ha
      cases ha with
      | next hk => exact ⟨rfl, fun g => by simpa using hk.half g⟩
    · rw [hr] at h
      cases h

/-- Settles O2: the effect of each command, cited by its name. -/
theorem onlyPrivateTapIsRefused : Obligations.OnlyPrivateTapIsRefused := by
  unfold Obligations.OnlyPrivateTapIsRefused
  intro c s
  rcases exec_answers c s with ha | hr
  · generalize exec c s = o at ha
    cases ha with
    | next hk => exact .inl ⟨_, rfl, hk.pending⟩
  · exact .inr hr

/-- Settles O3: each half of the state after the step keeps its canonical form. -/
theorem stepKeepsMemoryCanonical : Obligations.StepKeepsMemoryCanonical := by
  unfold Obligations.StepKeepsMemoryCanonical
  intro s t hs h
  have k := State.Keeps.step h
  simp only [State.canonical, Bool.and_eq_true] at hs ⊢
  exact ⟨(k.half .a).canonical hs.1, (k.half .b).canonical hs.2⟩

/-- Settles O4: each half of the state after the step keeps its name and the number of its parts. -/
theorem stepKeepsShape : Obligations.StepKeepsShape := by
  unfold Obligations.StepKeepsShape
  intro s t h
  have k := State.Keeps.step h
  simp only [State.named, State.shaped, Bool.and_eq_true, decide_eq_true_eq]
  exact ⟨fun hn => ⟨(k.half .a).me.trans hn.1, (k.half .b).me.trans hn.2⟩,
    fun hs => ⟨(k.half .a).shaped hs.1, (k.half .b).shaped hs.2⟩⟩

end Sys2Proof.Machine
end

section
/-! PROOFS. The step, mailbox slots and messages (spec/02_captain_and_mailboxes.md). -/

namespace Sys2Proof.Machine
open Sys2Proof.Laws.Memory

/-! ### The step -/

/-- Settles O1: the step looks at the front command only. -/
theorem stepRunsFrontCommand : Obligations.StepRunsFrontCommand := by
  unfold Obligations.StepRunsFrontCommand
  intro c rest s hs
  simp only [step, hs]

/-- The same branches under conditions that say the same. -/
theorem ite_congr_iff {α : Type} {p q : Prop} [Decidable p] [Decidable q] {x y u v : α} (h : p ↔ q) (hx : x = u) (hy : y = v) :
    (if p then x else y) = if q then u else v := by
  simp only [h, hx, hy]

/-! ### Updates of the state and of a slot -/

/-- An update of a half is what it makes of the half that stands there. -/
theorem State.mod_congr {s : State} {h : HalfId} {f g : Half → Half} (e : f (s.half h) = g (s.half h)) : s.mod h f = s.mod h g := by
  simp [State.mod, e]

theorem Half.modSlot_const (x : Half) (k : Nat) (f : Slot → Slot) : x.modSlot k f = x.modSlot k (fun _ => f (x.slot k)) := by
  have : x.mbx.slots.modify k f = x.mbx.slots.modify k (fun _ => f (x.slot k)) := by
    apply List.ext_getElem (by simp)
    intro i hi _
    simp only [List.getElem_modify]
    split
    · next e => subst e; simp [Half.slot, List.getElem?_eq_getElem (by simpa using hi : k < x.mbx.slots.length)]
    · rfl
  simp [Half.modSlot, this]

theorem Half.modSlot_id (x : Half) (k : Nat) (f : Slot → Slot) (hf : f (x.slot k) = x.slot k) : x.modSlot k f = x := by
  have : x.mbx.slots.modify k f = x.mbx.slots := by
    apply List.ext_getElem (by simp)
    intro i hi hi'
    simp only [List.getElem_modify]
    split
    · next e => subst e; simpa [Half.slot, List.getElem?_eq_getElem hi'] using hf
    · rfl
  simp [Half.modSlot, this]

/-- An update of a slot is what it makes of the slot that stands there. -/
theorem Half.modSlot_eq {x : Half} {k : Nat} {f : Slot → Slot} {j : Slot} (e : f (x.slot k) = j) :
    x.modSlot k f = x.modSlot k (fun _ => j) := by
  rw [Half.modSlot_const, e]

/-! ### Stores of MBX_OWNER -/

/-- Settles O6, by the state of the slot. -/
theorem ownerStoresFollowSlotTable : Obligations.OwnerStoresFollowSlotTable := by
  unfold Obligations.OwnerStoresFollowSlotTable
  intro h ag slot client s x k put vio ha ht
  have claim : exec (.mbxOwnerClaim h ag slot client) s =
      .next (s.mod h (fun y => if reaches ag slot then y.ownerStore ag slot true client else y.slotRefused ag slot 0x80)) := by
    simp only [exec_mbxOwnerClaim, execMbxOwnerClaim]
    exact congrArg _ (State.mod_congr (by simp [show (s.half h).alive = true from ha, show (s.half h).toolIgnored ag = false from ht]))
  have release : exec (.mbxOwnerRelease h ag slot) s =
      .next (s.mod h (fun y => if reaches ag slot then y.ownerStore ag slot false 0 else y.slotRefused ag slot 0x80)) := by
    simp only [exec_mbxOwnerRelease, execMbxOwnerRelease]
    exact congrArg _ (State.mod_congr (by simp [show (s.half h).alive = true from ha, show (s.half h).toolIgnored ag = false from ht]))
  refine ⟨fun hr => ⟨fun hk => ?_, fun hk => ?_, fun hk => ?_, fun hk hk' => ?_⟩, fun hr => ⟨fun hag => ?_, ?_⟩⟩
  · rw [claim]
    exact congrArg _ (State.mod_congr ((if_pos hr).trans (Half.modSlot_eq ((if_pos rfl).trans (if_pos hk)))))
  · rw [claim]
    exact congrArg _ (State.mod_id _ _ _ ((if_pos hr).trans (Half.modSlot_id _ _ _ ((if_pos rfl).trans (if_neg hk)))))
  · rw [release]
    exact congrArg _ (State.mod_congr ((if_pos hr).trans (Half.modSlot_eq ((if_neg (by simp)).trans (if_pos (by simpa using hk))))))
  · rw [release]
    have hno : ¬ ((k.st = .owned || k.st = .done) = true) := by simp [hk, hk']
    exact congrArg _ (State.mod_id _ _ _ ((if_pos hr).trans (Half.modSlot_id _ _ _ ((if_neg (by simp)).trans (if_neg hno)))))
  · rw [claim, release, hr]
    cases ag with
    | tool a => exact absurd rfl (hag a)
    | core => exact ⟨rfl, rfl⟩
    | pair => exact ⟨rfl, rfl⟩
  · rintro a rfl
    rw [claim, release, hr]
    exact ⟨congrArg _ (State.mod_id _ _ _ rfl), congrArg _ (State.mod_id _ _ _ rfl)⟩

/-! ### Writes of MBX_IN -/

/-- The word of the message that a write to MBX_IN leaves. -/
def putWord (m : Msg) (o w v : Nat) : Msg :=
  (m &&& ~~~(BitVec.ofNat 512 (2 ^ w - 1) <<< o)) ||| (BitVec.ofNat 512 (v % 2 ^ w) <<< o)

theorem putWord_getLsbD (m : Msg) (o w v i : Nat) (hi : i < 512) :
    (putWord m o w v).getLsbD i = if o ≤ i ∧ i < o + w then v.testBit (i - o) else m.getLsbD i := by
  have h2 : i - o < 512 := by omega
  simp only [putWord, BitVec.getLsbD_or, BitVec.getLsbD_and, BitVec.getLsbD_not, BitVec.getLsbD_shiftLeft, BitVec.getLsbD_ofNat,
    Nat.testBit_two_pow_sub_one, Nat.testBit_mod_two_pow, hi, h2]
  by_cases h : o ≤ i
  · by_cases h' : i - o < w
    · simp [h, h', show i < o + w by omega, Nat.not_lt.2 h]
    · simp [h, h', show ¬ i < o + w by omega]
  · simp [h, Nat.lt_of_not_le h]

theorem fld_eq_of_getLsbD {n m : Nat} {a : BitVec n} {b : BitVec m} {o p w : Nat}
    (h : ∀ i < w, a.getLsbD (o + i) = b.getLsbD (p + i)) : fld a o w = fld b p w := by
  refine congrArg BitVec.toNat (BitVec.eq_of_getLsbD_eq fun i hi => ?_)
  simp [hi, h i hi]

theorem fld_putWord_inside (m : Msg) (v : BitVec 64) {n word i : Nat} (hn : n = 8 ∨ n = 4) (hw : word < 64 / n) (hi : i < n) :
    fld (putWord m (8 * (word * n)) (8 * n) v.toNat) (8 * (n * word + i)) 8 = fld v (8 * i) 8 := by
  refine fld_eq_of_getLsbD fun j hj => ?_
  have hle : n * word + n ≤ 64 := by rcases hn with rfl | rfl <;> omega
  rw [putWord_getLsbD _ _ _ _ _ (by omega), Nat.mul_comm word n, if_pos (by omega), show 8 * (n * word + i) + j - 8 * (n * word) =
    8 * i + j by omega]
  rfl

theorem fld_putWord_outside (m : Msg) (v : BitVec 64) {n word i : Nat} (hn : n = 8 ∨ n = 4) (hi : i < 64) (hw : i / n ≠ word) :
    fld (putWord m (8 * (word * n)) (8 * n) v.toNat) (8 * i) 8 = fld m (8 * i) 8 := by
  refine fld_eq_of_getLsbD fun j hj => ?_
  rw [putWord_getLsbD _ _ _ _ _ (by omega), if_neg]
  rcases hn with rfl | rfl <;> omega

/-- Settles O7, by the state of the slot. -/
theorem inboundWriteOnlyWhenOwnedOrDone : Obligations.InboundWriteOnlyWhenOwnedOrDone := by
  unfold Obligations.InboundWriteOnlyWhenOwnedOrDone
  intro h ag slot word wide v s x k n run ha ht hw
  have hn : n = 8 ∨ n = 4 := by cases wide <;> simp [n]
  have hsz : (word + 1) * n ≤ 64 := by rcases hn with e | e <;> rw [e] at hw ⊢ <;> omega
  have hrun : run = .next (s.mod h (fun y =>
      if reaches ag slot then y.inStore slot (word * n) n v.toNat else y.slotRefused ag slot (word * n))) := by
    simp only [run, exec_mbxInWrite, execMbxInWrite]
    refine congrArg _ (State.mod_congr ?_)
    simp only [show (s.half h).alive = true from ha, show (s.half h).toolIgnored ag = false from ht,
      show decide (64 < (word + 1) * n) = false by simpa using hsz, n]
    rfl
  refine ⟨fun hr => ⟨fun hk => ⟨putWord k.inb (8 * (word * n)) (8 * n) v.toNat, ?_, fun i hi => fld_putWord_inside _ _ hn hw hi,
    fun i hi hne => fld_putWord_outside _ _ hn hi hne⟩, fun hk hk' => ?_⟩, fun hr => ⟨fun hag => ?_, ?_⟩⟩
  · rw [hrun]
    refine congrArg _ (State.mod_congr ?_)
    exact (if_pos hr).trans (Half.modSlot_eq (if_pos (by simpa using hk)))
  · rw [hrun]
    have hno : ¬ ((k.st = .owned || k.st = .done) = true) := by simp [hk, hk']
    exact congrArg _ (State.mod_id _ _ _ ((if_pos hr).trans (Half.modSlot_id _ _ _ (if_neg hno))))
  · rw [hrun, hr]
    cases ag with
    | tool a => exact absurd rfl (hag a)
    | core => rfl
    | pair => rfl
  · rintro a rfl
    rw [hrun, hr]
    exact congrArg _ (State.mod_id _ _ _ rfl)

/-! ### MESSAGE_ACKNOWLEDGE -/

@[simp] theorem Half.mbxIrq_posted (x : Half) (n m c : Nat) : (x.mbxIrq n m c).mbx.posted = x.mbx.posted := by
  unfold Half.mbxIrq; dsimp only; (repeat' split) <;> simp

@[simp] theorem Half.mbxIrq_acked (x : Half) (n m c : Nat) : (x.mbxIrq n m c).mbx.acked = x.mbx.acked := by
  unfold Half.mbxIrq; dsimp only; (repeat' split) <;> simp

/-- The half after the Captain has taken the message of slot `k`, the first of those posted, of which `rest` remain. -/
def Half.takesMsg (x : Half) (k : Nat) (rest : List Nat) : Half :=
  ({ x with mbx := { x.mbx with posted := rest, acked := x.mbx.acked ++ [k] } } : Half).modSlot k (fun j => { j with st := .acked })

theorem Half.takesMsg_same (x : Half) {k : Nat} (rest : List Nat) (hk : k < x.mbx.slots.length) :
    (x.takesMsg k rest).slot k = { x.slot k with st := .acked } :=
  Half.modSlot_same _ _ _ hk

theorem Half.takesMsg_ne (x : Half) {k j : Nat} (rest : List Nat) (hj : j ≠ k) : (x.takesMsg k rest).slot j = x.slot j :=
  Half.modSlot_ne _ _ _ _ hj

theorem Half.acknowledge_listed {x : Half} {k : Nat} {rest : List Nat} (hc : x.captainRuns = true) (hp : x.mbx.posted = k :: rest)
    (ho : msgOp (x.msg k) ∈ opcodes) :
    x.acknowledge = if msgIrqAck (x.msg k) then (x.takesMsg k rest).mbxIrq k (x.slot k).core (x.slot k).ownerClient.toNat
      else x.takesMsg k rest := by
  simp only [Half.acknowledge, hp, hc, Bool.not_true, Bool.false_eq_true, if_false]
  exact if_pos ho

/-- Settles O8: the front of the doorbell order is taken, and only its slot and the interrupt register change. -/
theorem captainTakesOldestMessage : Obligations.CaptainTakesOldestMessage := by
  unfold Obligations.CaptainTakesOldestMessage
  intro h k rest s hc hp hk ho
  refine ⟨s.mod h Half.acknowledge, rfl, ?_⟩
  simp only [State.mod_same, State.mod_other, Half.acknowledge_listed hc hp ho]
  have same := Half.takesMsg_same (s.half h) rest hk
  have ne : ∀ j, j ≠ k → ((s.half h).takesMsg k rest).slot j = (s.half h).slot j := fun j hj => Half.takesMsg_ne _ rest hj
  by_cases hi : msgIrqAck ((s.half h).msg k) = true
  · simp only [hi, if_true, Half.mbxIrq_slot, Half.mbxIrq_posted, Half.mbxIrq_acked, Half.mbxIrq_irqStatus, Half.mbxIrq_frame, same,
      true_and]
    exact ⟨rfl, rfl, ne, rfl, rfl, rfl, trivial⟩
  · simp only [hi, Bool.false_eq_true, if_false, false_and, same]
    exact ⟨trivial, trivial, rfl, rfl, ne, rfl, rfl, rfl, trivial⟩

/-! ### Messages that complete -/

/-- A message sent in its short form that passes its checks and completes ends with what its execution answers. -/
theorem State.runMsg_done {s t : State} {h : HalfId} {slot op len st : Nat} {f : Form} {chk : Half → Msg → List Chk}
    {act : State → Msg → Reply} {fields : List (Nat × Nat × Nat)} (hs : (s.half h).sends slot op len = true) (hop : op ∈ opcodes)
    (hf : f.lens.contains len = true) (hc : ∀ d ∈ chk (s.half h) ((s.half h).msg slot), d.bad = false)
    (ha : act s ((s.half h).msg slot) = .done t st fields) :
    s.runMsg h slot op f chk act = t.mod h (fun y => y.finish slot st fields) := by
  rw [State.runMsg_short hs hop hf hc, ha]

/-- The same for a message whose execution changes its own half only. -/
theorem State.runMsg_done_mod {s : State} {h : HalfId} {slot op len st : Nat} {f : Form} {chk : Half → Msg → List Chk}
    {act : State → Msg → Reply} {g : Half → Half} {fields : List (Nat × Nat × Nat)}
    (hs : (s.half h).sends slot op len = true) (hop : op ∈ opcodes) (hf : f.lens.contains len = true)
    (hc : ∀ d ∈ chk (s.half h) ((s.half h).msg slot), d.bad = false)
    (ha : act s ((s.half h).msg slot) = .done (s.mod h g) st fields) :
    s.runMsg h slot op f chk act = s.mod h (fun y => (g y).finish slot st fields) := by
  rw [State.runMsg_done hs hop hf hc ha, State.mod_mod]

theorem rsv_pass {m : Msg} {off bit w : Nat} (h : payBits m off bit w = 0) : (rsv m off bit w).bad = false := by
  simp [rsv, h]

/-- No check of an empty list fails. -/
theorem forall_mem_nil_bad : ∀ d ∈ ([] : List Chk), d.bad = false := by simp

theorem Option.any_eq_false_of {α : Type} {o : Option α} {p : α → Bool} (h : ∀ a, o = some a → p a = false) : o.any p = false := by
  cases o with
  | none => rfl
  | some a => exact h a rfl

/-- Settles O11, message by message: the conditions are those under which its checks pass. -/
theorem systemAndClientMessagesComplete : Obligations.SystemAndClientMessagesComplete := by
  unfold Obligations.SystemAndClientMessagesComplete
  intro h slot s
  dsimp only
  refine ⟨fun hs => ?_, fun hs => ?_, fun hs => ?_, fun hs h0 h1 h2 h3 h4 h5 => ?_, fun hs h0 h1 h2 h3 h4 h5 => ?_,
    fun hs h0 h1 h2 p0 p1 p2 p3 p4 p5 p6 p7 p8 h3 h4 => ?_, fun hs h0 h1 h2 h3 h4 h5 => ?_, fun hs h0 k hk => ?_⟩
  · exact congrArg _ (State.runMsg_done hs (by decide) rfl (by simp) rfl)
  · exact congrArg _ (State.runMsg_done hs (by decide) rfl (by simp) rfl)
  · refine congrArg _ (State.runMsg_done hs (by decide) rfl (by simp) ?_)
    cases hm : s.dev.mode <;> simp only [statusFields, modeCode, State.chainCode, State.changing, hm]
  · refine congrArg _ (State.runMsg_done_mod hs (by decide) rfl ?_ rfl)
    simp only [List.forall_mem_cons, decide_eq_false_iff_not]
    exact ⟨by omega, rsv_pass h0, by omega, by omega, by omega, by omega, forall_mem_nil_bad⟩
  · refine congrArg _ (State.runMsg_done_mod hs (by decide) rfl ?_ rfl)
    simp only [List.forall_mem_cons, decide_eq_false_iff_not, Bool.and_eq_false_imp, decide_eq_true_eq, Decidable.not_not]
    exact ⟨h2, h3, rsv_pass h0, rsv_pass h1, fun hc => Option.any_eq_false_of fun k hk => by simpa using h4 hc k hk, by omega,
      forall_mem_nil_bad⟩
  · refine congrArg _ (State.runMsg_done_mod hs (by decide) rfl ?_ rfl)
    simp only [List.forall_mem_cons, Bool.or_eq_false_iff, decide_eq_false_iff_not, Bool.and_eq_false_imp, decide_eq_true_eq,
        Decidable.not_not,
      Nat.not_le, Bool.not_eq_false']
    exact ⟨⟨⟨p0, p1⟩, fun _ => p2⟩, ⟨⟨p3, p4⟩, fun _ => p5⟩, ⟨⟨p6, p7⟩, p8⟩, rsv_pass h0, by simp [h1, h2],
      fun hc => Option.any_eq_false_of fun k hk => by simpa using h3 hc k hk, by omega, forall_mem_nil_bad⟩
  · refine congrArg _ (State.runMsg_done_mod hs (by decide) rfl ?_ rfl)
    obtain ⟨q, hq, hd⟩ := h4
    simp only [List.forall_mem_cons, Bool.or_eq_false_iff, decide_eq_false_iff_not, Decidable.not_not, List.any_eq_false,
        decide_eq_true_eq]
    exact ⟨h2, rsv_pass h0, rsv_pass h1, ⟨by simp [hq], by simp [hq, hd]⟩, h5, h3, forall_mem_nil_bad⟩
  · refine congrArg _ (State.runMsg_done hs (by decide) rfl ?_ ?_)
    · simp only [List.forall_mem_cons, Bool.and_eq_false_imp, decide_eq_false_iff_not, decide_eq_true_eq, Decidable.not_not]
      exact ⟨h0, by simp [hk], forall_mem_nil_bad⟩
    · simp only [hk, Option.getD_some]

/-- Settles O12: each of the three messages passes its checks and completes with its teardown. -/
theorem teardownMessagesComplete : Obligations.TeardownMessagesComplete := by
  unfold Obligations.TeardownMessagesComplete
  intro h slot s
  dsimp only
  refine ⟨fun hs h0 h1 => ?_, fun hs h0 => ?_, fun hs h0 h1 => ?_⟩
  · refine congrArg _ (State.runMsg_done_mod hs (by decide) rfl ?_ rfl)
    simp only [List.forall_mem_cons]
    exact ⟨rsv_pass h0, Option.isNone_eq_false_iff.2 h1, forall_mem_nil_bad⟩
  · exact congrArg _ (State.runMsg_done_mod hs (by decide) rfl (by simpa using h0) rfl)
  · refine congrArg _ (State.runMsg_done_mod hs (by decide) rfl ?_ rfl)
    simp only [List.forall_mem_cons, Bool.or_eq_false_iff, decide_eq_false_iff_not]
    exact ⟨⟨h0, Option.isNone_eq_false_iff.2 h1⟩, forall_mem_nil_bad⟩

end Sys2Proof.Machine
end

section
/-! PROOFS. Teardown, doorbells and fetches (spec/11_scheduling_and_sync.md, spec/02_captain_and_mailboxes.md). -/

namespace Sys2Proof.Machine
open Sys2Proof.Laws.Memory

/-! ### What writing bytes leaves -/

/-- Two halves differ in the bytes of memory at most. -/
def Half.SameButCells (x y : Half) : Prop := y = { x with mem := { x.mem with cells := y.mem.cells } }

theorem Half.SameButCells.refl (x : Half) : x.SameButCells x := rfl

theorem Half.SameButCells.trans {x y z : Half} (h : x.SameButCells y) (k : y.SameButCells z) : x.SameButCells z := by
  unfold Half.SameButCells at *
  rw [k, h]

theorem Half.sameButCells_vput (x : Half) (ctx va : Nat) (b : Byte) : x.SameButCells (x.vput ctx va b) := by
  unfold Half.vput
  split
  · split
    · exact rfl
    · exact .refl x
  · exact .refl x

theorem Half.sameButCells_vputs (x : Half) (ctx : Nat) (l : List (Nat × Byte)) : x.SameButCells (x.vputs ctx l) := by
  induction l generalizing x with
  | nil => exact .refl x
  | cons p l ih => exact (x.sameButCells_vput ctx p.1 p.2).trans (ih _)

theorem Half.vwrite_eq_vputs (x : Half) (ctx va : Nat) (bs : List Byte) :
    x.vwrite ctx va bs = x.vputs ctx ((List.range bs.length).map (fun i => (va + i, bs[i]?.getD 0))) := by
  simp [Half.vwrite, Half.vputs, List.foldl_map]

theorem Half.sameButCells_vwrite (x : Half) (ctx va : Nat) (bs : List Byte) : x.SameButCells (x.vwrite ctx va bs) := by
  rw [Half.vwrite_eq_vputs]
  exact x.sameButCells_vputs ctx _

theorem Half.SameButCells.sched {x y : Half} (h : x.SameButCells y) : y.sched = x.sched := by rw [h]
theorem Half.SameButCells.tpt {x y : Half} (h : x.SameButCells y) : y.mem.tpt = x.mem.tpt := by rw [h]

@[simp] theorem Half.vwrite_sched (x : Half) (ctx va : Nat) (bs : List Byte) : (x.vwrite ctx va bs).sched = x.sched :=
  (x.sameButCells_vwrite ctx va bs).sched
@[simp] theorem Half.vwrite_mem_tpt (x : Half) (ctx va : Nat) (bs : List Byte) : (x.vwrite ctx va bs).mem.tpt = x.mem.tpt :=
  (x.sameButCells_vwrite ctx va bs).tpt

/-! ### What the end of a command leaves of contexts, pages, queues and engines -/

/-- The contexts, the page table, the queues with their contexts, the engines and the pending retirement. -/
def Half.tables (x : Half) : List Ctx × List Tpt × List (Nat × Nat) × List Engine × Option Nat :=
  (x.sched.ctxs, x.mem.tpt, x.sched.queues.map (fun q => (q.id, q.ctx)), x.sched.engines, x.sched.retiring)

/-- The numbers of the commands in flight, with their contexts, engines and states. -/
def Half.flight (x : Half) : List (Nat × Nat × Option Nat × CmdState) := x.sched.cmds.map (fun c => (c.id, c.ctx, c.engine, c.st))

/-- Keys that an update of some members does not touch are as before. -/
theorem map_map_ite {α β : Type} (l : List α) (p : α → Prop) [DecidablePred p] (f : α → α) (g : α → β) (hf : ∀ a, g (f a) = g a) :
    (l.map (fun a => if p a then f a else a)).map g = l.map g := by
  rw [List.map_map]
  refine List.map_congr_left fun a _ => ?_
  by_cases h : p a <;> simp [h, hf]

@[simp] theorem Half.queueIrq_frame (x : Half) (cl : Nat) : (x.queueIrq cl).sched = x.sched ∧ (x.queueIrq cl).mem = x.mem := by
  simp [Half.queueIrq]

theorem Half.putRecord_tables (x : Half) (q : Queue) (client tag ringIdx inst status det0 det1 : Nat) :
    (x.putRecord q client tag ringIdx inst status det0 det1).tables = x.tables ∧
    (x.putRecord q client tag ringIdx inst status det0 det1).flight = x.flight := by
  simp only [Half.putRecord, Half.tables, Half.flight, Half.modQueue, Half.modClient, Half.vwrite_sched, Half.vwrite_mem_tpt,
    Prod.mk.injEq, true_and, and_true]
  exact map_map_ite _ (fun k : Queue => k.id = q.id) (fun k => { k with written := k.written + 1 }) _ (fun _ => rfl)

theorem Half.beginDecodes_tables (x : Half) : x.beginDecodes.tables = x.tables ∧ x.beginDecodes.flight = x.flight := by
  unfold Half.beginDecodes
  generalize x.sched.pipe.hwQueue.filter _ = l
  induction l generalizing x with
  | nil => exact ⟨rfl, rfl⟩
  | cons p l ih => exact ih _

theorem Half.dropCmd_tables (x : Half) (n : Nat) :
    (x.dropCmd n).tables = x.tables ∧ (x.dropCmd n).flight = x.flight.filter (fun p => p.1 ≠ n) := by
  have key : ∀ y : Half, y.tables = x.tables → y.flight = x.flight.filter (fun p => p.1 ≠ n) →
      ∀ b, (if b = true then y.beginDecodes else y).tables = x.tables ∧
        (if b = true then y.beginDecodes else y).flight = x.flight.filter (fun p => p.1 ≠ n) := by
    intro y h k b
    split
    · rw [y.beginDecodes_tables.1, y.beginDecodes_tables.2]
      exact ⟨h, k⟩
    · exact ⟨h, k⟩
  unfold Half.dropCmd
  refine key _ ?_ ?_ _
  · rfl
  · simp only [Half.flight, List.map_map, List.filter_map]
    rfl

theorem Half.record_tables (x : Half) (c : Cmd) (status det0 det1 : Nat) :
    (x.record c status det0 det1).tables = x.tables ∧
    (x.record c status det0 det1).flight = x.flight.filter (fun p => p.1 ≠ c.id) := by
  unfold Half.record
  have hirq : ∀ y : Half, ∀ b, (if b = true then y.queueIrq c.client else y).tables = y.tables ∧
      (if b = true then y.queueIrq c.client else y).flight = y.flight := by
    intro y b
    split <;> simp [Half.tables, Half.flight]
  have hhold : ∀ y : Half, ∀ p : Prop, [Decidable p] → (if p then y.holdCmd c det1 else y).tables = y.tables ∧
      (if p then y.holdCmd c det1 else y).flight = y.flight := by
    intro y p _
    split <;> exact ⟨rfl, rfl⟩
  have hput : ∀ o : Option Queue, (match o with
      | some q => x.putRecord q c.client (dTag c.desc) c.ringIdx c.inst status det0 det1
      | none => x).tables = x.tables ∧ (match o with
      | some q => x.putRecord q c.client (dTag c.desc) c.ringIdx c.inst status det0 det1
      | none => x).flight = x.flight := by
    rintro (_ | q)
    · exact ⟨rfl, rfl⟩
    · exact x.putRecord_tables ..
  dsimp only
  rw [(hirq _ _).1, (hirq _ _).2, (hhold _ _).1, (hhold _ _).2, (Half.dropCmd_tables _ _).1, (Half.dropCmd_tables _ _).2]
  exact ⟨(hput _).1, congrArg (List.filter _) (hput _).2⟩

theorem Half.abandon_tables (x : Half) (c : Cmd) : (x.abandon c).tables = x.tables ∧ (x.abandon c).flight = x.flight := by
  unfold Half.abandon
  split <;> exact ⟨rfl, rfl⟩

theorem Half.wasted_tables (x : Half) (c : Cmd) (n : Nat) : (x.wasted c n).tables = x.tables ∧ (x.wasted c n).flight = x.flight := by
  unfold Half.wasted
  split <;> exact ⟨rfl, rfl⟩

theorem Half.cmd_id {x : Half} {n : Nat} {c : Cmd} (h : x.cmd n = some c) : c.id = n := by
  simpa using List.find?_some h

theorem Half.endCmd_tables (x : Half) (n status det1 : Nat) :
    (x.endCmd n status det1).tables = x.tables ∧ (x.endCmd n status det1).flight = x.flight.filter (fun p => p.1 ≠ n) := by
  unfold Half.endCmd
  cases hc : x.cmd n with
  | none =>
    refine ⟨rfl, (List.filter_eq_self.2 fun p hp => ?_).symm⟩
    obtain ⟨d, hd, rfl⟩ := List.mem_map.1 hp
    simpa using List.find?_eq_none.1 hc d hd
  | some c =>
    rw [← Half.cmd_id hc]
    dsimp only
    split
    · exact Half.record_tables ..
    · rw [(Half.record_tables ..).1, (Half.record_tables ..).2, (Half.wasted_tables ..).1, (Half.wasted_tables ..).2,
        (Half.abandon_tables ..).1, (Half.abandon_tables ..).2]
      exact ⟨rfl, rfl⟩

theorem Half.endCmds_tables (x : Half) (ns : List Nat) (status : Nat) :
    (x.endCmds ns status).tables = x.tables ∧ (x.endCmds ns status).flight = x.flight.filter (fun p => p.1 ∉ ns) := by
  unfold Half.endCmds
  induction ns generalizing x with
  | nil => exact ⟨rfl, (List.filter_eq_self.2 (by simp)).symm⟩
  | cons n ns ih =>
    rw [List.foldl_cons, (ih _).1, (ih _).2, (Half.endCmd_tables ..).1, (Half.endCmd_tables ..).2, List.filter_filter]
    exact ⟨rfl, List.filter_congr fun p _ => by simp [Bool.and_comm]⟩

/-! ### Teardown -/

/-- What detaching the software decode service leaves: all but the pipeline. -/
theorem Half.detachSw_frame (x : Half) :
    x.detachSw = { x with sched := { x.sched with pipe := { x.detachSw.sched.pipe with bindings := x.sched.pipe.bindings } } } := by
  simp only [Half.detachSw, Half.defectSw]
  split <;> rfl

/-- What the release of a context takes from the half, and that it leaves commands, contexts, queues and pages. -/
theorem Half.releaseCtx_gone (x : Half) (c : Nat) :
    let y := x.releaseCtx c
    (∀ f, y.sched.fusion = some f → f.ctx ≠ c) ∧ (∀ p, y.sched.plan = some p → p.ctx ≠ c) ∧ (∀ p ∈ y.sched.pools, p.ctx ≠ c) ∧
    (∀ b ∈ y.sched.pipe.bindings, b.ctx ≠ c) ∧ (∀ w ∈ y.mem.windows, w.ctx ≠ c) ∧ (∀ i ∈ y.mem.inbound, i.ctx ≠ c) ∧
    (∀ k ∈ y.mem.huddles, k.ctx ≠ c) ∧ (∀ e ∈ y.sched.hot.entries, e.ctx ≠ c) ∧ (∀ r ∈ y.sched.residents, r.ctx ≠ c) := by
  simp only [Half.releaseCtx]
  refine ⟨fun f hf => ?_, fun p hp => ?_, ?_⟩
  · simpa using (Option.filter_eq_some_iff.1 hf).2
  · simpa using (Option.filter_eq_some_iff.1 hp).2
  · and_intros <;> intro a ha <;> simpa using (List.mem_filter.1 ha).2

theorem Half.releaseCtx_tables (x : Half) (c : Nat) : (x.releaseCtx c).tables = x.tables ∧ (x.releaseCtx c).flight = x.flight := by
  have h : ∀ b : Bool, (if b = true then x.detachSw else x).tables = x.tables ∧
      (if b = true then x.detachSw else x).flight = x.flight := by
    intro b
    split
    · rw [Half.detachSw_frame]
      exact ⟨rfl, rfl⟩
    · exact ⟨rfl, rfl⟩
  exact h _

/-- The half of a teardown before its queues and context go: its commands are ended and what it owns is released. -/
def Half.stripped (x : Half) (c : Nat) : Half :=
  let y : Half := { x with cores := { x.cores with app := x.cores.app.map (fun (k : AppCore) =>
    if k.nvctx.toNat = c then { k with nvctxValid := false } else k) } }
  let y := y.endCmds (y.cmdsOf c) stDiscarded
  if y.sched.queues.any (fun q => q.ctx = c) then y.queueIrq (x.ctxClient c) else y

theorem Half.stripped_tables (x : Half) (c : Nat) :
    (x.stripped c).tables = x.tables ∧ ∀ p ∈ (x.stripped c).flight, p.2.1 ≠ c := by
  have hirq : ∀ y : Half, ∀ b : Bool, (if b = true then y.queueIrq (x.ctxClient c) else y).tables = y.tables ∧
      (if b = true then y.queueIrq (x.ctxClient c) else y).flight = y.flight := by
    intro y b
    split <;> simp [Half.tables, Half.flight]
  unfold Half.stripped
  dsimp only
  rw [(hirq _ _).1, (hirq _ _).2, (Half.endCmds_tables ..).1, (Half.endCmds_tables ..).2]
  refine ⟨rfl, fun p hp => ?_⟩
  obtain ⟨hp, hn⟩ := List.mem_filter.1 hp
  obtain ⟨d, hd, rfl⟩ := List.mem_map.1 hp
  intro hc
  have : d.id ∈ x.cmdsOf c := List.mem_map.2 ⟨d, List.mem_filter.2 ⟨hd, by simpa using hc⟩, rfl⟩
  simp only [decide_eq_true_eq] at hn
  exact hn this

theorem Half.teardown_eq (x : Half) (c : Nat) :
    x.teardown c =
      let y := ((x.stripped c).releaseCtx c).removeTpt (fun t => t.ctx = c)
      { y with sched := { y.sched with queues := y.sched.queues.filter (fun q => q.ctx ≠ c)
                                       ctxs := y.sched.ctxs.filter (fun k => k.id ≠ c) } } := rfl

/-- Settles O13: the ended commands are those of the context, its release removes what it owned, and neither touches the tables of the
other contexts. -/
theorem teardownRemovesWhatContextOwns : Obligations.TeardownRemovesWhatContextOwns := by
  unfold Obligations.TeardownRemovesWhatContextOwns
  intro x c
  rw [Half.teardown_eq]
  obtain ⟨hst, hfl⟩ := x.stripped_tables c
  obtain ⟨hre, hrf⟩ := (x.stripped c).releaseCtx_tables c
  obtain ⟨g1, g2, g3, g4, g5, g6, g7, g8, g9⟩ := (x.stripped c).releaseCtx_gone c
  rw [hst] at hre
  generalize (x.stripped c).releaseCtx c = y at *
  simp only [Half.tables, Prod.mk.injEq] at hre
  obtain ⟨hctxs, htpt, hqueues, -⟩ := hre
  simp only [Half.removeTpt]
  refine ⟨?_, ?_, ?_, ?_, g1, g2, g3, g4, g5, g6, g7, g8, g9, fun d hd => ⟨?_, ?_, ?_⟩⟩
  · simp [Half.ctx]
  · simp
  · simp
  · intro k hk
    exact hfl (k.id, k.ctx, k.engine, k.st) (hrf ▸ List.mem_map.2 ⟨k, hk, rfl⟩)
  · simp only [Half.ctx, hctxs, List.find?_filter]
    refine congrArg (fun p => List.find? p _) (funext fun k => ?_)
    by_cases h : k.id = d <;> simp [h, hd]
  · rw [← htpt, List.filter_filter]
    exact List.filter_congr fun t _ => by by_cases h : t.ctx = d <;> simp [h, hd]
  · rw [List.filter_filter, show (fun q : Queue => decide (q.ctx = d) && decide (q.ctx ≠ c)) = (fun q => decide (q.ctx = d)) from
      funext fun q => by by_cases h : q.ctx = d <;> simp [h, hd]]
    have := congrArg (fun l : List (Nat × Nat) => (l.filter (fun p => p.2 = d)).map (·.1)) hqueues
    simpa [List.filter_map, Function.comp_def] using this

/-- What holds of both branches of a choice holds of the choice. -/
theorem ite_both {α : Type} {P : α → Prop} {c : Prop} [Decidable c] {a b : α} (ha : P a) (hb : P b) : P (if c then a else b) := by
  split
  · exact ha
  · exact hb

/-- An update of the members with a property leaves the others, where it keeps the property. -/
theorem filter_map_ite {α : Type} (l : List α) (p : α → Prop) [DecidablePred p] (f : α → α) (hf : ∀ a, p a → p (f a)) :
    (l.map (fun a => if p a then f a else a)).filter (fun a => ¬ p a) = l.filter (fun a => ¬ p a) := by
  induction l with
  | nil => rfl
  | cons a l ih =>
    by_cases h : p a
    · simpa [h, hf a h] using ih
    · simpa [h] using ih

/-! ### What the logs leave -/

@[simp] theorem Half.announce_frame (x : Half) (n : Nat) :
    (x.announce n).sched = x.sched ∧ (x.announce n).mem = x.mem ∧ (x.announce n).ptn = x.ptn ∧ (x.announce n).mbx = x.mbx ∧
    (x.announce n).links = x.links ∧ (x.announce n).ump = x.ump ∧ (x.announce n).umpx = x.umpx ∧ (x.announce n).pow = x.pow ∧
    (x.announce n).powx = x.powx ∧ (x.announce n).cfg = x.cfg ∧ (x.announce n).sec = x.sec ∧ (x.announce n).tim = x.tim ∧
    (x.announce n).timx = x.timx ∧ (x.announce n).qos = x.qos ∧ (x.announce n).me = x.me ∧ (x.announce n).free = x.free ∧
    (x.announce n).svc = x.svc ∧ (x.announce n).cfgb = x.cfgb ∧ (x.announce n).frame = x.frame ∧
    (x.announce n).frames = x.frames ∧ (x.announce n).captainBad = x.captainBad ∧ (x.announce n).tests = x.tests ∧
    (x.announce n).ident = x.ident := by
  simp [Half.announce]

@[simp] theorem Half.vioLog_frame (x : Half) (src : VSrc) (cls code ans detail addr : Nat) :
    (x.vioLog src cls code ans detail addr).sched = x.sched ∧ (x.vioLog src cls code ans detail addr).mem = x.mem := by
  unfold Half.vioLog
  refine ite_both (P := fun z : Half => z.sched = x.sched ∧ z.mem = x.mem) ⟨rfl, rfl⟩ ?_
  simp [Half.vioNew]

/-- A violation of a core or pair is logged and changes nothing else of memory and scheduler. -/
theorem Half.ctrlVio_frame (x : Half) {ag : Agent} (h : ∀ a, ag ≠ .tool a) (code off : Nat) :
    (x.ctrlVio ag code off).sched = x.sched ∧ (x.ctrlVio ag code off).mem = x.mem := by
  cases ag with
  | tool a => exact absurd rfl (h a)
  | core n c => exact x.vioLog_frame ..
  | pair n => exact x.vioLog_frame ..

@[simp] theorem Half.memErr_frame (x : Half) (kind wh loc : Nat) (owner : Option (Nat × Nat)) :
    (x.memErr kind wh loc owner).sched = x.sched ∧ (x.memErr kind wh loc owner).mem.cells = x.mem.cells ∧
    (x.memErr kind wh loc owner).mem.tpt = x.mem.tpt ∧ (x.memErr kind wh loc owner).mem.retired = x.mem.retired ∧
    (x.memErr kind wh loc owner).mem.moves = x.mem.moves ∧ (x.memErr kind wh loc owner).mbx = x.mbx ∧
    (x.memErr kind wh loc owner).mem.logSeq = x.mem.logSeq + 1 := by
  simp [Half.memErr]

/-! ### Doorbells and fetches -/

/-- A read of CPL_HEAD changes the head that one queue holds, or logs. -/
theorem Half.readCplHead_frame (x : Half) (q : Queue) :
    (x.readCplHead q).mem.cells = x.mem.cells ∧ (x.readCplHead q).sched.cmds = x.sched.cmds ∧
    ∃ hd : Queue → BitVec 32, (x.readCplHead q).sched.queues =
      x.sched.queues.map (fun k => if k.id = q.id then { k with cplHead := hd k } else k) := by
  unfold Half.readCplHead
  split
  · refine ⟨by simp, by simp, fun k => k.cplHead, ?_⟩
    simp
  · exact ⟨rfl, rfl, fun _ => BitVec.ofNat 32 (x.vnat q.ctx (q.header + 8) 4), rfl⟩

/-- What the advance of a queue's tail leaves in the queues. -/
theorem Half.advanceTail_queues (x : Half) (q : Queue) (tail : BitVec 32) :
    let y := (x.modQueue q.id (fun k => { k with tail := tail })).readCplHead { q with tail := tail }
    (∀ k ∈ y.sched.queues, k.id = q.id → k.tail = tail) ∧
    y.sched.queues.filter (fun k => k.id ≠ q.id) = x.sched.queues.filter (fun k => k.id ≠ q.id) ∧
    y.mem.cells = x.mem.cells ∧ y.sched.cmds = x.sched.cmds := by
  obtain ⟨hmem, hcmds, hd, hq⟩ := (x.modQueue q.id (fun k => { k with tail := tail })).readCplHead_frame { q with tail := tail }
  refine ⟨?_, ?_, hmem, hcmds⟩
  · rw [hq]
    simp only [Half.modQueue, List.map_map, List.mem_map, Function.comp_apply]
    rintro _ ⟨k, _, rfl⟩
    by_cases h : k.id = q.id <;> simp [h]
  · rw [hq]
    exact (filter_map_ite _ (fun k : Queue => k.id = q.id) (fun k => { k with cplHead := hd k }) (fun _ h => h)).trans
      (filter_map_ite _ (fun k : Queue => k.id = q.id) (fun k => { k with tail := tail }) (fun _ h => h))

/-- The half whose client was last served on the core of an agent. -/
def Half.sawCore (x : Half) (ag : Agent) (cl : Nat) : Half :=
  match ag with
  | .core n _ => x.modClient cl (fun k => { k with lastCore := some n })
  | _ => x

theorem Half.sawCore_frame (x : Half) (ag : Agent) (cl : Nat) :
    (x.sawCore ag cl).sched.queues = x.sched.queues ∧ (x.sawCore ag cl).sched.ctxs = x.sched.ctxs ∧
    (x.sawCore ag cl).sched.cmds = x.sched.cmds ∧ (x.sawCore ag cl).mem = x.mem ∧ (x.sawCore ag cl).ptn = x.ptn := by
  cases ag <;> exact ⟨rfl, rfl, rfl, rfl, rfl⟩

/-- A doorbell store of the client whose page it is, that rings a queue. -/
theorem Half.doorbellStore_rings {x : Half} {ag : Agent} {d : Nat} {v : BitVec 64} {q : Queue} (hd : d < 4096)
    (hcl : x.agentClient ag = some (d / 16))
    (hq : x.sched.queues.find? (fun k => k.doorbell = some d) = some q ∨
      (x.sched.queues.find? (fun k => k.doorbell = some d) = none ∧ x.sched.queues.find? (fun k =>
        k.id = fld v 0 19 && k.doorbell.isNone && x.ctxClient k.ctx = d / 16) = some q)) :
    x.doorbellStore ag d v =
      let y := x.sawCore ag (d / 16)
      let tail : BitVec 32 := v.extractLsb' 32 32
      if (2 ^ q.log2 < (tail - q.cmdHead).toNat ∨ 2 ^ q.log2 < (tail - q.tail).toNat) then y.ctrlVio ag 4 (doorbellOff d)
      else if tail = q.tail then y
      else (y.modQueue q.id (fun k => { k with tail := tail })).readCplHead { q with tail := tail } := by
  have hy : ∀ y : Half, y.sched.queues = x.sched.queues → y.sched.ctxs = x.sched.ctxs →
      (match y.sched.queues.find? (fun q => q.doorbell = some d) with
      | some q => some q
      | none => y.sched.queues.find? (fun q => q.id = fld v 0 19 && q.doorbell.isNone && y.ctxClient q.ctx = d / 16)) = some q := by
    intro y hqs hcs
    have hc : y.ctxClient = x.ctxClient := by
      funext c
      simp [Half.ctxClient, Half.ctx, hcs]
    rw [hqs, hc]
    rcases hq with h | ⟨h, h'⟩ <;> simp [h]
    simpa using h'
  obtain ⟨hqs, hcs, -⟩ := x.sawCore_frame ag (d / 16)
  have htarget := hy _ hqs hcs
  unfold Half.doorbellStore
  rw [if_neg (by omega), if_neg (Decidable.not_not.2 hcl)]
  show (match (match (x.sawCore ag (d / 16)).sched.queues.find? (fun q => q.doorbell = some d) with
      | some q => some q
      | none => (x.sawCore ag (d / 16)).sched.queues.find? (fun q => q.id = fld v 0 19 && q.doorbell.isNone &&
          (x.sawCore ag (d / 16)).ctxClient q.ctx = d / 16)) with
    | none => _
    | some q => _) = _
  rw [htarget]
  simp only [Bool.or_eq_true, decide_eq_true_eq]
  rfl

/-- Settles O14: a store by another client's agent is dropped, and one of the page's client either is, or moves the tail of the queue that
it rings, or does nothing. -/
theorem doorbellAdvancesTail : Obligations.DoorbellAdvancesTail := by
  unfold Obligations.DoorbellAdvancesTail
  intro h ag d v s q
  dsimp only
  intro ha hd
  have run : (∀ a, ag ≠ .tool a) → exec (.doorbellStore h ag d v) s = .next (s.mod h (fun x => x.doorbellStore ag d v)) := by
    intro hag
    refine congrArg _ (State.mod_congr ?_)
    cases ag with
    | tool a => exact absurd rfl (hag a)
    | core n c => simp [ha, isTool]
    | pair n => simp [ha, isTool]
  refine ⟨?_, fun hag hcl => ?_, fun hcl hq => ?_⟩
  · rintro a rfl
    exact congrArg _ (State.mod_id _ _ _ (by simp [isTool]))
  · rw [run hag]
    refine congrArg _ (State.mod_congr ?_)
    exact (if_neg (by omega)).trans (if_pos hcl)
  · have hag : ∀ a, ag ≠ .tool a := by
      rintro a rfl
      simp [Half.agentClient] at hcl
    refine ⟨_, run hag, ?_⟩
    simp only [State.mod_same, State.mod_other, Half.doorbellStore_rings hd hcl hq]
    obtain ⟨hqs, -, hcmds, hmem, hptn⟩ := (s.half h).sawCore_frame ag (d / 16)
    rw [← hqs, ← hcmds, ← hmem, ← hptn]
    generalize (s.half h).sawCore ag (d / 16) = y
    split
    next hlim =>
      obtain ⟨hs, hm⟩ := y.ctrlVio_frame hag 4 (doorbellOff d)
      have hno : ¬ ((v.extractLsb' 32 32 - q.cmdHead).toNat ≤ 2 ^ q.log2 ∧ (v.extractLsb' 32 32 - q.tail).toNat ≤ 2 ^ q.log2) := by omega
      rw [hs, hm]
      exact ⟨fun hf => absurd hf hno, fun hf => absurd hf hno, fun _ => rfl, rfl, rfl, trivial⟩
    next hlim =>
      by_cases htail : v.extractLsb' 32 32 = q.tail
      · rw [if_pos htail]
        exact ⟨fun _ hne => absurd htail hne, fun _ _ => ⟨rfl, rfl⟩, fun _ => rfl, rfl, rfl, trivial⟩
      rw [if_neg htail]
      obtain ⟨htl, hoth, hcl, hcm⟩ := y.advanceTail_queues q (v.extractLsb' 32 32)
      exact ⟨fun _ _ => ⟨htl, hoth⟩, fun _ he => absurd he htail, fun hf => absurd (by omega) hf, hcl, hcm, trivial⟩

theorem Half.readCplHead_alive (x : Half) (q : Queue) :
    (x.readCplHead q).alive = x.alive ∧ (x.readCplHead q).powx = x.powx := by
  unfold Half.readCplHead
  split
  · simp [Half.memErr, Half.alive]
  · exact ⟨rfl, rfl⟩

/-- A fetch from a queue with a descriptor reads CPL_HEAD, and goes on where a completion entry is free. -/
theorem Half.fetch_reads {x : Half} {n : Nat} {q : Queue} (hq : x.queue n = some q) (ha : x.alive = true)
    (hd : x.powx.draining = false) (hne : q.cmdHead ≠ q.tail) :
    x.fetch n =
      let y := x.readCplHead q
      let k := (y.queue n).getD q
      let idx := k.cmdHead.toNat % 2 ^ k.log2
      let va := k.cmdRing + idx * 128
      let cl := y.ctxClient k.ctx
      let z := (y.advanceHead k).modClient cl (fun c => { c with submitted := c.submitted + 1 })
      if k.canFetch = true then
        match z.firstBad k.ctx [(va, 128)] with
        | some bad =>
          let loc := match z.blockAt k.ctx bad with
            | some (st, f, b) => z.dramLoc st f b
            | none => 0
          let w := (z.memErr 0x02 0 loc (some (k.ctx, bad))).putRecord k cl 0 idx 0xFF stDataLost 0 z.mem.logSeq.toNat
          (w.endCmds (w.cmdsOf k.ctx) stDiscarded).settle
        | none =>
          ({ z with sched := { z.sched with
              cmds := z.sched.cmds ++ [{ id := z.sched.nextCmd, queue := k.id, ctx := k.ctx, client := cl
                                         tier := (z.ctx k.ctx).elim 2 (·.tier), ringIdx := idx
                                         desc := BitVec.ofNat 1024 (z.vnat k.ctx va 128) }]
              nextCmd := z.sched.nextCmd + 1 } } : Half).settle
      else y := by
  obtain ⟨ha', hp⟩ := x.readCplHead_alive q
  have hc : (decide (q.cmdHead ≠ q.tail) && x.alive && !x.powx.draining) = true := by simp [hne, ha, hd]
  unfold Half.fetch
  rw [hq]
  dsimp only
  rw [if_pos hc]
  generalize x.readCplHead q = y at ha' hp ⊢
  rw [ha', hp, ha, hd]
  simp only [Bool.not_false, Bool.true_and, Bool.not_eq_true']
  by_cases hk : ((y.queue n).getD q).canFetch = true
  · rw [if_pos hk]
    exact if_neg (by simp [hk])
  · rw [if_neg hk, if_pos (by simpa using hk)]

/-- Settles O15: with nothing in the ring nothing is read, and otherwise CPL_HEAD is read first and decides. -/
theorem fetchTakesNextDescriptor : Obligations.FetchTakesNextDescriptor := by
  unfold Obligations.FetchTakesNextDescriptor
  intro h n s q
  dsimp only
  intro hq ha hdr
  refine ⟨fun he => ?_, fun hne hk hb => ?_, fun hne hk => ?_⟩
  · refine congrArg _ (State.mod_id _ _ _ ?_)
    simp [Half.fetch, hq, he, Queue.canFetch]
  · rw [exec_descriptorFetch, execDescriptorFetch]
    refine congrArg Host.Outcome.next (State.mod_congr ?_)
    rw [Half.fetch_reads hq ha hdr hne]
    generalize (s.half h).readCplHead q = y at hk hb ⊢
    dsimp only
    rw [if_pos hk, hb]
  · rw [exec_descriptorFetch, execDescriptorFetch]
    refine congrArg Host.Outcome.next (State.mod_congr ?_)
    rw [Half.fetch_reads hq ha hdr hne]
    exact if_neg (by simp [hk])

end Sys2Proof.Machine
end

section
/-! PROOFS. Pages and memory integrity (spec/12_memory_system.md). -/

namespace Sys2Proof.Machine
open Sys2Proof.Laws.Memory

/-! ### TPT_MAP, TPT_UNMAP and MAP_OUT -/

/-- A message of an opcode with both forms that passes its checks is executed. -/
theorem State.runMsg_both {s : State} {h : HalfId} {slot op len maxIn : Nat} {f : Form} {chk : Half → Msg → List Chk}
    {act : State → Msg → Reply} (hs : (s.half h).sends slot op len = true ∨ (s.half h).sendsLong slot op maxIn = true)
    (hop : op ∈ opcodes) (hf : f.lens.contains len = true) (hl : f.long = true) (hm : f.maxIn = maxIn)
    (hc : worst (chk (s.half h) ((s.half h).msg slot)) = none) :
    s.runMsg h slot op f chk act =
      match act s ((s.half h).msg slot) with
      | .done t st fields => t.mod h (fun y => y.finish slot st fields)
      | .fail t c => t.mod h (fun y => y.finishBad slot c)
      | .wait t => t.holdMsg h slot := by
  rcases hs with hs | hs
  · exact State.runMsg_short hs hop hf (worst_eq_none.1 hc)
  · exact State.runMsg_long hs hop hl hm (worst_eq_none.1 hc)

theorem Half.sends_acked {x : Half} {slot op len : Nat} (h : x.sends slot op len = true) : (x.slot slot).st = .acked := by
  have := (Half.sends_ready h).1
  simp only [Half.msgReady, Bool.and_eq_true, decide_eq_true_eq] at this
  simp_all

/-- What a message that waits leaves. -/
theorem State.holdMsg_frame (s : State) (h : HalfId) (slot : Nat) :
    ((s.holdMsg h slot).half h).mem = (s.half h).mem ∧ ((s.holdMsg h slot).half h).sched = (s.half h).sched ∧
    ((s.holdMsg h slot).half h).qos = (s.half h).qos ∧ (((s.holdMsg h slot).half h).slot slot).st = ((s.half h).slot slot).st ∧
    (slot < (s.half h).mbx.slots.length → (((s.holdMsg h slot).half h).slot slot).started = true) ∧
    (s.holdMsg h slot).half (other h) = s.half (other h) := by
  simp only [State.holdMsg, State.mod_same, State.mod_other]
  refine ⟨rfl, rfl, rfl, ?_, fun hk => ?_, trivial⟩
  · by_cases hk : slot < (s.half h).mbx.slots.length
    · rw [Half.modSlot_same _ _ _ hk]
    · simp [Half.slot, Half.modSlot, List.getElem?_eq_none (Nat.not_lt.1 hk)]
  · rw [Half.modSlot_same _ _ _ hk]

/-- Settles O16: with checks that pass, each message is executed. -/
theorem pageAndMapOutMessagesComplete : Obligations.PageAndMapOutMessagesComplete := by
  unfold Obligations.PageAndMapOutMessagesComplete
  intro h slot s
  dsimp only
  refine ⟨fun hs hc => ?_, fun hs hc => ?_, fun hs hc => ⟨fun ho => ?_, fun ho hle => ?_⟩⟩
  · rw [exec_tptMap, execTptMap, State.runMsg_both hs (by decide) rfl rfl rfl hc]
    simp only [State.mod, State.setHalf_same, State.setHalf_setHalf]
    rfl
  · rw [exec_tptUnmap, execTptUnmap, State.runMsg_both hs (by decide) rfl rfl rfl hc]
    simp only [State.mod, State.setHalf_same, State.setHalf_setHalf]
    rfl
  · have hle : pay ((s.half h).msg slot) 2 8 ≤ 1 := by
      simpa using worst_eq_none.1 hc { bad := decide (1 < pay ((s.half h).msg slot) 2 8), st := stMalformed, off := 0x12 } (by
        simp [mapOutChecks])
    rw [exec_mapOut, execMapOut, State.runMsg_short hs (by decide) rfl (worst_eq_none.1 hc)]
    dsimp only
    simp only [decide_eq_true_eq] at ho
    rw [if_pos]
    rw [ho, decide_eq_true_eq, ne_eq, eq_iff_iff]
    omega
  · simp only [decide_eq_true_eq] at ho
    have hout : ¬ ((if pay ((s.half h).msg slot) 0 8 = 1 then decide (pay ((s.half h).msg slot) 1 8 ∈ (s.half h).mem.pcsOut)
        else decide (pay ((s.half h).msg slot) 1 8 ∈ (s.half h).mem.slicesOut)) = true) ≠ (pay ((s.half h).msg slot) 2 8 = 1) := by
      rw [ho, decide_eq_true_eq, ne_eq, Decidable.not_not]
    rw [exec_mapOut, execMapOut, State.runMsg_short hs (by decide) rfl (worst_eq_none.1 hc)]
    dsimp only
    rw [if_neg hout]
    refine ⟨_, rfl, ?_⟩
    obtain ⟨hmem, hsched, hqos, hst, hstarted, hother⟩ := State.holdMsg_frame (s.setHalf h (({ s.half h with
      mem := { (s.half h).mem with mapOut := some {
        pc := pay ((s.half h).msg slot) 0 8 = 1, idx := pay ((s.half h).msg slot) 1 8
        restore := pay ((s.half h).msg slot) 2 8 = 1, slot := some slot } } } : Half).cause 5 true)) h slot
    rw [State.setHalf_same] at hmem hsched hqos hst hstarted
    rw [State.setHalf_other] at hother
    exact ⟨hmem, by rw [hqos]; rfl, hst.trans (Half.sends_acked hs), hstarted, hsched, hother⟩

/-! ### NEW pages -/

theorem lowestFree_not_mem {used : List Nat} {lo fuel f : Nat} (h : lowestFree used lo fuel = some f) : f ∉ used := by
  induction fuel generalizing lo with
  | zero => simp [lowestFree] at h
  | succ n ih =>
    unfold lowestFree at h
    split at h
    · exact ih h
    · simp_all

/-- Frames of the two stacks that differ share no address. -/
theorem physAddr_outside {st f g s off : Nat} (hf : f < stackFrames) (hg : g < stackFrames)
    (hne : ¬ (s = st ∧ g = f)) (ho : off < pageBytes) :
    physAddr s g off < physAddr st f 0 ∨ physAddr st f 0 + pageBytes ≤ physAddr s g off := by
  unfold physAddr stackFrames pageBytes at *
  omega

/-- Members that a search looks for are found among those that a filter leaves, where the filter leaves them all. -/
theorem find?_filter_of_imp {α : Type} {p q : α → Bool} (l : List α) (h : ∀ a, p a = true → q a = true) :
    (l.filter q).find? p = l.find? p := by
  rw [List.find?_filter]
  refine congrArg (List.find? · l) (funext fun a => ?_)
  cases hp : p a with
  | false => simp
  | true => simp [h a hp]

theorem Half.tptOf_putTpt_same (x : Half) (t : Tpt) : (x.putTpt t).tptOf t.ctx t.page = some t := by
  simp only [Half.tptOf, Half.putTpt, List.find?_append]
  rw [List.find?_eq_none.2 fun a ha => ?_]
  · simp
  · simpa [Decidable.imp_iff_not_or] using (List.mem_filter.1 ha).2

theorem Half.tptOf_putTpt_ne (x : Half) (t : Tpt) {c p : Nat} (h : ¬ (c = t.ctx ∧ p = t.page)) :
    (x.putTpt t).tptOf c p = x.tptOf c p := by
  have hp : ∀ a : Tpt, (a.ctx = c && a.page = p) = true → (!(a.ctx = t.ctx && a.page = t.page)) = true := by
    intro a ha
    simp only [Bool.and_eq_true, decide_eq_true_eq] at ha
    obtain ⟨rfl, rfl⟩ := ha
    simpa [Decidable.imp_iff_not_or] using h
  have hnone : [t].find? (fun a : Tpt => a.ctx = c && a.page = p) = none := by
    refine List.find?_eq_none.2 fun a ha hat => h ?_
    simp only [List.mem_singleton] at ha
    subst ha
    simp only [Bool.and_eq_true, decide_eq_true_eq] at hat
    exact ⟨hat.1.symm, hat.2.symm⟩
  simp only [Half.tptOf, Half.putTpt, List.find?_append]
  rw [find?_filter_of_imp _ hp, hnone, Option.or_none]

theorem Half.blockAt_frame {x : Half} {ctx va st f : Nat} {t : Tpt} (h : x.tptAt ctx va = some t) (hd : t.dest = .frame st f) :
    x.blockAt ctx va = some (st, f, va % pageBytes / 64) := by
  obtain ⟨_, _, _, _⟩ := t
  subst hd
  simp only [Half.blockAt, h]

/-- A mapping of a frame in use names a frame in use. -/
theorem Half.mem_usedFrames {x : Half} {t : Tpt} {st f : Nat} (ht : t ∈ x.mem.tpt) (hd : t.dest = .frame st f) :
    f ∈ x.usedFrames st := by
  simp only [Half.usedFrames, List.mem_eraseDups, List.mem_append, List.mem_filterMap]
  exact .inl (.inl ⟨t, ht, by simp [hd]⟩)

/-- The half with a frame cleared: its bytes are zero and no codeword of it is bad. -/
def Half.clearFrame (y : Half) (st f : Nat) : Half :=
  { y with mem := { y.mem with
      cells := memClear y.mem.cells (physAddr st f 0) pageBytes
      bad := y.mem.bad.filter (fun b => !(b.stack = st && b.frame = f)) } }

/-- A page outside a frame reads as before the frame is cleared. -/
theorem Half.vbyte_clearFrame {y z : Half} {st f c va : Nat} (hf : f < stackFrames) (hz : z.tptAt c va = y.tptAt c va)
    (hcells : z.mem.cells = (y.clearFrame st f).mem.cells) (hsync : z.mem.sync = y.mem.sync)
    (ht : ∀ t ∈ y.mem.tpt, t.dest ≠ .frame st f) (hin : ∀ t ∈ y.mem.tpt, ∀ s g, t.dest = .frame s g → g < stackFrames) :
    z.vbyte c va = y.vbyte c va := by
  unfold Half.vbyte
  rw [hz]
  cases hy : y.tptAt c va with
  | none => rfl
  | some t =>
    have hmem : t ∈ y.mem.tpt := List.mem_of_find?_eq_some hy
    cases hd : t.dest with
    | sync p => simp only [hd, Half.syncWord, hsync]
    | frame s g =>
      simp only [hd, hcells]
      refine memRead_memClear_outside _ _ _ _ (physAddr_outside hf (hin t hmem s g hd) ?_ (Nat.mod_lt _ (by decide)))
      rintro ⟨rfl, rfl⟩
      exact ht t hmem hd

/-- A NEW record's page takes the frame found for it, cleared. -/
theorem mapPage_new {x y : Half} {ctx i f : Nat} {r : BitVec 256} (hk : recKind r ≠ 1) (hs : recSync r = false)
    (hf : lowestFree (x.usedFrames (recStackOf r i) ++ y.usedFrames (recStackOf r i)) reservedFrames
      ((x.usedFrames (recStackOf r i) ++ y.usedFrames (recStackOf r i)).length + 1) = some f) :
    mapPage x ctx r y i = (y.clearFrame (recStackOf r i) f).putTpt
      { ctx := ctx, page := recVa r / pageBytes + i, dest := .frame (recStackOf r i) f, ro := recRo r } := by
  simp only [mapPage, hk, hs, if_false, Bool.false_eq_true, hf]
  rfl

/-- Settles O17: the frame found is in no mapping, so clearing it changes no byte of another page. -/
theorem newPageReadsZero : Obligations.NewPageReadsZero := by
  unfold Obligations.NewPageReadsZero
  intro x y ctx r i f va c _ hk hs hf hlt _ hin
  dsimp only
  have hfree : ∀ t ∈ y.mem.tpt, t.dest ≠ .frame (recStackOf r i) f := by
    intro t ht hd
    exact lowestFree_not_mem hf (List.mem_append.2 (.inr (Half.mem_usedFrames ht hd)))
  rw [mapPage_new hk hs hf]
  generalize recStackOf r i = st at *
  generalize recVa r / pageBytes + i = page at *
  have hnew := (y.clearFrame st f).tptOf_putTpt_same { ctx := ctx, page := page, dest := .frame st f, ro := recRo r }
  refine ⟨hnew, fun hva => ?_, fun hne => ?_, hfree⟩
  · have hoff : va % pageBytes < pageBytes := Nat.mod_lt _ (by decide)
    subst hva
    refine ⟨?_, ?_⟩
    · simp only [Half.vbyte, Half.tptAt, hnew]
      exact memRead_memClear_inside _ _ _ _ (by unfold physAddr; omega)
    · simp only [Half.badAt, Half.blockAt_frame hnew rfl]
      simp only [Half.putTpt, Half.clearFrame, List.any_filter, List.any_eq_false]
      intro b _
      by_cases h1 : b.stack = st <;> by_cases h2 : b.frame = f <;> simp [h1, h2]
  · have ht := (y.clearFrame st f).tptOf_putTpt_ne { ctx := ctx, page := page, dest := .frame st f, ro := recRo r } hne
    exact ⟨ht, Half.vbyte_clearFrame hlt ht rfl rfl hfree fun t hm s g hd => (hin t hm s g hd).2⟩

/-! ### Memory integrity -/

/-- The same bytes of memory and the same commands in flight. -/
structure Half.SameData (x y : Half) : Prop where
  cells : y.mem.cells = x.mem.cells
  cmds : y.sched.cmds = x.sched.cmds

theorem Half.SameData.refl (x : Half) : x.SameData x := ⟨rfl, rfl⟩

theorem Half.SameData.memErr {x y : Half} (h : x.SameData y) {kind wh loc : Nat} {owner : Option (Nat × Nat)} :
    x.SameData (y.memErr kind wh loc owner) :=
  ⟨by simp [h.cells], by simp [h.cmds]⟩

theorem Half.SameData.advisory {x y : Half} (h : x.SameData y) {loc : Nat} : x.SameData (y.advisory loc) :=
  .memErr (by exact ⟨h.cells, h.cmds⟩)

theorem Half.SameData.retireFrame {x y : Half} (h : x.SameData y) {st f : Nat} : x.SameData (y.retireFrame st f) := by
  unfold Half.retireFrame
  refine ite_both h (ite_both (.memErr (by exact ⟨h.cells, h.cmds⟩)) ?_)
  split
  · exact ⟨h.cells, h.cmds⟩
  · exact h.advisory

theorem Half.SameData.selfMapOut {x y : Half} (h : x.SameData y) {pc : Bool} {idx : Nat} : x.SameData (y.selfMapOut pc idx) :=
  ite_both h (ite_both ⟨h.cells, h.cmds⟩ h.advisory)

theorem Half.SameData.dropWay {x y : Half} (h : x.SameData y) {sl line : Nat} : x.SameData (y.dropWay sl line) := by
  unfold Half.dropWay
  dsimp only
  split
  · exact ite_both ⟨h.cells, h.cmds⟩ h
  · exact h

theorem Half.SameData.keepCorr {x y : Half} (h : x.SameData y) {k : Corr} : x.SameData (y.keepCorr k) := ⟨h.cells, h.cmds⟩

theorem Half.SameData.corrDram {x y : Half} (h : x.SameData y) {st f b pin : Nat} : x.SameData (y.corrDram st f b pin) := by
  have hret : ∀ z : Half, ∀ p : Prop, [Decidable p] → x.SameData z → x.SameData (if p then z.retireFrame st f else z) :=
    fun z p _ hz => ite_both hz.retireFrame hz
  have hmap : ∀ z : Half, ∀ n, ∀ p : Prop, [Decidable p] → x.SameData z → x.SameData (if p then z.selfMapOut true n else z) :=
    fun z n p _ hz => ite_both hz.selfMapOut hz
  exact hmap _ _ _ (hret _ _ (.keepCorr h.memErr))

theorem Half.SameData.corrCache {x y : Half} (h : x.SameData y) {sl line word : Nat} : x.SameData (y.corrCache sl line word) := by
  have hlog : x.SameData ((y.memErr 0x03 1 sl none).keepCorr { where' := 1, loc := sl, unit := line, block := word, time := y.now }) :=
    .keepCorr h.memErr
  have hmap : ∀ z : Half, ∀ p : Prop, [Decidable p] → x.SameData z → x.SameData (if p then z.selfMapOut false sl else z) :=
    fun z p _ hz => ite_both hz.selfMapOut hz
  unfold Half.corrCache
  exact ite_both (hmap _ _ (.memErr (.dropWay (by exact ⟨hlog.cells, hlog.cmds⟩)))) hlog

/-- A frame move repoints every mapping of its frame, and a finished move settles what the half then is. -/
theorem Half.finishMove_settles (x : Half) {m : Move} {rest : List Move} (h : x.mem.moves = m :: rest) :
    ∃ y, x.finishMove = Half.settle y ∧
      y.mem.tpt = x.mem.tpt.map (fun t =>
        if t.dest = .frame m.stack m.old then { t with dest := .frame m.stack m.new } else t) ∧
      y.mem.retired = (m.stack, m.old) :: x.mem.retired ∧ y.mem.moves = rest ∧ y.mem.logSeq = x.mem.logSeq + 1 ∧
      y.sched = x.sched := by
  unfold Half.finishMove
  rw [h]
  refine ⟨_, rfl, ?_⟩
  simp only [Half.memErr_frame]
  exact ⟨rfl, rfl, trivial, rfl, rfl⟩

/-- Settles O18, event by event. -/
theorem integrityEventsComplete : Obligations.IntegrityEventsComplete := by
  unfold Obligations.IntegrityEventsComplete
  intro h s
  dsimp only
  refine ⟨fun n va c st f b hc hb hw hr => ?_, fun st f b hd => ?_, fun st f b pin => ⟨?_, fun hp => ?_, fun hp => ?_, ?_, ?_⟩,
    fun site => ?_, fun n => ?_, fun sl n c hc hw => ?_, fun n => rfl, fun sl ctx va => ⟨rfl, rfl, rfl, fun st f b hb hd => ?_⟩,
    fun m rest hm _ => ?_⟩
  · rw [exec_memoryUeDetected, execMemoryUeDetected]
    refine congrArg Host.Outcome.next (State.mod_congr ?_)
    simp only [hc, hb]
    exact if_pos (by simp [hw, hr])
  · rw [exec_memoryUeDetected, execMemoryUeDetected]
    refine congrArg Host.Outcome.next (State.mod_congr ?_)
    exact if_pos hd
  · refine congrArg Host.Outcome.next (State.mod_id _ _ _ ?_)
    exact ite_self _
  · exact ⟨congrArg Host.Outcome.next (State.mod_id _ _ _ (if_pos hp)), congrArg Host.Outcome.next (State.mod_id _ _ _ (if_pos hp))⟩
  · rw [exec_scrubRead, execScrubRead, exec_scrubRead, execScrubRead]
    refine ⟨congrArg Host.Outcome.next (State.mod_congr (if_neg hp)), ?_⟩
    rw [State.mod, if_neg hp]
  · simp [Half.markBad]
  · simp [Half.markBad]
  · refine ⟨_, rfl, ?_⟩
    have key : ∀ f : Half → Half, (s.half h).SameData (f (s.half h)) →
        ((s.mod h f).half h).mem.cells = (s.half h).mem.cells ∧ ((s.mod h f).half h).sched.cmds = (s.half h).sched.cmds ∧
          (s.mod h f).half (other h) = s.half (other h) := by
      intro f hf
      rw [State.mod_same, State.mod_other]
      exact ⟨hf.cells, hf.cmds, rfl⟩
    cases site with
    | dram st f b pin => exact key _ (Half.SameData.refl _).corrDram
    | cache sl line word => exact key _ (Half.SameData.refl _).corrCache
    | scratch n => exact key _ (.memErr (by exact ⟨rfl, rfl⟩))
    | store w loc => exact key _ (Half.SameData.refl _).memErr
  · refine ⟨_, rfl, fun hn => ?_, fun k hk => ?_, ?_⟩ <;> rw [State.mod_same] <;> dsimp only
    · rw [Half.engine, (Half.memErr_frame _ _ _ _ _).1, ← Half.engine, Half.modEngine_same _ _ _ hn]
    · rw [Half.engine, (Half.memErr_frame _ _ _ _ _).1, ← Half.engine, Half.modEngine_ne _ _ _ _ hk]
    · simp
  · rw [exec_sramUncorrectable, execSramUncorrectable]
    refine congrArg Host.Outcome.next (State.mod_congr ?_)
    simp only [hc, hw, if_false]
  · rw [exec_sramUncorrectable, execSramUncorrectable]
    refine congrArg Host.Outcome.next (State.mod_congr ?_)
    simp only [hb, hd, if_true]
  · obtain ⟨y, hy, hrest⟩ := (s.half h).finishMove_settles hm
    refine ⟨y, ?_, hrest⟩
    rw [exec_frameMoveComplete, execFrameMoveComplete]
    exact congrArg Host.Outcome.next (State.mod_congr hy)

end Sys2Proof.Machine
end

section
/-! PROOFS. Copies and signals across the links, and the bytes that commits and copies write (spec/12_memory_system.md). -/

namespace Sys2Proof.Machine
open Sys2Proof.Laws.Memory

/-! ### What arrives from the other half -/

theorem takeFirst_append {α β : Type} {f : α → Option β} {pre post : List α} {a : α} {b : β} (hpre : ∀ m ∈ pre, f m = none)
    (ha : f a = some b) : takeFirst f (pre ++ a :: post) = some (b, pre ++ post) := by
  induction pre with
  | nil => simp [takeFirst, ha]
  | cons m pre ih =>
    rw [List.cons_append, takeFirst, hpre m (by simp), ih fun k hk => hpre k (by simp [hk])]
    rfl

/-- The first message of its kind is taken, unless it is BULK traffic behind SAFETY traffic. -/
theorem Half.takeOut_first {α : Type} {o : Half} {f : LinkMsg → Option α} {pre post : List LinkMsg} {m : LinkMsg} {b : α}
    (ho : o.links.outbox = pre ++ m :: post) (hpre : ∀ k ∈ pre, f k = none) (hm : f m = some b)
    (hs : o.isSafety m = true ∨ ∀ k ∈ pre, o.isSafety k = false) : o.takeOut f = some (b, pre ++ post) := by
  have hbefore : (pre ++ m :: post).takeWhile (fun k => (f k).isNone) = pre := by
    rw [List.takeWhile_append_of_pos (by simpa using hpre), List.takeWhile_cons_of_neg (by simp [hm]), List.append_nil]
  unfold Half.takeOut
  rw [ho, hbefore]
  rw [if_pos, takeFirst_append hpre hm]
  rcases hs with hs | hs
  · simp [hs]
  · simpa using .inr hs

/-- Settles O19: the first message of its kind is what is taken from the other half's queue, and its answer goes back. -/
theorem remoteArrivalsAreServed : Obligations.RemoteArrivalsAreServed := by
  unfold Obligations.RemoteArrivalsAreServed
  intro h s pre post cmd cl k st retry rows v
  dsimp only
  refine ⟨fun ha hup => ⟨fun hpre ho hs => ?_, fun hpre ho => ?_, fun hpre ho => ?_⟩, fun ha had => ⟨?_, ?_⟩, fun c hc ht => ?_⟩
  · rw [exec_remoteCopyReceive, execRemoteCopyReceive]
    refine congrArg Host.Outcome.next ?_
    rw [State.serveCopy, Half.takeOut_first ho (b := (cmd, cl, k, rows)) ?_ rfl hs]
    · simp only [ha, hup, Bool.and_self, Bool.not_true, Bool.false_eq_true, if_false]
    · intro m hm
      cases m with
      | copy a b c d => exact absurd hm (hpre a b c d)
      | _ => rfl
  · rw [exec_remoteSignalReceive, execRemoteSignalReceive]
    refine congrArg Host.Outcome.next ?_
    rw [State.serveSignal, Half.takeOut_first ho (b := (cmd, cl, k, v)) ?_ rfl (.inl rfl)]
    · simp only [ha, hup, Bool.and_self, Bool.not_true, Bool.false_eq_true, if_false]
    · intro m hm
      cases m with
      | signal a b c d => exact absurd hm (hpre a b c d)
      | _ => rfl
  · rw [exec_remoteAnswerReceive, execRemoteAnswerReceive]
    refine congrArg Host.Outcome.next ?_
    dsimp only
    rw [Half.takeOut_first ho (b := (cmd, st, retry)) ?_ rfl (.inl rfl)]
    · simp only [hup, Bool.not_true, Bool.false_eq_true, if_false, State.mod, State.setHalf_at_other]
    · intro m hm
      cases m with
      | answer a b c => exact absurd hm (hpre a b c)
      | _ => rfl
  · rw [exec_remoteCopyReceive, execRemoteCopyReceive]
    exact congrArg Host.Outcome.next (State.mod_congr (if_pos (by simp [ha, had])))
  · rw [exec_remoteSignalReceive, execRemoteSignalReceive]
    exact congrArg Host.Outcome.next (State.mod_congr (if_pos (by simp [ha, had])))
  · rw [exec_remoteAnswerReceive, execRemoteAnswerReceive]
    refine congrArg Host.Outcome.next (State.mod_congr ?_)
    simp only [hc, ht, if_true]

theorem mismatchCode_decide (p : Prop) [Decidable p] : mismatchCode (decide p) = if p then 4 else 3 := by
  by_cases h : p <;> simp [mismatchCode, h]

/-- The bytes that a copy writes into a window. -/
def windowBytes (w : Window) (rows : List (Nat × List Byte)) : List (Nat × Byte) :=
  rows.flatMap (fun r => r.2.zipIdx.map (fun b => (w.va + r.1 + b.2, b.1)))

section
variable {x : Half} {tether : Bool} {num : Nat} (hr : x.tetherRefused tether = false)
include hr

theorem Half.farCopy_denied {w : Window} {cl : Nat} {rows : List (Nat × List Byte)}
    (hw : x.mem.windows.find? (fun w => w.num = num) = some w) (hd : w.src ≠ cl ∨ w.tether ≠ tether) :
    x.farCopy tether cl num rows = (x.remoteVio tether (if w.src = cl then 4 else 3) stDenied num, stDenied, 0) := by
  have hd : (decide (w.src ≠ cl) || decide (w.tether ≠ tether)) = true := by simpa using hd
  simp only [Half.farCopy, hr, hw, Bool.false_eq_true, if_false]
  rw [if_pos hd, mismatchCode_decide]

theorem Half.farCopy_bound {w : Window} {cl : Nat} {rows : List (Nat × List Byte)}
    (hw : x.mem.windows.find? (fun w => w.num = num) = some w) (h1 : w.src = cl) (h2 : w.tether = tether) :
    x.farCopy tether cl num rows =
      if rows.any (fun r => w.bytes < r.1 + r.2.length) then (x.remoteVio tether 1 stMalformed num, stMalformed, 0)
      else if x.stagingPool < x.stagingUsed + (windowBytes w rows).length then (x, stBusy, 1000)
      else match x.partBad w.ctx (windowBytes w rows) with
        | some va => (x.memErr 0x02 0 (match x.blockAt w.ctx va with
            | some (st, f, b) => x.dramLoc st f b
            | none => 0) (some (w.ctx, va)), stDataLost, 0)
        | none => ((x.commitBytes w.ctx (windowBytes w rows)).settle, stOk, 0) := by
  have hn : ¬ (decide (w.src ≠ cl) || decide (w.tether ≠ tether)) = true := by simp [h1, h2]
  simp only [Half.farCopy, hr, hw, Bool.false_eq_true, if_false]
  exact if_neg hn

theorem Half.farSignal_denied {i : Inbound} {cl : Nat} {v : BitVec 64}
    (hi : x.mem.inbound.find? (fun i => i.num = num) = some i) (hd : i.src ≠ cl ∨ i.tether ≠ tether) :
    x.farSignal tether cl num v = (x.remoteVio tether (if i.src = cl then 4 else 3) stDenied num, stDenied, 0) := by
  have hd : (decide (i.src ≠ cl) || decide (i.tether ≠ tether)) = true := by simpa using hd
  simp only [Half.farSignal, hr, hi, Bool.false_eq_true, if_false]
  rw [if_pos hd, mismatchCode_decide]

theorem Half.farSignal_word {i : Inbound} {cl va : Nat} {v : BitVec 64}
    (hi : x.mem.inbound.find? (fun i => i.num = num) = some i) (h1 : i.src = cl) (h2 : i.tether = tether) (ht : i.target = .word va) :
    x.farSignal tether cl num v =
      if (x.wordAt i.ctx va).full then (x, stBusy, 100) else ((x.fillWord i.ctx va v).settle, stOk, 0) := by
  have hn : ¬ (decide (i.src ≠ cl) || decide (i.tether ≠ tether)) = true := by simp [h1, h2]
  simp only [Half.farSignal, hr, hi, ht, Bool.false_eq_true, if_false]
  rw [if_neg hn]

end

/-- Settles O20, by the row of the outcome table. -/
theorem farCopyFollowsOutcomeTable : Obligations.FarCopyFollowsOutcomeTable := by
  unfold Obligations.FarCopyFollowsOutcomeTable
  intro x tether cl num rows v
  refine ⟨fun hr => ⟨if_pos hr, if_pos hr⟩, fun hr => ⟨fun hw => ?_, fun w hw => ?_, fun hi => ?_, fun i hi => ?_⟩⟩
  · simp only [Half.farCopy, hr, hw, Bool.false_eq_true, if_false]
  · refine ⟨fun hd => Half.farCopy_denied hr hw hd, fun h1 h2 hrow => ?_, fun h1 h2 hrow => ?_⟩
    · rw [Half.farCopy_bound hr hw h1 h2, if_pos (by simpa using hrow)]
    · rw [Half.farCopy_bound hr hw h1 h2, if_neg (by simpa using hrow)]
      refine ⟨fun hroom => if_pos hroom, fun hroom hb => ?_⟩
      have hroom : ¬ x.stagingPool < x.stagingUsed + (windowBytes w rows).length := Nat.not_lt.2 hroom
      rw [if_neg hroom, show x.partBad w.ctx (windowBytes w rows) = none from hb]
      rfl
  · simp only [Half.farSignal, hr, hi, Bool.false_eq_true, if_false]
  · refine ⟨fun hd => Half.farSignal_denied hr hi hd, fun va h1 h2 ht => ?_⟩
    rw [Half.farSignal_word hr hi h1 h2 ht]
    exact ⟨fun hf => if_pos hf, fun hf => if_neg (by simp [hf])⟩

/-! ### Bytes of memory -/

theorem Half.phys_congr {x y : Half} (h : y.mem.tpt = x.mem.tpt) (c va : Nat) : y.phys c va = x.phys c va := by
  simp only [Half.phys, Half.tptAt, Half.tptOf, h]

/-- The byte of a frame page is the cell at its place. -/
theorem Half.vbyte_of_phys {x : Half} {c va p : Nat} (h : x.phys c va = some p) : x.vbyte c va = memRead x.mem.cells p := by
  unfold Half.phys at h
  unfold Half.vbyte
  split at h
  · next st f _ ht => 
    rw [ht]
    simp only [Option.some.injEq] at h
    simp only [h]
  · cases h

/-- A virtual store of a byte writes its place, if it has one. -/
theorem Half.vput_cells (x : Half) (ctx va : Nat) (b : Byte) :
    (x.vput ctx va b).mem.cells = (x.phys ctx va).elim x.mem.cells (fun p => memWrite x.mem.cells p b) := by
  unfold Half.vput Half.phys
  cases x.tptAt ctx va with
  | none => rfl
  | some t =>
    obtain ⟨_, _, dest, _⟩ := t
    cases dest <;> rfl

theorem Half.vbyte_vput {x : Half} {ctx c va p : Nat} {w : Nat × Byte} (hm : Memory.wf x.mem.cells = true) (hp : x.phys c va = some p) :
    (x.vput ctx w.1 w.2).vbyte c va = if x.phys ctx w.1 = some p then w.2 else x.vbyte c va := by
  rw [Half.vbyte_of_phys ((Half.phys_congr (vput_tpt ..) c va).trans hp), Half.vput_cells, Half.vbyte_of_phys hp]
  cases hq : x.phys ctx w.1 with
  | none => simp
  | some q =>
    by_cases h : q = p
    · subst h
      simpa using memRead_memWrite_self _ none _ _ hm
    · simpa [h] using memRead_memWrite_ne _ none _ _ _ hm (Ne.symm h)

/-- The last of a list of stores to a place is what it reads. -/
theorem Half.vbyte_vputs {x : Half} {ctx c va p : Nat} (ws : List (Nat × Byte)) (hm : Memory.wf x.mem.cells = true)
    (hp : x.phys c va = some p) :
    (x.vputs ctx ws).vbyte c va =
      ((ws.reverse.find? (fun w => x.phys ctx w.1 = some p)).map (·.2)).getD (x.vbyte c va) := by
  induction ws generalizing x with
  | nil => rfl
  | cons w ws ih =>
    have htpt := vput_tpt x ctx w.1 w.2
    have hphys : ∀ c va, (x.vput ctx w.1 w.2).phys c va = x.phys c va := fun c va => Half.phys_congr htpt c va
    rw [show x.vputs ctx (w :: ws) = (x.vput ctx w.1 w.2).vputs ctx ws from rfl, ih (vput_wf _ _ _ _ hm) ((hphys c va).trans hp),
      Half.vbyte_vput hm hp, List.reverse_cons, List.find?_append]
    simp only [hphys]
    cases ws.reverse.find? (fun w => x.phys ctx w.1 = some p) with
    | some v => rfl
    | none => by_cases h : x.phys ctx w.1 = some p <;> simp [h]

/-- The half on which a commit stores its bytes: what the commit does to the caches and lists beside them. -/
def Half.commitReady (x : Half) (ctx : Nat) (ws : List (Nat × Byte)) : Half :=
  ((((x.noteWritten ctx ws).mendBlocks ctx ws).dropHot ctx ws).dropResidents ctx ((ws.map
      (fun w => w.1 / pageBytes)).eraseDups)).touch ctx true
    (ws.map (·.1))

theorem Half.commitReady_frame (x : Half) (ctx : Nat) (ws : List (Nat × Byte)) :
    (x.commitReady ctx ws).mem.cells = x.mem.cells ∧ (x.commitReady ctx ws).mem.tpt = x.mem.tpt ∧
    (x.commitReady ctx ws).mem.sync = x.mem.sync := by
  have hnote : (x.noteWritten ctx ws).mem.tpt = x.mem.tpt ∧ (x.noteWritten ctx ws).mem.sync = x.mem.sync := by
    unfold Half.noteWritten
    split <;> exact ⟨rfl, rfl⟩
  have hmend : ∀ y : Half, (y.mendBlocks ctx ws).mem.tpt = y.mem.tpt ∧ (y.mendBlocks ctx ws).mem.sync = y.mem.sync := by
    intro y
    unfold Half.mendBlocks
    split <;> exact ⟨rfl, rfl⟩
  have htouch : ∀ (y : Half) d vas, (y.touch ctx d vas).mem.tpt = y.mem.tpt ∧ (y.touch ctx d vas).mem.sync = y.mem.sync :=
    fun _ _ _ => ⟨rfl, rfl⟩
  simp only [Half.commitReady, htouch, touch_cells, dropResidents_mem, dropHot_mem, mendBlocks_cells, noteWritten_cells, hmend, hnote,
    and_self]

/-- Settles O21: before its stores a commit changes no byte and no mapping. -/
theorem committedBytesAreRead : Obligations.CommittedBytesAreRead := by
  unfold Obligations.CommittedBytesAreRead
  intro x ctx ws c va p hm hp
  obtain ⟨hcells, htpt, hsync⟩ := x.commitReady_frame ctx ws
  have hphys : ∀ c va, (x.commitReady ctx ws).phys c va = x.phys c va := fun c va => Half.phys_congr htpt c va
  have := Half.vbyte_vputs (ctx := ctx) ws (hcells ▸ hm) ((hphys c va).trans hp)
  rw [Half.vbyte_of_phys ((hphys c va).trans hp), hcells, ← Half.vbyte_of_phys hp] at this
  simp only [hphys] at this
  exact this

/-! ### COPY -/

/-- An element of rows of equal length put one after the other. -/
theorem getElem?_flatMap_rows {α β : Type} {f : α → List β} {n : Nat} (l : List α) (hl : ∀ a ∈ l, (f a).length = n) {i j : Nat}
    (hj : j < n) : (l.flatMap f)[i * n + j]? = (l[i]?).bind (fun a => (f a)[j]?) := by
  induction l generalizing i with
  | nil => simp
  | cons a l ih =>
    rw [List.flatMap_cons]
    cases i with
    | zero => 
      rw [List.getElem?_append_left (by simp [hl a (by simp), hj])]
      simp
    | succ i =>
      rw [List.getElem?_append_right (by rw [hl a (by simp), Nat.succ_mul]; omega), hl a (by simp),
        show (i + 1) * n + j - n = i * n + j by rw [Nat.succ_mul]; omega, ih fun b hb => hl b (by simp [hb])]
      simp

/-- Settles O22: the writes are the rows one after the other. -/
theorem copyMovesRows : Obligations.CopyMovesRows := by
  unfold Obligations.CopyMovesRows
  intro x c i j hi hj
  have hrows : (cpSrc c.desc).zip (cpDst c.desc (df c.desc 0x28 64)) = (List.range (df c.desc 0x34 32)).map (fun i =>
      ((df c.desc 0x20 64 + i * df c.desc 0x38 32, df c.desc 0x30 32), (df c.desc 0x28 64 + i * df c.desc 0x3C 32, df c.desc 0x30 32))) :=
    List.zip_map' ..
  simp only [copyWork, copyBytes, hrows, List.flatMap_map]
  refine ⟨by simp [cpRow, List.map_const', List.sum_replicate_nat], ?_⟩
  rw [getElem?_flatMap_rows (n := df c.desc 0x30 32) _ (by simp [cpRow]) hj]
  simp [cpRow, hi, hj]

end Sys2Proof.Machine
end

section
/-! PROOFS. Number formats (spec/03_arithmetic_formats.md). -/

namespace Sys2Proof.Machine
open Sys2Proof.Laws.Memory

/-! ### Floating formats -/

/-- The sign of a code, as its place in the code. -/
def signCode (f : Flt) (n : Bool) : Nat := if n then 2 ^ (f.bits - 1) else 0

theorem signCode_add_mag {f : Flt} (hb : 1 ≤ f.bits) {c : Nat} (hc : c < 2 ^ f.bits) :
    signCode f (decide (c / 2 ^ (f.bits - 1) % 2 = 1)) + c % 2 ^ (f.bits - 1) = c := by
  have hlt : c / 2 ^ (f.bits - 1) < 2 := by
    rw [Nat.div_lt_iff_lt_mul (Nat.two_pow_pos _), ← Nat.pow_succ', show (f.bits - 1).succ = f.bits by omega]
    exact hc
  have hdiv := Nat.div_add_mod c (2 ^ (f.bits - 1))
  unfold signCode
  rcases Nat.lt_succ_iff_lt_or_eq.1 hlt with h | h
  · rw [Nat.lt_one_iff.1 h] at hdiv ⊢
    simpa using hdiv
  · rw [h] at hdiv ⊢
    simpa using hdiv

/-- A magnitude in whole units of its last place rounds to itself, to nearest and stochastically. -/
theorem Flt.round_exact (f : Flt) (sr : Option Nat) {m : Nat} {e : Int} (hm : m ≠ 0) (hq : ulpExp m e f.p f.emin = e) :
    f.round sr m e = f.code m e := by
  unfold Flt.round
  rw [if_neg hm]
  dsimp only
  rw [hq]
  cases sr <;> simp [rneAt, srAt]

/-- The magnitude code of what a magnitude code stands for is the code. -/
theorem Flt.round_decode (f : Flt) (hp : 1 ≤ f.p) (sr : Option Nat) (mag : Nat) :
    (mag / 2 ^ (f.p - 1) = 0 → f.round sr (mag % 2 ^ (f.p - 1)) f.emin = mag) ∧
    (mag / 2 ^ (f.p - 1) ≠ 0 → f.round sr (mag % 2 ^ (f.p - 1) + 2 ^ (f.p - 1)) (f.emin + (mag / 2 ^ (f.p - 1) - 1 : Nat)) = mag) := by
  have hdiv := Nat.div_add_mod mag (2 ^ (f.p - 1))
  have hlt : mag % 2 ^ (f.p - 1) < 2 ^ (f.p - 1) := Nat.mod_lt _ (Nat.two_pow_pos _)
  generalize mag / 2 ^ (f.p - 1) = field at *
  generalize mag % 2 ^ (f.p - 1) = m at *
  refine ⟨fun h => ?_, fun h => ?_⟩
  · subst h
    have hmag : m = mag := by simpa using hdiv
    by_cases hm : m = 0
    · simp [Flt.round, ← hmag, hm]
    · have hlog : Nat.log2 m < f.p - 1 := (Nat.log2_lt hm).2 hlt
      rw [f.round_exact sr hm (by unfold ulpExp; omega)]
      simp [Flt.code, hmag]
  · have hlog : Nat.log2 (m + 2 ^ (f.p - 1)) = f.p - 1 := by
      refine (Nat.log2_eq_iff (by omega)).2 ⟨by omega, ?_⟩
      rw [Nat.pow_succ]
      omega
    rw [f.round_exact sr (by have := Nat.two_pow_pos (f.p - 1); omega) (by unfold ulpExp; omega)]
    obtain ⟨k, rfl⟩ : ∃ k, field = k + 1 := ⟨field - 1, by omega⟩
    rw [Flt.code, show (f.emin + ((k + 1 - 1 : Nat) : Int) - f.emin).toNat = k by omega, ← hdiv, Nat.mul_comm, Nat.mul_succ]
    omega

/-- A finite number that does not exceed the largest one is written with its sign and rounded magnitude. -/
theorem Flt.encode_fin (f : Flt) (sat : Bool) (sr : Option Nat) (n : Bool) (m : Nat) (e : Int) (h : ¬ f.top < f.round sr m e) :
    f.encode sat sr (.fin n m e) = (signCode f n + f.round sr m e, .none) := by
  simp only [Flt.encode, if_neg h]
  rfl

/-- What a code stands for is written back as the code, in every format with a sign bit and a hidden one. -/
theorem Flt.encode_decode (f : Flt) (hb : 1 ≤ f.bits) (hp : 1 ≤ f.p) {c : Nat} (hc : c < 2 ^ f.bits) (sat : Bool) (sr : Option Nat) :
    ((f.decode c).isFin = true → f.encode sat sr (f.decode c) = (c, .none)) ∧
    (∀ n, f.decode c = .inf n → f.encode false sr (f.decode c) = (c, .none)) := by
  have hsign := signCode_add_mag hb hc
  obtain ⟨hsub, hnorm⟩ := f.round_decode hp sr (c % 2 ^ (f.bits - 1))
  unfold Flt.decode
  dsimp only
  generalize c % 2 ^ (f.bits - 1) = mag at *
  by_cases htop : f.top < mag
  · rw [if_pos htop]
    by_cases hinf : some mag = f.infCode
    · rw [if_pos hinf]
      refine ⟨fun h => by simp [Num.isFin] at h, fun n _ => ?_⟩
      simp only [Flt.encode, Bool.false_eq_true, if_false, ← hinf, if_true]
      exact Prod.ext hsign rfl
    · rw [if_neg hinf]
      exact ⟨fun h => by simp [Num.isFin] at h, fun n h => by simp at h⟩
  · rw [if_neg htop]
    by_cases hf : mag / 2 ^ (f.p - 1) = 0
    · rw [if_pos hf, f.encode_fin _ _ _ _ _ (by rw [hsub hf]; exact htop), hsub hf, hsign]
      exact ⟨fun _ => rfl, fun n h => by simp at h⟩
    · rw [if_neg hf, f.encode_fin _ _ _ _ _ (by rw [hnorm hf]; exact htop), hnorm hf, hsign]
      exact ⟨fun _ => rfl, fun n h => by simp at h⟩

/-- Settles O23: it holds of every format with a sign bit and a hidden one. -/
theorem floatCodesAreWrittenBack : Obligations.FloatCodesAreWrittenBack := by
  unfold Obligations.FloatCodesAreWrittenBack
  intro f hf c sat sr hc
  have hform : ∀ g ∈ [e4m3, e5m2, e2m3, e3m2, e2m1, bf16, fp16, fp32], 1 ≤ g.bits ∧ 1 ≤ g.p := by decide
  obtain ⟨hbits, hp⟩ := hform f hf
  obtain ⟨hfin, hinf⟩ := f.encode_decode hbits hp hc sat sr
  exact ⟨hfin, fun h => by rw [h]; rfl, hinf⟩

/-! ### Integer formats -/

theorem Num.toInt_ofInt (v : Int) : Num.toInt (decide (v < 0)) v.natAbs 0 = v := by
  by_cases h : v < 0
  · simp [Num.toInt, rneAt, sgn, h, Int.ofNat_natAbs_of_nonpos (Int.le_of_lt h)]
  · simp [Num.toInt, rneAt, sgn, h, Int.natAbs_of_nonneg (Int.not_lt.1 h)]

theorem Num.int_ofInt (v : Int) : (Num.ofInt v).int = v := Num.toInt_ofInt v

theorem encInt_eq (w : Nat) (v : Int) : encInt w v = (v % 2 ^ w).toNat := by
  simp [encInt, BitVec.toNat_ofInt]

theorem intRange_le (bits : Nat) (signed : Bool) : (intRange bits signed).1 ≤ (intRange bits signed).2 := by
  have h1 := Nat.two_pow_pos (bits - 1)
  have h2 := Nat.two_pow_pos bits
  cases signed <;> simp only [intRange, if_true, Bool.false_eq_true, if_false] <;> omega

/-- What an integer output of an integer is. -/
theorem intEncode_ofInt (bits : Nat) (signed sat : Bool) (v : Int) :
    intEncode bits signed sat (.ofInt v) =
      if v < (intRange bits signed).1 ∨ (intRange bits signed).2 < v then
        (encInt bits (if sat then (if v < (intRange bits signed).1 then (intRange bits signed).1 else
            (intRange bits signed).2) else v), .sat)
      else (encInt bits v, .none) := by
  simp only [intEncode, Num.ofInt, Num.toInt_ofInt, Bool.or_eq_true, decide_eq_true_eq]

/-! ### INT32 sums -/

theorem insertKey_perm (k : Nat) (a : Num) (l : List (Nat × Num)) : ((insertKey k a l).map (·.2)).Perm (a :: l.map (·.2)) := by
  induction l with
  | nil => exact .refl _
  | cons p l ih =>
    unfold insertKey
    split
    · exact .refl _
    · exact (ih.cons p.2).trans (.swap _ _ _)

/-- The order in which the accumulator takes the terms is a permutation of them. -/
theorem anyOrder_perm (seed elem : Nat) (l : List Num) : (anyOrder seed elem l).Perm l := by
  have key : ∀ (ps : List (Num × Nat)) (acc : List (Nat × Num)),
      ((ps.foldl (fun acc p => insertKey (Config.orderKey seed elem p.2) p.1 acc) acc).map (·.2)).Perm
        (ps.map (·.1) ++ acc.map (·.2)) := by
    intro ps
    induction ps with
    | nil => exact fun acc => .refl _
    | cons p ps ih =>
      intro acc
      refine (ih _).trans (((insertKey_perm _ p.1 acc).append_left _).trans ?_)
      exact List.perm_middle
  have := key l.zipIdx []
  simpa [anyOrder] using this

/-- One addition of the accumulator, with its count of saturations. -/
def sumStep (a : Int × Nat) (x : Num) : Int × Nat :=
  ((satAdd a.1 x.int).1, if (satAdd a.1 x.int).2 then a.2 + 1 else a.2)

theorem sumStep_exact {a : Int} {n : Nat} {x : Num} (h : (a + x.int).natAbs ≤ 2147483647) : sumStep (a, n) x = (a + x.int, n) := by
  have hadd : satAdd a x.int = (a + x.int, false) := by
    unfold satAdd
    rw [if_neg (by omega), if_neg (by omega)]
  simp [sumStep, hadd]

theorem sum_nonneg_of_mem {l : List Int} (h : ∀ i ∈ l, 0 ≤ i) : 0 ≤ l.sum := by
  induction l with
  | nil => simp
  | cons i l ih =>
    rw [List.sum_cons]
    exact Int.add_nonneg (h i (by simp)) (ih fun j hj => h j (by simp [hj]))

/-- A sum of integers does not depend on the order of its terms. -/
theorem perm_sum_eq {l k : List Int} (h : l.Perm k) : l.sum = k.sum := by
  induction h with
  | nil => rfl
  | cons i _ ih => rw [List.sum_cons, List.sum_cons, ih]
  | swap i j l =>
    simp only [List.sum_cons]
    omega
  | trans _ _ ih ih' => exact ih.trans ih'

/-- Terms whose magnitudes stay within the range together with the accumulator are added exactly. -/
theorem foldl_sumStep_exact (l : List Num) (a : Int) (n : Nat)
    (h : (a.natAbs : Int) + (l.map (fun x => (x.int.natAbs : Int))).sum ≤ 2147483647) :
    l.foldl sumStep (a, n) = (a + (l.map Num.int).sum, n) := by
  induction l generalizing a with
  | nil => simp
  | cons x l ih =>
    have hnn : 0 ≤ (l.map (fun x => (x.int.natAbs : Int))).sum := sum_nonneg_of_mem (by simp)
    simp only [List.map_cons, List.sum_cons] at h ⊢
    rw [List.foldl_cons, sumStep_exact (by omega), ih _ (by omega), Int.add_assoc]

/-- Settles O24: a sum within range is exact in the order that the accumulator takes; an output is that of its value's range. -/
theorem integerSumsAndOutputsFollowTheirRules : Obligations.IntegerSumsAndOutputsFollowTheirRules := by
  unfold Obligations.IntegerSumsAndOutputsFollowTheirRules
  refine ⟨fun seed elem l hl => ?_, fun bits signed v _ => ?_⟩
  · have hp := anyOrder_perm seed elem (l.map Num.ofInt)
    have hint : (l.map Num.ofInt).map Num.int = l := by
      simp [List.map_map, Function.comp_def, Num.int_ofInt]
    have habs : ((l.map Num.ofInt).map (fun x => (x.int.natAbs : Int))) = l.map (fun i => (i.natAbs : Int)) := by
      simp [List.map_map, Function.comp_def, Num.int_ofInt]
    rw [show isum seed elem (l.map Num.ofInt) = (anyOrder seed elem (l.map Num.ofInt)).foldl sumStep (0, 0) from rfl,
      foldl_sumStep_exact _ _ _ (by rw [perm_sum_eq (hp.map _), habs]; simpa using hl), perm_sum_eq (hp.map _), hint, Int.zero_add]
  · have hle := intRange_le bits signed
    simp only [intEncode_ofInt, ← encInt_eq, Bool.false_eq_true, if_false, if_true]
    generalize hlo : (intRange bits signed).1 = lo at *
    generalize hhi : (intRange bits signed).2 = hi at *
    refine ⟨?_, ?_, fun sat => ⟨rfl, ?_, ?_⟩⟩
    · by_cases hv : v < lo ∨ hi < v
      · rw [if_pos hv, if_neg (by omega)]
      · rw [if_neg hv, if_pos (by omega)]
    · by_cases hv : v < lo
      · rw [if_pos (.inl hv), if_pos hv, if_neg (by omega), show max lo (min hi v) = lo by omega]
      · by_cases hv' : hi < v
        · rw [if_pos (.inr hv'), if_neg hv, if_neg (by omega), show max lo (min hi v) = hi by omega]
        · rw [if_neg (by omega), if_pos (by omega), show max lo (min hi v) = v by omega]
    · rw [← hhi]
      rfl
    · rw [← hlo]
      rfl

end Sys2Proof.Machine
end

section
/-! PROOFS. Engines (spec/04_tensor_engines.md, spec/11_scheduling_and_sync.md). -/

namespace Sys2Proof.Machine
open Sys2Proof.Laws.Memory

/-! ### Events of the engines -/

/-- The only member with a property is what a search for it finds. -/
theorem find?_eq_some_of_unique {α : Type} {l : List α} {p : α → Bool} {a : α} (ha : a ∈ l) (hp : p a = true)
    (hu : ∀ b ∈ l, p b = true → b = a) : l.find? p = some a := by
  cases h : l.find? p with
  | none => exact absurd hp (by simpa using List.find?_eq_none.1 h a ha)
  | some b => rw [hu b (List.mem_of_find?_eq_some h) (List.find?_some h)]

/-- The command that the scheduler would place next, of those that may pre-empt. -/
theorem Half.preempts_find {x : Half} {c : Cmd} (ha : x.alive = true) (hc : c ∈ x.sched.cmds) (hr : x.ready c = true)
    (he : isEngine c = true) (hq : isQuick c = false) (ht : c.tier ≤ 1) (hn : x.noEngineFree = true)
    (hbest : ∀ o ∈ x.sched.cmds, o ≠ c → x.ready o = true → isEngine o = true → isQuick o = false → o.tier ≤ 1 → x.prefers c o = true)
    (hasym : ∀ o ∈ x.sched.cmds, x.prefers o c = true → x.prefers c o = false) (hself : x.prefers c c = false) :
    let wants := x.sched.cmds.filter (fun c => x.ready c && isEngine c && !isQuick c && c.tier ≤ 1)
    wants.find? (fun c => x.alive && x.noEngineFree && wants.all (fun o => !x.prefers o c)) = some c := by
  have hmem : ∀ o, o ∈ x.sched.cmds.filter (fun c => x.ready c && isEngine c && !isQuick c && c.tier ≤ 1) ↔
      o ∈ x.sched.cmds ∧ x.ready o = true ∧ isEngine o = true ∧ isQuick o = false ∧ o.tier ≤ 1 := by
    intro o
    simp [List.mem_filter, and_assoc]
  have hcw := (hmem c).2 ⟨hc, hr, he, hq, ht⟩
  refine find?_eq_some_of_unique hcw ?_ fun b hb hpb => ?_
  · rw [ha, hn, Bool.true_and, Bool.true_and, List.all_eq_true]
    intro o ho
    obtain ⟨hoc, hor, hoe, hoq, hot⟩ := (hmem o).1 ho
    by_cases hoc' : o = c
    · subst hoc'
      simp [hself]
    · cases hp : x.prefers o c with
      | false => rfl
      | true => exact absurd (hbest o hoc hoc' hor hoe hoq hot) (by simp [hasym o hoc hp])
  · refine Classical.byContradiction fun hbc => ?_
    obtain ⟨hbm, hbr, hbe, hbq, hbt⟩ := (hmem b).1 hb
    simp only [Bool.and_eq_true, List.all_eq_true] at hpb
    simpa [hbest b hbm hbc hbr hbe hbq hbt] using hpb.2 c hcw

/-- Settles O25, event by event. -/
theorem engineEventsComplete : Obligations.EngineEventsComplete := by
  unfold Obligations.EngineEventsComplete
  intro h n s
  dsimp only
  intro ha
  refine ⟨fun ho hr hw => ?_, ⟨_, rfl, ?_⟩, ⟨_, rfl, ?_⟩, fun hb => ?_, fun c hc hw hd hu => ?_,
    fun c v hc hr he hq ht hn hbest hasym hself hv hvict hvv => ?_, fun hr => ?_⟩
  · rw [exec_warmup, execWarmup]
    exact congrArg Host.Outcome.next (State.mod_congr (if_pos (by simp [ha, ho, hr, hw])))
  · rw [State.mod_same]
    refine ⟨rfl, rfl, fun e he => ?_⟩
    simp only [List.getElem?_map, he, ha, Option.map_some]
    refine ⟨fun ⟨h1, h2, h3⟩ h4 => by simp [h1, h2, h3, h4], fun hn => ?_⟩
    rw [if_neg (by simpa [and_assoc] using hn)]
  · rw [State.mod_same]
    refine ⟨rfl, rfl, fun e he => ?_⟩
    simp only [List.getElem?_map, he, ha, Option.map_some]
    simp [and_assoc]
  · rw [exec_warmupDeadlineKill, execWarmupDeadlineKill]
    exact congrArg Host.Outcome.next (State.mod_congr (if_pos (by simp [ha, hb])))
  · rw [exec_budgetExpiry, execBudgetExpiry]
    refine congrArg Host.Outcome.next (State.mod_congr ?_)
    simp only [hc]
    refine if_pos ?_
    simp only [ha, Half.since, hw, hd, ne_eq, not_false_eq_true, decide_true, Bool.true_and, Bool.not_eq_true', Bool.and_eq_false_imp,
      decide_eq_true_eq, decide_eq_false_iff_not]
    exact fun h h' => hu ⟨h, h'⟩
  · rw [exec_preemption, execPreemption]
    refine congrArg Host.Outcome.next (State.mod_congr ?_)
    dsimp only
    rw [Half.preempts_find ha hc hr he hq ht hn hbest hasym hself]
    dsimp only
    rw [find?_eq_some_of_unique hv]
    · rw [List.all_eq_true]
      intro o ho
      by_cases hov : o = v
      · simp [hov, hvv]
      · simp [hvict o ho hov]
    · intro b hb hpb
      refine Classical.byContradiction fun hbv => ?_
      simpa [hvict b hb hbv] using List.all_eq_true.1 hpb v hv
  · rw [exec_engineResetComplete, execEngineResetComplete]
    exact congrArg Host.Outcome.next (State.mod_congr (if_pos (by simp [ha, hr])))

/-! ### Retirement -/

theorem worst_cons_pass {c : Chk} {l : List Chk} (h : c.bad = false) : worst (c :: l) = worst l := by
  simp [worst, h]

/-- A failing check is reported where no failing one after it goes before it. -/
theorem worst_cons_fail {c : Chk} {l : List Chk} (h : c.bad = true) (hl : ∀ d ∈ l, d.before c = false) : worst (c :: l) = some c := by
  cases hw : worst l with
  | none => simp [worst, h, hw]
  | some d =>
    have hd : d ∈ l := by
      clear hl
      induction l generalizing d with
      | nil => simp [worst] at hw
      | cons e l ih =>
        cases he : e.bad with
        | false => exact List.mem_cons_of_mem _ (ih d (by simpa [worst, he] using hw))
        | true =>
          cases hk : worst l with
          | none => simp_all [worst]
          | some k =>
            simp only [worst, he, hk] at hw
            split at hw <;> cases hw
            · exact List.mem_cons_of_mem _ (ih _ hk)
            · simp
    simp [worst, h, hw, hl d hd]

/-- What the retirement of engine `n` by message makes of a half on which none is pending. -/
theorem Half.decideRetire_eq (x : Half) (n : Nat) :
    x.decideRetire n =
      let m := if (x.engine n).st = .spare ∨ ((x.engine n).st = .off ∧ (x.engine n).back = .off) then none
        else (x.sched.engines.find? (fun e => e.st = .spare)).map (·.num)
      { x with sched := { x.sched with
          retiring := some n, retireSpare := m, retireReady := m.any (fun k => (x.engine k).warmup = 1) } } := by
  simp only [Half.decideRetire, Half.lowestSpare, Bool.or_eq_true, Bool.and_eq_true, decide_eq_true_eq]

/-- Settles O26, by the first case of the list that applies. -/
theorem retireMessageCompletes : Obligations.RetireMessageCompletes := by
  unfold Obligations.RetireMessageCompletes
  intro h slot s
  dsimp only
  intro hs
  have hctx : msgCtx ((s.half h).msg slot) = 0 := (Half.sends_short hs).2.2 rfl
  simp only [exec_engRetire, execEngRetire, State.runMsg_sends hs (by decide) (f := { lens := [1] }) rfl]
  generalize pay ((s.half h).msg slot) 0 8 = n at *
  rw [worst_cons_pass (by simp [hctx])]
  refine ⟨fun hn => ?_, fun hn hst => ?_⟩
  · rw [worst_cons_fail (by simpa using hn) (by simp [Chk.before, statusRank, stBusy, stMalformed, stDenied, stUnsupported, stLimit])]
    rfl
  · rw [worst_cons_pass (by simp [hst]; omega)]
    refine ⟨fun hp => ?_, fun hp hk => ?_, fun hp => ?_⟩
    · rw [worst_cons_pass (by simp [hp])]
      refine congrArg Host.Outcome.next ?_
      simp only [worst, State.mod_mod]
      exact State.mod_congr (by simp [hp])
    · have hbad : (!(s.half h).retirePends n && (List.range 18).any (s.half h).retirePends) = true := by simpa [hp] using hk
      rw [worst_cons_fail hbad (by simp), hbad]
      rfl
    · have hn' : (s.half h).retirePends n = false := hp n (by omega)
      rw [worst_cons_pass (by simp; exact fun _ => hp)]
      refine congrArg Host.Outcome.next ?_
      simp only [worst, State.mod_mod]
      refine State.mod_congr ?_
      rw [if_neg (by simp [hn']), Half.decideRetire_eq]

/-! ### Retirement at a frame boundary -/

/-- What retiring an engine changes in it. -/
def retiredEngine (e : Engine) : Engine :=
  { e with st := .retired, wantWarmup := false, warmDone := false, warmRunning := false, warmForced := false, passedFrame := false
           rerunNext := false }

/-- What retiring an engine leaves of engines, commands and pages. -/
theorem Half.retireNow_frame (x : Half) (n : Nat) :
    (x.retireNow n).sched.engines = x.sched.engines.modify n retiredEngine ∧
    (∀ c ∈ (x.retireNow n).sched.cmds, c.engine ≠ some n ∨ c.st = .waiting) ∧
    (x.retireNow n).mem.tpt = x.mem.tpt ∧ (x.retireNow n).sched.retiring = x.sched.retiring := by
  obtain ⟨htab, hfl⟩ := x.endCmds_tables (x.onEngines (fun m _ => m = n)) stKilled
  simp only [Half.tables, Prod.mk.injEq] at htab
  obtain ⟨-, htpt, -, heng, hret⟩ := htab
  unfold Half.retireNow
  dsimp only
  rw [(Half.umpEvent_frame _ _).2.2.2.2.1, (Half.umpEvent_frame _ _).2.2.2.2.2.1]
  refine ⟨congrArg (List.modify · n retiredEngine) heng, fun c hc => ?_, htpt, hret⟩
  have hin : (c.id, c.ctx, c.engine, c.st) ∈ (x.endCmds (x.onEngines (fun m _ => m = n)) stKilled).flight :=
    List.mem_map.2 ⟨c, hc, rfl⟩
  rw [hfl] at hin
  obtain ⟨hin, hno⟩ := List.mem_filter.1 hin
  obtain ⟨d, hd, he⟩ := List.mem_map.1 hin
  simp only [Prod.mk.injEq] at he
  obtain ⟨hid, -, heng', hst⟩ := he
  refine Classical.byContradiction fun hcon => ?_
  rw [not_or, Decidable.not_not] at hcon
  refine absurd ?_ (of_decide_eq_true hno)
  refine List.mem_map.2 ⟨d, List.mem_filter.2 ⟨hd, ?_⟩, hid⟩
  simp [heng', hst, hcon]

theorem Half.retireNow_engine_same (x : Half) {n : Nat} (hn : n < x.sched.engines.length) :
    (x.retireNow n).engine n = retiredEngine (x.engine n) := by
  simp [Half.engine, (x.retireNow_frame n).1, List.getElem?_eq_getElem hn]

theorem Half.retireNow_engine_ne (x : Half) {n k : Nat} (hk : k ≠ n) : (x.retireNow n).engine k = x.engine k := by
  simp [Half.engine, (x.retireNow_frame n).1, Ne.symm hk]

/-- Settles O27, by the case of the boundary. -/
theorem retirementTakesEffectAtBoundary : Obligations.RetirementTakesEffectAtBoundary := by
  unfold Obligations.RetirementTakesEffectAtBoundary
  intro x n hret hn hspare hoff hretd
  dsimp only
  have hsome : ∀ m, x.sched.retireSpare = some m → (x.engine m).st = .spare → x.retireBoundary =
      if (x.engine m).warmup = 3 then (x.retireNow m).selectSpare
      else if x.sched.retireReady then
        ((x.retireNow n).activateSpare m (if (x.engine n).isQuickLane then .quick else .active)).retireDone
      else x := by
    intro m hm hst
    simp only [Half.retireBoundary, hret, hspare, hoff, hretd, hm, hst, decide_false, Bool.false_and, Bool.or_self, Bool.false_eq_true,
      ne_eq, not_true, if_false]
  refine ⟨fun m hm hmst hmlt => ⟨fun hrd hw => ?_, fun hrd hw => ?_, fun hw => ?_⟩, fun hno hlow => ?_⟩
  · have hnm : m ≠ n := by
      rintro rfl
      exact hspare hmst
    have hy : x.retireBoundary =
        ((x.retireNow n).activateSpare m (if (x.engine n).isQuickLane then .quick else .active)).retireDone := by
      rw [hsome m hm hmst, if_neg hw, if_pos hrd]
    have hlen : m < (x.retireNow n).sched.engines.length := by
      rw [(x.retireNow_frame n).1, List.length_modify]
      exact hmlt
    obtain ⟨-, hcmds, htpt, -⟩ := x.retireNow_frame n
    have heng : ∀ k, x.retireBoundary.engine k =
        ((x.retireNow n).modEngine m (fun e => { e with
          st := if (x.engine n).isQuickLane then .quick else .active, passedFrame := false })).engine k := by
      intro k
      rw [hy]
      rfl
    refine ⟨?_, ?_, by rw [hy]; rfl, fun k hkn hkm => ?_, by rw [hy]; exact hcmds, by rw [hy]; exact htpt⟩
    · rw [heng, Half.modEngine_ne _ _ _ _ (Ne.symm hnm), Half.retireNow_engine_same _ hn]
      rfl
    · rw [heng, Half.modEngine_same _ _ _ hlen]
    · rw [heng, Half.modEngine_ne _ _ _ _ hkm, Half.retireNow_engine_ne _ hkn]
  · rw [hsome m hm hmst, if_neg hw, if_neg (by simp [hrd])]
  · have hy : x.retireBoundary = (x.retireNow m).selectSpare := by
      rw [hsome m hm hmst, if_pos hw]
    refine ⟨?_, ?_, fun k hk => ?_⟩
    · rw [hy]
      exact congrArg Engine.st (x.retireNow_engine_same hmlt)
    · rw [hy]
      exact (x.retireNow_frame m).2.2.2.trans hret
    · rw [hy]
      exact x.retireNow_engine_ne hk
  · have hy : x.retireBoundary = (x.retireNow n).retireDone := by
      simp [Half.retireBoundary, hret, hspare, hoff, hretd, hno, hlow]
    refine ⟨?_, ?_, fun k hk => ?_⟩
    · rw [hy]
      exact congrArg Engine.st (x.retireNow_engine_same hn)
    · rw [hy]
      rfl
    · rw [hy]
      exact x.retireNow_engine_ne hk

end Sys2Proof.Machine
end

section
/-! PROOFS. The course of a data command (spec/04_tensor_engines.md R109). -/

namespace Sys2Proof.Machine
open Sys2Proof.Laws.Memory

/-! ### The start of a data command -/

/-- What finishes a start depends on what the start makes of the half that it finds. -/
theorem Start.finish_congr (k : Start) (s : State) {f g : Half → Half} (e : f (k.pre (s.half k.half)) = g (k.pre (s.half k.half))) :
    k.finish s f = k.finish s g := by
  have : s.mod k.half (fun x => k.post x (f (k.pre x))) = s.mod k.half (fun x => k.post x (g (k.pre x))) :=
    State.mod_congr (congrArg (k.post _) e)
  simp only [Start.finish, this]

/-- Settles O28: it is the begin of the shared start. -/
theorem dataCommandsBegin : Obligations.DataCommandsBegin := by
  unfold Obligations.DataCommandsBegin
  intro c k s cm hk
  dsimp only
  intro hc hst hw he hr hb hm hf
  rw [exec_dataCmd hk]
  exact congrArg Host.Outcome.next (k.finish_congr s (Half.start_begin k hc hst hw _ rfl he hr hb hm hf))

/-- Settles O29: it is the failing and the idle case of the shared start. -/
theorem failingChecksEndDataCommands : Obligations.FailingChecksEndDataCommands := by
  unfold Obligations.FailingChecksEndDataCommands
  intro c k s cm hk
  dsimp only
  intro hc
  rw [exec_dataCmd hk]
  refine ⟨fun hst e he => ?_, fun hst hpre hpost hsend => ?_⟩
  · have hfail := Half.start_fail k hc hst he
    refine ⟨fun hne => ?_, fun heq => ?_⟩
    · exact congrArg Host.Outcome.next (k.finish_congr s (hfail.trans (if_neg hne)))
    · exact congrArg Host.Outcome.next (k.finish_congr s (hfail.trans (if_pos heq)))
  · refine congrArg Host.Outcome.next ?_
    have hidle := Half.start_idle k hc hst
    rw [hpre] at hidle
    simp only [Start.finish, hsend, hpost, hpre]
    exact State.mod_id _ _ _ hidle

/-! ### What a command that has begun leaves -/

theorem Half.cmd_modCmd_same (x : Half) (n : Nat) (f : Cmd → Cmd) (hf : ∀ c, (f c).id = c.id) :
    (x.modCmd n f).cmd n = (x.cmd n).map f := by
  simp only [Half.cmd, Half.modCmd, List.find?_map]
  have : (fun k : Cmd => decide (k.id = n)) ∘ (fun k => if k.id = n then f k else k) = fun k => decide (k.id = n) := by
    funext k
    by_cases h : k.id = n <;> simp [h, hf]
  rw [this]
  cases h : x.sched.cmds.find? (fun k => k.id = n) with
  | none => rfl
  | some c => simp [show c.id = n by simpa using List.find?_some h]

theorem Half.cmd_modCmd_ne (x : Half) {n m : Nat} (f : Cmd → Cmd) (hf : ∀ c, (f c).id = c.id) (hm : m ≠ n) :
    (x.modCmd n f).cmd m = x.cmd m := by
  simp only [Half.cmd, Half.modCmd, List.find?_map]
  have : (fun k : Cmd => decide (k.id = m)) ∘ (fun k => if k.id = n then f k else k) = fun k => decide (k.id = m) := by
    funext k
    by_cases h : k.id = n <;> simp [h, hf]
  rw [this]
  cases h : x.sched.cmds.find? (fun k => k.id = m) with
  | none => rfl
  | some c => simp [show c.id = m by simpa using List.find?_some h, hm]

/-- What begins in a command that stages its outputs. -/
def begun (x : Half) (cm : Cmd) (eng : Option Nat) (w : Work) (k : Cmd) : Cmd :=
  { k with
    st := .running, engine := eng, inst := eng.getD w.inst, started := x.now, order := x.sched.nextCmd + 1
    writes := w.writes, reads := w.reads ++ w.outs, held := w.held, foot := w.foot, status := w.status, det0 := BitVec.ofNat 64 w.det0
    det1 := BitVec.ofNat 32 w.det1, eff := w.eff, kvPages := w.kvPages, checked := true, predict := w.predict
    cycles := w.cycles, epoch0 := w.epoch0, waitSeq := x.sched.nextCmd + 1, lock := (lockOf cm).elim 0
        (fun l => if l.2.2.2 then 2 else 1) }

/-- A command that stages its outputs changes, by its begin, itself, the scheduler's bookkeeping and the general cache. -/
theorem Half.begin_frame (x : Half) (cm : Cmd) (eng : Option Nat) (w : Work) (hw : w.atOnce = false) :
    let y := x.begin cm eng w
    y.mem = { x.mem with cache := y.mem.cache } ∧ y.mbx = x.mbx ∧ y.ptn = x.ptn ∧ y.sched.queues = x.sched.queues ∧
    y.sched.clients = x.sched.clients ∧ y.sched.cmds = (x.modCmd cm.id (begun x cm eng w)).sched.cmds := by
  unfold Half.begin
  rw [hw]
  cases w.hot <;> exact ⟨rfl, rfl, rfl, rfl, rfl, rfl⟩

/-- Settles O30: of the commands only the one that begins changes, to what its unit made. -/
theorem begunCommandIsStaged : Obligations.BegunCommandIsStaged := by
  unfold Obligations.BegunCommandIsStaged
  intro x cm eng w hc hw
  obtain ⟨hmem, hmbx, hptn, hq, hcl, hcmds⟩ := x.begin_frame cm eng w hw
  have hcmd : ∀ n, (x.begin cm eng w).cmd n = (x.modCmd cm.id (begun x cm eng w)).cmd n := by
    intro n
    simp only [Half.cmd, hcmds]
  refine ⟨hmem, hmbx, hptn, hq, hcl, fun n hn => ?_, begun x cm eng w cm, ?_, rfl, rfl, rfl, rfl, rfl, rfl, rfl, rfl, rfl, rfl, rfl⟩
  · exact (hcmd n).trans (x.cmd_modCmd_ne _ (fun _ => rfl) hn)
  · rw [hcmd, x.cmd_modCmd_same _ (begun x cm eng w) (fun _ => rfl), hc]
    rfl

/-! ### COMMAND_COMMIT -/

/-- The fetches of a convolution leave all but the command's own writes and count, and the half's free values. -/
theorem Half.refetch_running {x : Half} {c : Cmd} (hc : x.cmd c.id = some c) (hst : c.st = .running) (ha : x.alive = true)
    (hb : x.batch c.id = none) :
    (x.refetch c).alive = true ∧ (x.refetch c).batch c.id = none ∧
    ∃ d, (x.refetch c).cmd c.id = some d ∧ d.st = .running ∧ d.desc = c.desc := by
  unfold Half.refetch
  split
  · exact ⟨ha, hb, c, hc, hst, rfl⟩
  · refine ⟨ha, hb, ?_⟩
    refine ⟨_, (Half.cmd_modCmd_same _ _ _ (by exact fun _ => rfl)).trans (congrArg (Option.map _)
        (show x.took.cmd c.id = some c from hc)),
      hst, rfl⟩

/-- A running command that stages its outputs commits, if its unit is not the sync unit and it is no batch. -/
theorem Half.commitStarted_running {x : Half} {n : Nat} {c : Cmd} (hc : x.cmd n = some c) (hst : c.st = .running) (ha : x.alive = true)
    (hb : x.batch n = none) (hu : dUnit c.desc ≠ 9) : x.commitStarted n = (x.tryCommit n).settle := by
  simp only [Half.commitStarted, hc, show x.sched.pipe.batches.find? (fun b => b.cmd = n) = none from hb]
  exact if_pos (by simp [ha, hst, hu])

/-- What a commit of a command in flight does to its half, by what the command is. -/
theorem exec_commandCommit_of_cmd {s : State} {h : HalfId} {n : Nat} {c : Cmd} (hc : (s.half h).cmd n = some c) {g : Half → Half}
    (hg : (if (!(s.half h).alive || (s.half h).inMove c || c.st ≠ .running) = true then s.half h
      else if ((s.half h).batch n).isSome then (s.half h).batchCommit n stOk
      else if (dUnit c.desc = 7 && dOp c.desc = 0x10 && c.status ≠ stEmpty) = true then (s.half h).planCommit c
      else ((s.half h).refetch c).commitStarted n) = g (s.half h)) :
    exec (.commandCommit h n) s = .next (s.mod h g) := by
  rw [exec_commandCommit, execCommandCommit]
  refine congrArg Host.Outcome.next (State.mod_congr ?_)
  simp only [hc]
  exact hg

/-- The same for one that runs on a half that carries on work, with none of its pages in a move. -/
theorem exec_commandCommit_of_running {s : State} {h : HalfId} {n : Nat} {c : Cmd} (hc : (s.half h).cmd n = some c)
    (ha : (s.half h).alive = true) (hst : c.st = .running) (hm : (s.half h).inMove c = false) {g : Half → Half}
    (hg : (if ((s.half h).batch n).isSome then (s.half h).batchCommit n stOk
      else if (dUnit c.desc = 7 && dOp c.desc = 0x10 && c.status ≠ stEmpty) = true then (s.half h).planCommit c
      else ((s.half h).refetch c).commitStarted n) = g (s.half h)) :
    exec (.commandCommit h n) s = .next (s.mod h g) :=
  exec_commandCommit_of_cmd hc ((if_neg (by simp [ha, hst, hm])).trans hg)

theorem State.next_mod_same (s : State) (h : HalfId) :
    (Host.Outcome.next (s.mod h (fun x => x)) : Host.Outcome State Fault Refusal) = .next s :=
  congrArg Host.Outcome.next (State.mod_id _ _ _ rfl)

/-- Settles O31, by what the command is. -/
theorem commandCommitMakesOutputsVisible : Obligations.CommandCommitMakesOutputsVisible := by
  unfold Obligations.CommandCommitMakesOutputsVisible
  intro h n s c
  dsimp only
  intro hc ha hst
  obtain rfl : c.id = n := Half.cmd_id hc
  refine ⟨fun hm => ?_, fun hm => ⟨fun hb hp hu => ?_, fun b hb => ⟨fun hall => ?_, fun hall => ?_⟩,
    fun hb hu ho hs p hp => ⟨fun hpost hin => ?_, fun hno => ?_⟩⟩⟩
  · rw [← State.next_mod_same s h]
    exact exec_commandCommit_of_cmd hc (if_pos (by simp [hm]))
  · have hplain : ¬ (dUnit c.desc = 7 && dOp c.desc = 0x10 && c.status ≠ stEmpty) = true := by simpa [and_assoc] using hp
    obtain ⟨ha', hb', d, hd, hdst, hdesc⟩ := Half.refetch_running hc hst ha hb
    have hrun : ∀ g : Half → Half, (((s.half h).refetch c).tryCommit c.id).settle = g (s.half h) →
        exec (.commandCommit h c.id) s = .next (s.mod h g) := fun g hg =>
      exec_commandCommit_of_running hc ha hst hm ((if_neg (by simp [hb])).trans ((if_neg hplain).trans
        ((Half.commitStarted_running hd hdst ha' hb' (by rw [hdesc]; exact hu)).trans hg)))
    refine ⟨fun hraced => ?_, fun _ => hrun _ rfl⟩
    have hsame : (s.half h).refetch c = s.half h := if_pos (by rcases hraced with hr | hr <;> simp [hr])
    rw [hsame] at hrun
    refine ⟨fun hpost => hrun _ ?_, fun hpost hroom => hrun _ ?_⟩
    · simp only [Half.tryCommit, hc, hpost, if_true]
    · simp only [Half.tryCommit, hc, hpost, Bool.false_eq_true, if_false, Nat.not_le.2 hroom]
  · refine exec_commandCommit_of_running hc ha hst hm ((if_pos (by simp [hb])).trans ?_)
    simp only [Half.batchCommit, hb, hc]
    exact if_pos hall
  · rw [← State.next_mod_same s h]
    refine exec_commandCommit_of_running hc ha hst hm ((if_pos (by simp [hb])).trans ?_)
    simp only [Half.batchCommit, hb, hc]
    exact if_neg (by simp [hall])
  · refine exec_commandCommit_of_running hc ha hst hm ((if_neg (by simp [hb])).trans ((if_pos (by simp [hu, ho, hs])).trans ?_))
    simp only [Half.planCommit, hp]
    exact if_pos (by simp [hpost, hin])
  · rw [← State.next_mod_same s h]
    refine exec_commandCommit_of_running hc ha hst hm ((if_neg (by simp [hb])).trans ((if_pos (by simp [hu, ho, hs])).trans ?_))
    simp only [Half.planCommit, hp]
    exact if_neg (by rcases hno with hno | hno <;> simp [hno])

end Sys2Proof.Machine
end

section
/-! PROOFS. Sync words (spec/11_scheduling_and_sync.md). -/

namespace Sys2Proof.Machine
open Sys2Proof.Laws.Memory

/-! ### Sync words -/

theorem Half.syncWord_congr {x y : Half} (h : y.mem.sync = x.mem.sync) (p w : Nat) : y.syncWord p w = x.syncWord p w := by
  rw [Half.syncWord, Half.syncWord, h]

/-- A word reads as it was set; an unlisted one is empty with value zero. -/
theorem Half.syncWord_setSync_same (x : Half) (v : SyncWord) : (x.setSync v).syncWord v.page v.word = v := by
  unfold Half.setSync Half.syncWord
  split
  next h =>
    have hnone : (x.mem.sync.filter (fun k => !(k.page = v.page && k.word = v.word))).find?
        (fun k => k.page = v.page && k.word = v.word) = none := by
      simp +contextual [Decidable.imp_iff_not_or]
    rw [hnone]
    cases v
    simp_all
  next h => simp

theorem Half.syncWord_setSync_ne (x : Half) (v : SyncWord) {p w : Nat} (h : (p, w) ≠ (v.page, v.word)) :
    (x.setSync v).syncWord p w = x.syncWord p w := by
  have hne : ¬ (v.page = p ∧ v.word = w) := fun e => h (by rw [← e.1, ← e.2])
  have hrest : (x.mem.sync.filter (fun k => !(k.page = v.page && k.word = v.word))).find? (fun k => k.page = p && k.word = w) =
      x.mem.sync.find? (fun k => k.page = p && k.word = w) := by
    refine find?_filter_of_imp _ fun k hk => ?_
    simp only [Bool.and_eq_true, decide_eq_true_eq] at hk
    obtain ⟨rfl, rfl⟩ := hk
    refine (Bool.not_eq_true' _).mpr (Bool.eq_false_iff.mpr fun e => hne ?_)
    obtain ⟨e1, e2⟩ := Bool.and_eq_true_iff.mp e
    exact ⟨(of_decide_eq_true e1).symm, (of_decide_eq_true e2).symm⟩
  unfold Half.setSync Half.syncWord
  split
  · rw [hrest]
  · rw [List.find?_cons_of_neg (by simpa using hne), hrest]

theorem Half.wordAt_of_syncAt {x : Half} {ctx va p w : Nat} (h : x.syncAt ctx va = some (p, w)) : x.wordAt ctx va = x.syncWord p w := by
  rw [Half.wordAt, h]

theorem Half.fillWord_of_syncAt {x : Half} {ctx va p w : Nat} (h : x.syncAt ctx va = some (p, w)) (v : BitVec 64) :
    x.fillWord ctx va v = x.setSync { page := p, word := w, value := v, full := true } := by
  rw [Half.fillWord, h]

theorem Half.drainWord_of_syncAt {x : Half} {ctx va p w : Nat} (h : x.syncAt ctx va = some (p, w)) :
    x.drainWord ctx va = x.setSync { page := p, word := w, value := (x.syncWord p w).value, full := false } := by
  rw [Half.drainWord, h]

/-! ### What the commit of a sync operation leaves of the sync words -/

theorem Half.beginDecodes_mem (x : Half) : x.beginDecodes.mem = x.mem := by
  unfold Half.beginDecodes
  generalize x.sched.pipe.hwQueue.filter (fun p => x.decoding p.1 p.2) = l
  exact List.foldlRecOn (motive := fun y : Half => y.mem = x.mem) l _ rfl (fun _ hy _ _ => hy)

theorem Half.dropCmd_sync (x : Half) (n : Nat) : (x.dropCmd n).mem.sync = x.mem.sync := by
  unfold Half.dropCmd
  dsimp only
  split
  · rw [Half.beginDecodes_mem]
  · rfl

theorem Half.record_sync (x : Half) (c : Cmd) (status det0 det1 : Nat) : (x.record c status det0 det1).mem.sync = x.mem.sync := by
  have hput : ∀ q : Queue, (x.putRecord q c.client (dTag c.desc) c.ringIdx c.inst status det0 det1).mem.sync = x.mem.sync := fun q => by
    rw [Half.putRecord]
    dsimp only [Half.modClient, Half.modQueue]
    rw [x.sameButCells_vwrite q.ctx _ _]
  unfold Half.record
  dsimp only
  have hirq : ∀ y : Half, (if dIrq c.desc then y.queueIrq c.client else y).mem.sync = y.mem.sync := fun y => by
    split <;> simp
  have hhold : ∀ y : Half, (if status = stBusy then y.holdCmd c det1 else y).mem.sync = y.mem.sync := fun y => by
    split <;> rfl
  rw [hirq, hhold, Half.dropCmd_sync]
  split
  · exact hput _
  · rfl

/-- The commit of a command that writes nothing, has no effect and no POST_OP leaves every sync word. -/
theorem Half.commit_sync {x : Half} {c : Cmd} (h1 : dPost c.desc ≠ 1) (h2 : dPost c.desc ≠ 2) (hw : c.writes = [])
    (he : c.eff = .none) (hg : c.engine = none) (hu : dUnit c.desc = 9) : (x.commit c).mem.sync = x.mem.sync := by
  have hchain : ∀ y : Half, y.chainCommit c = y := fun y => by
    unfold Half.chainCommit
    simp [hu]
  have hpost : ∀ y : Half, y.postOp c = y := fun y => (if_neg h1).trans (if_neg h2)
  have heng : ∀ y : Half, y.engineCommit c = y := fun y => by
    unfold Half.engineCommit
    rw [hg]
  have hbytes : ∀ y : Half, ((y.commitBytes c.ctx []).applyEff .none).mem.sync = y.mem.sync := fun y =>
    (y.commitReady_frame c.ctx []).2.2
  have hrace : (x.noteRaces c.id c.ctx []).mem = x.mem := by
    unfold Half.noteRaces
    dsimp only
    split <;> rfl
  unfold Half.commit
  dsimp only
  rw [Half.record_sync, hpost, hchain, he, hw]
  simp only [Half.commitWrites, heng, ite_self]
  rw [hbytes, hrace]

/-- Settles O32: the commit keeps the sync words that the operation has left. -/
theorem syncOperationsFollowTable : Obligations.SyncOperationsFollowTable := by
  unfold Obligations.SyncOperationsFollowTable
  intro x c p w
  dsimp only
  intro hat h1 h2 _ hw he hg hu
  have hcommit : ∀ (y : Half) d0 d1, (y.commit { c with det0 := d0, det1 := d1 }).mem.sync = y.mem.sync := fun y d0 d1 =>
    Half.commit_sync (by exact h1) (by exact h2) (by exact hw) (by exact he) (by exact hg) (by exact hu)
  have hsync : (x.syncCommit c).mem.sync = (if dOp c.desc = 0x01 then
      x.setSync { page := p, word := w, value := BitVec.ofNat 64 (df c.desc 0x28 64), full := true }
    else if dOp c.desc = 0x02 then
      x.setSync { page := p, word := w, value := (x.syncWord p w).value, full := false }
    else x).mem.sync := by
    rw [Half.syncCommit, hcommit, Half.fillWord_of_syncAt hat, Half.drainWord_of_syncAt hat]
  have hword := fun p' w' => Half.syncWord_congr hsync p' w'
  refine ⟨fun h => ?_, fun h => ?_, fun h => ?_, fun p' w' hne => ?_, fun hst => ?_⟩
  · rw [hword, if_pos h]
    exact x.syncWord_setSync_same { page := p, word := w, value := BitVec.ofNat 64 (df c.desc 0x28 64), full := true }
  · rw [hword, if_neg (by omega), if_pos h]
    rw [x.syncWord_setSync_same { page := p, word := w, value := (x.syncWord p w).value, full := false }]
    exact ⟨rfl, rfl⟩
  · rw [hsync, if_neg (by omega), if_neg (by omega)]
  · rw [hword]
    split
    · exact x.syncWord_setSync_ne _ hne
    · split
      · exact x.syncWord_setSync_ne _ hne
      · rfl
  · have hpost : x.postOk c = true := by simp [Half.postOk, h1, h2]
    simp only [Half.syncCan, Half.wordAt_of_syncAt hat, hst, hu, hpost, decide_true, Bool.true_and, Bool.and_true]
    split
    · simp_all
    · split
      · simp_all
      · split
        · simp_all
        · split <;> simp_all

end Sys2Proof.Machine
end

section
/-! PROOFS. The bandwidth regulator (spec/13_bandwidth_regulation.md). -/

namespace Sys2Proof.Machine
open Sys2Proof.Laws.Memory

/-! ### Events, classes and ports of the regulator -/

theorem Half.qosEvent_qos (x : Half) (i : Nat) : (x.qosEvent i).qos = { x.qos with irqStatus := setBit x.qos.irqStatus i } := by
  unfold Half.qosEvent
  dsimp only
  split <;> simp

theorem Half.missClass_qos (x : Half) (c : Nat) : (x.missClass c).qos =
    { x.qos.modCls c (fun k => { k with misses := k.misses + 1 }) with irqStatus := setBit x.qos.irqStatus c } := by
  unfold Half.missClass
  dsimp only
  (repeat' split) <;> simp [Half.qosEvent_qos, Half.modQos, Qos.modCls]

theorem Half.missClass_frame (x : Half) (c : Nat) : (x.missClass c).mem = x.mem ∧ (x.missClass c).sched = x.sched := by
  unfold Half.missClass
  dsimp only
  (repeat' split) <;> simp

theorem Qos.cls_modCls_same {q : Qos} {c : Nat} (hc : c < q.classes.length) (f : QClass → QClass) :
    (q.modCls c f).cls c = f (q.cls c) := by
  simp [Qos.cls, Qos.modCls, List.getElem?_eq_getElem hc]

theorem Qos.cls_modCls_ne {q : Qos} {c d : Nat} (hd : d ≠ c) (f : QClass → QClass) : (q.modCls c f).cls d = q.cls d := by
  simp [Qos.cls, Qos.modCls, hd.symm]

theorem Qos.port_modPort_same {q : Qos} {p : Nat} (hp : p < q.ports.length) (f : QPort → QPort) :
    (q.modPort p f).port p = f (q.port p) := by
  simp [Qos.port, Qos.modPort, List.getElem?_eq_getElem hp]

theorem Qos.port_modPort_ne {q : Qos} {p r : Nat} (hr : r ≠ p) (f : QPort → QPort) : (q.modPort p f).port r = q.port r := by
  simp [Qos.port, Qos.modPort, hr.symm]

theorem Qos.modPort_of_le {q : Qos} {p : Nat} (hp : q.ports.length ≤ p) (f : QPort → QPort) : q.modPort p f = q := by
  rw [Qos.modPort, List.modify_eq_self hp]

/-! ### The end of a window -/

/-- What the end of a window makes of class c: a miss, or the end of a run of misses (R356). -/
def Half.judgeClass (missed : Nat → Bool) (y : Half) (c : Nat) : Half :=
  if missed c then y.missClass c else { y with umpx := { y.umpx with missStreak := y.umpx.missStreak.set c 0 } }

theorem Half.judgeClass_frame (missed : Nat → Bool) (y : Half) (c : Nat) :
    (y.judgeClass missed c).mem = y.mem ∧ (y.judgeClass missed c).sched = y.sched := by
  unfold Half.judgeClass
  split
  · exact y.missClass_frame c
  · exact ⟨rfl, rfl⟩

theorem Half.judgeClass_qos (missed : Nat → Bool) (y : Half) (c : Nat) : (y.judgeClass missed c).qos = if missed c then
    { y.qos.modCls c (fun k => { k with misses := k.misses + 1 }) with irqStatus := setBit y.qos.irqStatus c } else y.qos := by
  unfold Half.judgeClass
  split
  · exact y.missClass_qos c
  · rfl

/-- The regulator q after the classes below n have been judged, from what it was before. -/
structure Qos.Judged (q : Qos) (missed : Nat → Bool) (n : Nat) (before : Qos) : Prop where
  rest : q = { before with classes := q.classes, irqStatus := q.irqStatus }
  length : q.classes.length = before.classes.length
  cls : ∀ c < before.classes.length,
    q.cls c = if c < n ∧ missed c = true then { before.cls c with misses := (before.cls c).misses + 1 } else before.cls c
  irq : ∀ c, bitAt q.irqStatus c = (decide (c < n ∧ missed c = true) || bitAt before.irqStatus c)

theorem Qos.Judged.zero (missed : Nat → Bool) (q : Qos) : q.Judged missed 0 q where
  rest := rfl
  length := rfl
  cls := by simp
  irq := by simp

theorem Qos.Judged.miss {missed : Nat → Bool} {n : Nat} {q before : Qos} (h : q.Judged missed n before)
    (hn : n < before.classes.length) (h9 : n < 9) (hm : missed n = true) :
    ({ q.modCls n (fun k => { k with misses := k.misses + 1 }) with irqStatus := setBit q.irqStatus n } : Qos).Judged missed
        (n + 1) before where
  rest := by
    rw [h.rest]
    rfl
  length := by simp [Qos.modCls, h.length]
  cls := fun c hc => by
    by_cases e : c = n
    · subst e
      refine (Qos.cls_modCls_same (h.length ▸ hn) _).trans ?_
      rw [h.cls c hc, if_neg (by omega), if_pos ⟨by omega, hm⟩]
    · refine (Qos.cls_modCls_ne e _).trans ?_
      rw [h.cls c hc]
      exact ite_congr_iff (and_congr_left fun _ => by omega) rfl rfl
  irq := fun c => by
    by_cases e : c = n
    · subst e
      exact (bitAt_setBit _ c h9).trans (by simp [hm])
    · rw [bitAt_setBit_ne _ n c e, h.irq c]
      exact congrArg (· || _) (decide_eq_decide.mpr (and_congr_left fun _ => by omega))

theorem Qos.Judged.skip {missed : Nat → Bool} {n : Nat} {q before : Qos} (h : q.Judged missed n before) (hm : missed n = false) :
    q.Judged missed (n + 1) before where
  rest := h.rest
  length := h.length
  cls := fun c hc => by
    rw [h.cls c hc]
    refine ite_congr_iff ⟨fun k => ⟨by omega, k.2⟩, fun k => ⟨?_, k.2⟩⟩ rfl rfl
    have : c ≠ n := fun e => by simp [e, hm] at k
    omega
  irq := fun c => by
    rw [h.irq c]
    refine congrArg (· || _) (decide_eq_decide.mpr ⟨fun k => ⟨by omega, k.2⟩, fun k => ⟨?_, k.2⟩⟩)
    have : c ≠ n := fun e => by simp [e, hm] at k
    omega

theorem Half.judgeClass_range (missed : Nat → Bool) (x : Half) {n : Nat} (hn : n ≤ x.qos.classes.length) (h9 : n ≤ 9) :
    let y := (List.range n).foldl (fun y c => y.judgeClass missed c) x
    y.qos.Judged missed n x.qos ∧ y.mem = x.mem ∧ y.sched = x.sched := by
  induction n with
  | zero => exact ⟨.zero missed x.qos, rfl, rfl⟩
  | succ n ih =>
    obtain ⟨hq, hmem, hsched⟩ := ih (by omega) (by omega)
    rw [List.range_succ, List.foldl_append]
    generalize (List.range n).foldl (fun y c => y.judgeClass missed c) x = y at hq hmem hsched
    obtain ⟨fmem, fsched⟩ := y.judgeClass_frame missed n
    refine ⟨?_, fmem.trans hmem, fsched.trans hsched⟩
    rw [List.foldl_cons, List.foldl_nil, Half.judgeClass_qos]
    split
    next hm => exact hq.miss (by omega) (by omega) hm
    next hm => exact hq.skip (by simpa using hm)

theorem Qos.cls_map {q r : Qos} {f : QClass → QClass} (h : r.classes = q.classes.map f) {c : Nat} (hc : c < q.classes.length) :
    r.cls c = f (q.cls c) := by
  simp [Qos.cls, h, List.getElem?_eq_getElem hc]

/-- Class c has a guarantee, missed it and was backlogged (R356). -/
def Half.missedIn (x : Half) (busy : BitVec 8) (c : Nat) : Bool :=
  (x.qos.cls c).guar ≠ 0 && (x.qos.cls c).count < (x.qos.cls c).guar.toNat && bitAt busy c

/-- The counts and settings with which a class begins its next window (R355). -/
def QClass.nextWindow (k : QClass) : QClass :=
  { k with served := BitVec.ofNat 32 k.count, count := 0, guar := k.newGuar.getD k.guar, newGuar := none
           weight := k.newWeight.getD k.weight, newWeight := none }

/-- The regulator at the start of the next window. -/
def Qos.nextWindow (q : Qos) : Qos :=
  { q with windows := q.windows + 1, windowUs := q.newWindow.getD q.windowUs, newWindow := none
           classes := q.classes.map QClass.nextWindow }

theorem exec_qosWindowEnd_of_alive {h : HalfId} {busy : BitVec 8} {s : State} (ha : (s.half h).alive = true) :
    exec (.qosWindowEnd h busy) s = .next (s.mod h (fun x =>
      ((List.range 8).foldl (fun y c => y.judgeClass (x.missedIn busy) c) x).modQos Qos.nextWindow)) := by
  rw [exec_qosWindowEnd, execQosWindowEnd]
  refine congrArg Host.Outcome.next (State.mod_congr ?_)
  rw [if_neg (by simp [ha])]
  rfl

/-- Settles O34: the classes are judged one by one, then every class starts its next window. -/
theorem windowEndCountsMisses : Obligations.WindowEndCountsMisses := by
  unfold Obligations.WindowEndCountsMisses
  intro h busy s
  dsimp only
  intro ha hlen
  refine ⟨_, exec_qosWindowEnd_of_alive ha, ?_⟩
  rw [State.mod_same, State.mod_other]
  obtain ⟨hq, hmem, hsched⟩ := (s.half h).judgeClass_range ((s.half h).missedIn busy) (n := 8) (by omega) (by omega)
  generalize (List.range 8).foldl (fun y c => y.judgeClass ((s.half h).missedIn busy) c) (s.half h) = y at hq hmem hsched
  generalize s.half h = x at *
  have hrest : y.qos.windows = x.qos.windows ∧ y.qos.newWindow = x.qos.newWindow ∧ y.qos.windowUs = x.qos.windowUs ∧
      y.qos.ports = x.qos.ports := by
    rw [hq.rest]
    exact ⟨rfl, rfl, rfl, rfl⟩
  obtain ⟨hwin, hnew, hus, hports⟩ := hrest
  refine ⟨congrArg (· + 1) hwin, ?_, hports, fun c hc => ?_, hmem, hsched, rfl⟩
  · simp only [Half.modQos, Qos.nextWindow, Qos.windowNext, hnew, hus]
    simp
  have hcls := Qos.cls_map (r := (y.modQos Qos.nextWindow).qos) (f := QClass.nextWindow) rfl (c := c) (by rw [hq.length]; omega)
  have hirq := hq.irq c
  rw [hcls, hq.cls c (by omega)]
  have hmiss : (c < 8 ∧ x.missedIn busy c = true) ↔ ((x.qos.cls c).guar ≠ 0 ∧ (x.qos.cls c).count < (x.qos.cls c).guar.toNat ∧
      bitAt busy c = true) := by
    simp [Half.missedIn, hc, and_assoc]
  simp only [hmiss] at hirq
  rw [ite_congr_iff hmiss rfl rfl]
  split
  next hm => simp_all [QClass.nextWindow, Half.modQos, Qos.nextWindow]
  next hm => simp_all [QClass.nextWindow, Half.modQos, Qos.nextWindow]

/-! ### Need levels -/

/-- A port but for its need level. -/
def QPort.settings (k : QPort) : QPort := { k with need := 0 }

theorem Qos.settings_modPort_need (q : Qos) (n v p : Nat) :
    ((q.modPort n (fun k => { k with need := v })).port p).settings = (q.port p).settings := by
  by_cases e : p = n
  · subst e
    by_cases hp : p < q.ports.length
    · rw [Qos.port_modPort_same hp]
      rfl
    · rw [Qos.modPort_of_le (by omega)]
  · rw [Qos.port_modPort_ne e]

/-- The buffers' levels change nothing of a port but its need level. -/
theorem Qos.setFill_settings (q : Qos) (f : RtFill) (p : Nat) : ((q.setFill f).port p).settings = (q.port p).settings := by
  simp only [Qos.setFill, List.foldl_cons, List.foldl_nil, Qos.settings_modPort_need]

theorem Qos.setFill_port (q : Qos) (f : RtFill) (p : Nat) : ((q.setFill f).port p).budgetNs = (q.port p).budgetNs ∧
    ((q.setFill f).port p).held = (q.port p).held ∧ ((q.setFill f).port p).late = (q.port p).late :=
  ⟨(congrArg QPort.budgetNs (q.setFill_settings f p) :), (congrArg QPort.held (q.setFill_settings f p) :),
    (congrArg QPort.late (q.setFill_settings f p) :)⟩

theorem Qos.setFill_frame (q : Qos) (f : RtFill) : (q.setFill f).outst = q.outst ∧ (q.setFill f).heldTxns = q.heldTxns ∧
    (q.setFill f).nextTxn = q.nextTxn ∧ (q.setFill f).causes = q.causes :=
  ⟨rfl, rfl, rfl, rfl⟩

/-! ### What a target serves -/

theorem mem_of_findSome?_find? {α β : Type} {l : List β} {f : α → Option β} {cs : List α} {t : β}
    (hf : ∀ c u, f c = some u → u ∈ l) (h : cs.findSome? f = some t) : t ∈ l := by
  obtain ⟨c, _, hc⟩ := List.exists_of_findSome?_eq_some h
  exact hf c t hc

theorem Qos.guaranteed_mem {q : Qos} {g : QTarget} {l : List QTxn} {t : QTxn} (h : q.guaranteed g l = some t) : t ∈ l := by
  cases g with
  | dram n =>
    refine mem_of_findSome?_find? (fun c u hc => ?_) h
    split at hc
    · exact List.mem_of_find?_eq_some hc
    · cases hc
  | _ => cases h

theorem earliest_mem {b : Option Nat} {l : List QTxn} {t : QTxn} (h : earliest b l = some t) : t ∈ l :=
  (List.mem_filter.mp (List.mem_of_find?_eq_some h)).1

theorem Qos.weighted_mem {q : Qos} {l : List QTxn} {n : Nat} {left : List Int} {t : QTxn} {r : List Int}
    (h : q.weighted l n left = some (t, r)) : t ∈ l := by
  induction n generalizing left with
  | zero => cases h
  | succ n ih =>
    unfold Qos.weighted at h
    split at h
    next u hu =>
      cases h
      refine mem_of_findSome?_find? (fun c v hc => ?_) hu
      split at hc
      · exact List.mem_of_find?_eq_some hc
      · cases hc
    next =>
      split at h
      · cases h
      · exact ih h

/-- The transactions of a list that are due within a bound. -/
def dueBy (b : Nat) (l : List QTxn) : List QTxn := l.filter (fun t => t.deadline.any (fun d => (some b).all (fun b => d ≤ b)))

theorem mem_dueBy {b : Nat} {l : List QTxn} {t : QTxn} : t ∈ dueBy b l ↔ t ∈ l ∧ ∃ d, t.deadline = some d ∧ d ≤ b := by
  simp [dueBy, Option.any_eq_true]

/-- A list with an entry has a least one. -/
theorem exists_least {α : Type} (f : α → Nat) {l : List α} {a : α} (ha : a ∈ l) : ∃ m ∈ l, ∀ u ∈ l, f m ≤ f u := by
  induction l generalizing a with
  | nil => cases ha
  | cons b l ih =>
    cases l with
    | nil => exact ⟨b, by simp, by simp⟩
    | cons c l =>
      obtain ⟨m, hm, hmin⟩ := ih (a := c) (by simp)
      by_cases hb : f b ≤ f m
      · exact ⟨b, by simp, List.forall_mem_cons.mpr ⟨Nat.le_refl _, fun u hu => Nat.le_trans hb (hmin u hu)⟩⟩
      · exact ⟨m, by simp [hm], List.forall_mem_cons.mpr ⟨by omega, hmin⟩⟩

/-- The transaction with the earliest deadline within a bound, where one has such a deadline. -/
theorem earliest_min {b : Nat} {l : List QTxn} (h : ∃ o ∈ l, ∃ d, o.deadline = some d ∧ d ≤ b) :
    ∃ t d, earliest (some b) l = some t ∧ t.deadline = some d ∧ ∀ o ∈ l, ∀ e, o.deadline = some e → d ≤ e := by
  obtain ⟨o, hol, d, hod, hdb⟩ := h
  obtain ⟨m, hm, hmin⟩ := exists_least (fun t : QTxn => t.deadline.getD 0) (mem_dueBy.mpr ⟨hol, d, hod, hdb⟩)
  obtain ⟨t, ht⟩ : ∃ t, earliest (some b) l = some t := by
    refine Option.isSome_iff_exists.mp (List.find?_isSome.mpr ⟨m, hm, ?_⟩)
    exact List.all_eq_true.mpr fun u hu => decide_eq_true (hmin u hu)
  obtain ⟨-, e, he, heb⟩ := mem_dueBy.mp (List.mem_of_find?_eq_some ht)
  have hall : ∀ u ∈ dueBy b l, decide (t.deadline.getD 0 ≤ u.deadline.getD 0) = true :=
    List.all_eq_true.mp (List.find?_some (p := fun t : QTxn => (dueBy b l).all fun u => decide
        (t.deadline.getD 0 ≤ u.deadline.getD 0)) ht)
  refine ⟨t, e, ht, he, fun u hu k hk => ?_⟩
  by_cases hkb : k ≤ b
  · have := of_decide_eq_true (hall u (mem_dueBy.mpr ⟨hu, k, hk, hkb⟩))
    rwa [he, hk] at this
  · omega

theorem Half.serves_mem {x : Half} {g : QTarget} {u : QTxn} {left : List Int} (h : x.serves g = some (u, left)) :
    u ∈ x.qos.queued g := by
  unfold Half.serves at h
  dsimp only at h
  split at h
  next t ht =>
    cases h
    split at ht <;> simp only [Option.or_eq_some_iff] at ht
    · rcases ht with (ht | ⟨-, ht⟩) | ⟨-, ht⟩
      · exact earliest_mem ht
      · exact Qos.guaranteed_mem ht
      · exact earliest_mem ht
    · rcases ht with (ht | ⟨-, ht⟩) | ⟨-, ht⟩
      · exact List.mem_of_find?_eq_some ht
      · exact Qos.guaranteed_mem ht
      · exact List.mem_of_find?_eq_some ht
  next => exact Qos.weighted_mem h

/-- In normal service a transaction of urgency 3 goes before every other (R345). -/
theorem Half.serves_urgent {x : Half} {g : QTarget} {u : QTxn} {left : List Int} (h : x.serves g = some (u, left))
    (hc : x.qos.causes = 0) (ho : ∃ o ∈ x.qos.queued g, (x.qos.port o.port).urgency o.port = 3) :
    (x.qos.port u.port).urgency u.port = 3 := by
  obtain ⟨t, ht⟩ : ∃ t, x.qos.urgent 3 (x.qos.queued g) = some t := by
    refine Option.isSome_iff_exists.mp (List.find?_isSome.mpr ?_)
    simpa using ho
  have hu : u = t := by
    simp only [Half.serves, hc, ht] at h
    simp_all
  subst hu
  simpa using List.find?_some ht

/-- In deadline mode one due within 2 µs has no later deadline than any other (R346). -/
theorem Half.serves_earliest {x : Half} {g : QTarget} {u : QTxn} {left : List Int} (h : x.serves g = some (u, left))
    (hc : x.qos.causes ≠ 0) (ho : ∃ o ∈ x.qos.queued g, ∃ d, o.deadline = some d ∧ d ≤ x.now + 2000) :
    ∃ d, u.deadline = some d ∧ ∀ o ∈ x.qos.queued g, ∀ e, o.deadline = some e → d ≤ e := by
  obtain ⟨t, d, ht, hd, hmin⟩ := earliest_min ho
  have hu : u = t := by
    simp only [Half.serves, if_pos hc, ht] at h
    simp_all
  exact ⟨d, hu ▸ hd, hmin⟩

/-! ### Requests and completions of transactions -/

/-- The transaction that a request makes. -/
def Qos.request (q : Qos) (port c blocks : Nat) (cmd : Option Nat) (g : QTarget) : QTxn :=
  { id := q.nextTxn, port := port, cls := c, blocks := blocks, cmd := cmd, target := g }

/-- The next transaction's number has been given out. -/
def Qos.numbered (q : Qos) : Qos := { q with nextTxn := q.nextTxn + 1 }

/-- The regulator with a transaction held at its port's limit (R352). -/
def Qos.holdTxn (q : Qos) (t : QTxn) : Qos :=
  { (q.modPort t.port (fun k => { k with held := k.held + 1 })) with heldTxns := q.heldTxns ++ [t] }

/-- What a request for a transaction at its port's limit makes of the half; a command's port that holds it may count towards R354. -/
def Half.holdTxn (x : Half) (t : QTxn) : Half :=
  let y := x.modQos (fun q => q.holdTxn t)
  match t.cmd with
  | some n => if t.port < 18 then y.took.modCmd n (fun k => { k with held10 := k.held10 || Config.freeNat y.seed 1 % 2 = 1 }) else y
  | none => y

theorem Half.holdTxn_frame (x : Half) (t : QTxn) : (x.holdTxn t).qos = x.qos.holdTxn t ∧ (x.holdTxn t).mem = x.mem := by
  unfold Half.holdTxn
  (repeat' split) <;> exact ⟨rfl, rfl⟩

theorem Qos.numbered_counts (q : Qos) (p c : Nat) : q.numbered.outCount p c = q.outCount p c ∧ q.numbered.limit p c = q.limit p c :=
  ⟨rfl, rfl⟩

theorem exec_portTransactionRequest_of_class {h : HalfId} {port blocks c : Nat} {turn : QTurn} {cmd core : Option Nat} {s : State}
    (ha : (s.half h).alive = true) (hp : port < 38) (hb : blocks ≤ 4) (hc : (s.half h).txnClass port cmd core = some c) :
    exec (.portTransactionRequest h port blocks turn cmd core) s = .next (s.mod h (fun x =>
      let y := x.modQos (fun q => q.setFill turn.fill)
      let z := y.modQos Qos.numbered
      let t := y.qos.request port c blocks cmd turn.target
      if y.qos.outCount port c < y.qos.limit port c then z.issue t else z.holdTxn t)) := by
  rw [exec_portTransactionRequest]
  unfold execPortTransactionRequest
  refine congrArg Host.Outcome.next (State.mod_congr ?_)
  rw [hc]
  dsimp only
  rw [if_neg (by simp [ha]; omega)]
  generalize (s.half h).modQos (fun q => q.setFill turn.fill) = y
  obtain ⟨hout, hlim⟩ := y.qos.numbered_counts port c
  refine ite_congr_iff (by rw [← hout, ← hlim]; rfl) rfl ?_
  cases cmd <;> rfl

/-- With nothing held, a completion leaves nothing to release. -/
theorem Half.releaseHeld_nil {x : Half} (hx : x.qos.heldTxns = []) : x.releaseHeld = x.modQos (fun q => { q with heldTxns := [] }) := by
  simp [Half.releaseHeld, hx]

/-- The blocks of a transaction that count for the window (R355). -/
def QTxn.dram (t : QTxn) : Nat :=
  match t.target with
  | .dram _ => t.blocks
  | _ => 0

theorem QTxn.dram_of_dram {t : QTxn} (h : ∃ n, t.target = .dram n) : t.dram = t.blocks := by
  obtain ⟨n, hn⟩ := h
  rw [QTxn.dram, hn]

theorem QTxn.dram_of_ne {t : QTxn} (h : ∀ n, t.target ≠ .dram n) : t.dram = 0 := by
  cases ht : t.target with
  | dram n => exact absurd ht (h n)
  | slice n => rw [QTxn.dram, ht]
  | network => rw [QTxn.dram, ht]

/-- The regulator after a transaction has left its target. -/
def Qos.finishTxn (q : Qos) (t : QTxn) (late : Bool) : Qos :=
  let q := { (q.modCls t.cls (fun k => { k with count := k.count + t.dram })) with outst := q.outst.filter (fun u => u.id ≠ t.id) }
  if late then
    let q := q.modPort t.port (fun k => { k with late := k.late + 1 })
    { q with irqStatus := setBit q.irqStatus 8 }
  else q

theorem Half.finishTxn_frame (x : Half) (t : QTxn) :
    (x.finishTxn t).qos = x.qos.finishTxn t (t.deadline.any (fun d => d < x.now)) ∧
    (x.finishTxn t).mem = x.mem ∧ (x.finishTxn t).sched = x.sched := by
  unfold Half.finishTxn
  dsimp only
  split
  next hl =>
    refine ⟨?_, by simp, by simp⟩
    rw [Half.qosEvent_qos, Qos.finishTxn, hl]
    rfl
  next hl =>
    refine ⟨?_, rfl, rfl⟩
    rw [Qos.finishTxn, Bool.eq_false_iff.mpr hl]
    rfl

theorem exec_portTransactionComplete_of_alive {h : HalfId} {turn : QTurn} {s : State} (ha : (s.half h).alive = true) :
    (∀ t left, ((s.half h).modQos (fun q => q.setFill turn.fill)).serves turn.target = some (t, left) →
      exec (.portTransactionComplete h turn) s = .next (s.mod h (fun x => ((x.modQos (fun q =>
        { q.setFill turn.fill with
          credits := { target := turn.target, left := left } :: q.credits.filter
              (fun k => k.target ≠ turn.target) })).finishTxn t).releaseHeld))) ∧
    (((s.half h).modQos (fun q => q.setFill turn.fill)).serves turn.target = none →
      exec (.portTransactionComplete h turn) s = .next (s.mod h (fun x => x.modQos (fun q => q.setFill turn.fill)))) := by
  rw [exec_portTransactionComplete]
  unfold execPortTransactionComplete
  refine ⟨fun t left hs => congrArg Host.Outcome.next (State.mod_congr ?_), fun hs => congrArg Host.Outcome.next (State.mod_congr ?_)⟩
  · rw [if_neg (by simp [ha])]
    dsimp only
    rw [hs]
    rfl
  · rw [if_neg (by simp [ha])]
    dsimp only
    rw [hs]

theorem Half.issue_frame (x : Half) (t : QTxn) : (x.issue t).qos.outst = x.qos.outst ++ [{ t with deadline :=
      (if isRtPort t.port = true ∧ x.qos.causes ≠ 0 then some (x.now + (x.qos.port t.port).budgetNs.toNat) else none) }] ∧
    (x.issue t).qos.heldTxns = x.qos.heldTxns ∧ (x.issue t).sched = x.sched ∧ (x.issue t).mem = x.mem := by
  refine ⟨?_, rfl, rfl, rfl⟩
  simp [Half.issue, Half.modQos]

theorem Qos.finishTxn_txns (q : Qos) (t : QTxn) (b : Bool) :
    (q.finishTxn t b).outst = q.outst.filter (fun u => u.id ≠ t.id) ∧ (q.finishTxn t b).heldTxns = q.heldTxns := by
  unfold Qos.finishTxn
  dsimp only
  split <;> exact ⟨rfl, rfl⟩

theorem Qos.finishTxn_count {q : Qos} {t : QTxn} (hc : t.cls < q.classes.length) (b : Bool) :
    ((q.finishTxn t b).cls t.cls).count = (q.cls t.cls).count + t.dram := by
  have h := congrArg QClass.count (Qos.cls_modCls_same hc (fun k => { k with count := k.count + t.dram }))
  unfold Qos.finishTxn
  dsimp only
  split <;> exact h

theorem Qos.finishTxn_late (q : Qos) (t : QTxn) (b : Bool) :
    ((q.finishTxn t b).port t.port).late = (q.port t.port).late + (if t.port < q.ports.length ∧ b = true then 1 else 0) := by
  unfold Qos.finishTxn
  cases b with
  | false => simp [Qos.port, Qos.modCls]
  | true =>
    by_cases hp : t.port < q.ports.length
    · simp [Qos.port, Qos.modPort, Qos.modCls, hp]
    · simp [Qos.port, Qos.modPort, Qos.modCls, hp]

/-- Settles O35: a request by its port's limit, a completion by what the target serves. -/
theorem transactionsStayWithinLimits : Obligations.TransactionsStayWithinLimits := by
  unfold Obligations.TransactionsStayWithinLimits
  intro h port blocks c target fill cmd core s
  dsimp only
  intro ha hlen
  obtain ⟨foutst, fheld, fnext, fcauses⟩ := (s.half h).qos.setFill_frame fill
  have fclasses := (s.half h).qos.setFill_classes fill
  have fports := (s.half h).qos.setFill_ports_length fill
  have fport := (s.half h).qos.setFill_port fill
  refine ⟨fun hp hb hc => ?_, fun u left hs hheld => ?_, fun hs => ?_, fun u left hs => ?_⟩
  · rw [exec_portTransactionRequest_of_class ha hp hb hc]
    obtain ⟨hbudget, hheld, -⟩ := fport port
    refine ⟨fun hlim => ⟨_, rfl, ?_⟩, fun hlim => ⟨_, rfl, ?_⟩⟩
    · rw [State.mod_same]
      dsimp only [Half.modQos]
      rw [if_pos hlim]
      generalize (s.half h).qos.setFill fill = q at *
      obtain ⟨iout, iheld, isched, imem⟩ := Half.issue_frame { s.half h with qos := q.numbered } (q.request port c blocks cmd target)
      refine ⟨iout.trans ?_, iheld.trans fheld, isched, imem⟩
      rw [← foutst, ← fnext, ← fcauses, ← hbudget]
      rfl
    · rw [State.mod_same]
      dsimp only [Half.modQos]
      rw [if_neg (Nat.not_lt.mpr hlim)]
      generalize (s.half h).qos.setFill fill = q at *
      obtain ⟨hqos, hmem⟩ := Half.holdTxn_frame { s.half h with qos := q.numbered } (q.request port c blocks cmd target)
      rw [hqos, hmem, ← foutst, ← fheld, ← fnext, ← hheld]
      exact ⟨rfl, congrArg QPort.held (Qos.port_modPort_same (q := q.numbered) (by exact fports ▸ hlen ▸ hp) _), rfl, rfl⟩
  · rw [(exec_portTransactionComplete_of_alive (turn := { target := target, fill := fill }) ha).1 u left hs]
    refine ⟨_, rfl, ?_⟩
    rw [State.mod_same]
    dsimp only [Half.modQos]
    generalize (s.half h).qos.setFill fill = q at *
    let q' : Qos := { q with credits := { target := target, left := left } :: (s.half h).qos.credits.filter (fun k => k.target ≠ target) }
    obtain ⟨hqos, hmem, hsched⟩ := Half.finishTxn_frame { s.half h with qos := q' } u
    obtain ⟨hout, hleft⟩ := q'.finishTxn_txns u (u.deadline.any (fun d => d < (s.half h).now))
    rw [Half.releaseHeld_nil ((congrArg Qos.heldTxns hqos).trans (hleft.trans (fheld.trans hheld)))]
    dsimp only [Half.modQos]
    rw [hqos]
    refine ⟨hout.trans (by rw [← foutst]), fun hc => ?_, ?_, hmem, hsched⟩
    · have hcount := Qos.finishTxn_count (q := q') (t := u) (by rw [← fclasses] at hc; exact hc) (u.deadline.any (fun d => d <
        (s.half h).now))
      have hcls : q'.cls u.cls = (s.half h).qos.cls u.cls := by
        rw [Qos.cls, Qos.cls, ← fclasses]
      rw [hcls] at hcount
      exact ⟨fun hd => hcount.trans (by rw [QTxn.dram_of_dram hd]), fun hd => hcount.trans (by rw [QTxn.dram_of_ne hd, Nat.add_zero])⟩
    · have hlate := q'.finishTxn_late u (u.deadline.any (fun d => d < (s.half h).now))
      have hlen' : q'.ports.length = 38 := fports.trans hlen
      rw [hlen', show (q'.port u.port).late = _ from (fport u.port).2.2] at hlate
      exact hlate
  · exact (exec_portTransactionComplete_of_alive ha).2 hs
  · have hmem : ∀ o, o ∈ (s.half h).qos.queued target ↔ o ∈ (s.half h).qos.outst ∧ o.target = target := by
      simp [Qos.queued]
    have hu := (hmem u).mp (Half.serves_mem hs)
    refine ⟨hu.1, hu.2, fun hc ⟨o, ho, hot, hou⟩ => ?_, fun hc ⟨o, ho, hot, hod⟩ => ?_⟩
    · exact Half.serves_urgent hs hc ⟨o, (hmem o).mpr ⟨ho, hot⟩, hou⟩
    · obtain ⟨d, hd, hmin⟩ := Half.serves_earliest hs hc ⟨o, (hmem o).mpr ⟨ho, hot⟩, hod⟩
      exact ⟨d, hd, fun o ho hot => hmin o ((hmem o).mpr ⟨ho, hot⟩)⟩

end Sys2Proof.Machine
end

section
/-! PROOFS. Core registers and apertures (spec/14_cores.md). -/

namespace Sys2Proof.Machine
open Sys2Proof.Laws.Memory

/-! ### The registers of the cores -/

theorem Half.modApp_app (x : Half) (n : Nat) (f : AppCore → AppCore) :
    (x.modApp n f).cores.app[n]? = (x.cores.app[n]?).map f ∧ ∀ k, k ≠ n → (x.modApp n f).cores.app[k]? = x.cores.app[k]? := by
  refine ⟨by simp [Half.modApp], fun k hk => ?_⟩
  simp [Half.modApp, hk.symm]

/-- Settles O36: each register's own guard. -/
theorem coreRegistersFollowRules : Obligations.CoreRegistersFollowRules := by
  unfold Obligations.CoreRegistersFollowRules
  intro h n v s
  dsimp only
  refine ⟨fun hr hn hc => ?_, fun hr hc => ?_, fun hr hn => ⟨fun hm => ?_, fun hm => ?_⟩, fun hr hn => ?_⟩
  · rw [exec_nvctxWrite, execNvctxWrite]
    refine ⟨_, rfl, ?_⟩
    rw [State.mod_same, if_neg (by simp [hr]), if_neg (by rw [Option.isNone_eq_false_iff.mpr hc]; exact Bool.false_ne_true)]
    obtain ⟨hsame, hne⟩ := (s.half h).modApp_app n (fun k => { k with nvctx := v.extractLsb' 0 12, nvctxValid := bitAt v 16 })
    exact ⟨hsame, hne, rfl, rfl⟩
  · rw [exec_nvctxWrite, execNvctxWrite]
    refine congrArg Host.Outcome.next (State.mod_congr ?_)
    rw [if_neg (by simp [hr])]
    exact if_pos (by simp [hc])
  · rw [exec_nvclassWrite, execNvclassWrite]
    refine ⟨_, rfl, ?_⟩
    rw [State.mod_same, if_neg (by simp [hr])]
    dsimp only
    rw [if_pos hm]
    obtain ⟨hsame, hne⟩ := (s.half h).modApp_app n (fun k => { k with nvclass := v.extractLsb' 0 3 })
    exact ⟨hsame, hne, rfl⟩
  · rw [exec_nvclassWrite, execNvclassWrite]
    refine congrArg Host.Outcome.next (State.mod_congr ?_)
    rw [if_neg (by simp [hr])]
    exact if_neg (Bool.eq_false_iff.mp hm)
  · rw [exec_mtimeCompare, execMtimeCompare]
    refine ⟨_, rfl, ?_⟩
    rw [State.mod_same, if_pos hr]
    exact ⟨(s.half h).modPair_same n _ hn, fun k hk => (s.half h).modPair_ne n k _ hk, rfl, rfl⟩

/-! ### Apertures -/

/-- A READ_ONLY page lies among those of a range. -/
def Half.someRo (x : Half) (c va n : Nat) : Bool := ((pagesOf va n).map (fun p => x.tptOf c p)).any (fun t => t.any (fun t => t.ro))

/-- A sync page lies among those of a range. -/
def Half.someSync (x : Half) (c va n : Nat) : Bool := ((pagesOf va n).map (fun p => x.tptOf c p)).any (fun t => t.any Tpt.isSync)

theorem Half.someRo_iff (x : Half) (c va n : Nat) :
    x.someRo c va n = true ↔ ∃ p ∈ pagesOf va n, (x.tptOf c p).any (fun t => t.ro) = true := by
  simp [Half.someRo]

theorem Half.someSync_iff (x : Half) (c va n : Nat) :
    x.someSync c va n = true ↔ ∃ p ∈ pagesOf va n, (x.tptOf c p).any Tpt.isSync = true := by
  simp [Half.someSync]

theorem Half.writable_iff (x : Half) (c va n : Nat) : x.writable c va n = true ↔
    x.mapped c va n = true ∧ x.someRo c va n = false ∧ x.someSync c va n = false := by
  rw [Bool.eq_false_iff, Bool.eq_false_iff, Ne, Ne, Half.someRo_iff, Half.someSync_iff]
  simp only [Half.writable, Half.mapped, Bool.and_eq_true, List.all_eq_true, not_exists, not_and, Bool.not_eq_true]
  refine ⟨fun ⟨hv, hp⟩ => ⟨⟨hv, fun p hm => ?_⟩, fun p hm => ?_, fun p hm => ?_⟩, fun ⟨⟨hv, hs⟩, hr, hy⟩ => ⟨hv, fun p hm => ?_⟩⟩
  · have := hp p hm
    split at this <;> simp_all
  · have := hp p hm
    split at this <;> simp_all
  · have := hp p hm
    split at this <;> simp_all
  · obtain ⟨t, ht⟩ := Option.isSome_iff_exists.mp (hs p hm)
    have h1 := hr p hm
    have h2 := hy p hm
    simp_all

section
variable {s : State} {h : HalfId} {ap : Aperture} {addr size v c va : Nat}

theorem State.apLoad_of_none (hr : (s.half h).apRuns ap = true) (ht : ∀ p, ap ≠ .tcm p) (ha : (s.half h).apAddr ap addr size = none) :
    s.apLoad h ap addr size = .next { s with resp := .accessFault } ∧
    s.apStore h ap addr size v = .next { s with resp := .accessFault } := by
  cases ap with
  | tcm p => exact absurd rfl (ht p)
  | _ =>
    simp only [State.apLoad, State.apStore, hr, ha]
    exact ⟨rfl, rfl⟩

theorem State.apLoad_of_addr (hr : (s.half h).apRuns ap = true) (ht : ∀ p, ap ≠ .tcm p)
    (ha : (s.half h).apAddr ap addr size = some (c, va)) :
    ((s.half h).mapped c va size = false → s.apLoad h ap addr size = .next { s with resp := .accessFault }) ∧
    ((s.half h).mapped c va size = true →
      ((s.half h).firstBad c [(va, size)] = none → s.apLoad h ap addr size =
        .next { (s.setHalf h ((s.half h).touchReads c [(va, size)])) with resp := .data ((s.half h).vnat c va size) }) ∧
      (∀ b, (s.half h).firstBad c [(va, size)] = some b →
        s.apLoad h ap addr size = .next { (s.setHalf h ((s.half h).apError c b)) with resp := .accessFault })) := by
  cases ap with
  | tcm p => exact absurd rfl (ht p)
  | _ =>
    simp only [State.apLoad, hr, ha]
    refine ⟨fun hm => by simp [hm], fun hm => ⟨fun hb => by simp [hm, hb], fun b hb => by simp [hm, hb]⟩⟩

theorem State.apStore_of_addr (hr : (s.half h).apRuns ap = true) (ht : ∀ p, ap ≠ .tcm p)
    (ha : (s.half h).apAddr ap addr size = some (c, va)) :
    ((s.half h).mapped c va size = false ∨ (s.half h).someRo c va size = true →
      s.apStore h ap addr size v = .next { s with resp := .accessFault }) ∧
    ((s.half h).mapped c va size = true → (s.half h).someRo c va size = false →
      ((s.half h).someSync c va size = true → s.apStore h ap addr size v =
        .next { (s.setHalf h ((s.half h).coreVio (Aperture.agent ap) 5 va (apBase ap + addr))) with resp := .dropped }) ∧
      ((s.half h).someSync c va size = false →
        ((s.half h).firstBad c [(va, size)] = none →
          let ws := placeBytes va (leBytes size v)
          s.apStore h ap addr size v = .next { (s.setHalf h (((s.half h).noteRaces
              (s.half h).sched.nextCmd.succ c ws).commitBytes c ws)) with
            resp := .ok }) ∧
        (∀ b, (s.half h).firstBad c [(va, size)] = some b →
          s.apStore h ap addr size v = .next { (s.setHalf h ((s.half h).apError c b)) with resp := .accessFault }))) := by
  unfold Half.someRo Half.someSync
  cases ap with
  | tcm p => exact absurd rfl (ht p)
  | _ =>
    simp only [State.apStore, hr, ha]
    refine ⟨fun hm => ?_, fun hm hro => ⟨fun hy => ?_, fun hy => ⟨fun hb => ?_, fun b hb => ?_⟩⟩⟩
    · rw [if_neg (by simp), if_pos]
      rcases hm with hm | hm <;> simp [hm]
    · simp only [hm, hro, hy]
      rfl
    · simp only [hm, hro, hy, hb]
      rfl
    · simp only [hm, hro, hy, hb]
      rfl
end

/-- Settles O37: what the aperture's address and its pages allow. -/
theorem aperturesReachTheirContext : Obligations.AperturesReachTheirContext := by
  unfold Obligations.AperturesReachTheirContext
  intro h by' ap at' addr size v c va s
  dsimp only
  rw [exec_apertureLoad, exec_apertureStore]
  unfold execApertureLoad execApertureStore
  refine ⟨fun hr hat hctl => ?_, fun hat hr => ?_⟩
  · rw [hat]
    dsimp only
    rw [if_pos (by simp [hr, hctl])]
    exact ⟨rfl, rfl⟩
  rw [hat]
  dsimp only
  refine ⟨fun ht ha => ?_, fun ht ha => State.apLoad_of_none hr ht ha, fun p hp => ?_⟩
  · obtain ⟨lnone, lsome⟩ := State.apLoad_of_addr hr ht ha
    obtain ⟨snone, ssome⟩ := State.apStore_of_addr (v := v) hr ht ha
    have hro : (∀ p ∈ pagesOf va size, ((s.half h).tptOf c p).any (fun t => t.ro) = false) →
        (s.half h).someRo c va size = false := fun k =>
      Bool.eq_false_iff.mpr fun e => by
        obtain ⟨p, hp, hpr⟩ := ((s.half h).someRo_iff c va size).mp e
        simp [k p hp] at hpr
    refine ⟨fun hm hb => (lsome hm).1 hb, fun hw hb => ?_, fun b hb => ⟨fun hm => (lsome hm).2 b hb, fun hw => ?_⟩, fun hm hr' hy => ?_,
      fun hm => ?_, lnone⟩
    · obtain ⟨hm, hr', hy⟩ := ((s.half h).writable_iff c va size).mp hw
      exact ((ssome hm hr').2 hy).1 hb
    · obtain ⟨hm, hr', hy⟩ := ((s.half h).writable_iff c va size).mp hw
      exact ((ssome hm hr').2 hy).2 b hb
    · exact (ssome hm (hro hr')).1 (((s.half h).someSync_iff c va size).mpr hy)
    · exact snone (hm.imp_right ((s.half h).someRo_iff c va size).mpr)
  · subst hp
    simp only [State.apLoad, State.apStore, hr, Bool.not_true, Bool.false_eq_true, if_false]
    exact ⟨fun hl => ⟨if_neg (by omega), if_neg (by omega)⟩, fun hl => ⟨if_pos hl, if_pos hl⟩⟩

end Sys2Proof.Machine
end

section
/-! PROOFS. Decodes and captures (spec/08_input_pipeline.md). -/

namespace Sys2Proof.Machine
open Sys2Proof.Laws.Memory

/-! ### Decodes, budgets and deadlines of the input pipeline -/

/-- Settles O38: each event's guard is met, and its slot is the batch's. -/
theorem pipelineEventsComplete : Obligations.PipelineEventsComplete := by
  unfold Obligations.PipelineEventsComplete
  intro h n i s b k
  dsimp only
  intro ha hb hk
  refine ⟨fun hd => ⟨?_, fun t ht hdue => ?_⟩, fun e d r hsw hr hdue hn hi hp => ?_, fun c hc hw hst hdue => ?_⟩
  · rw [exec_decodeComplete]
    unfold execDecodeComplete
    refine congrArg (fun y => Host.Outcome.next (s.setHalf h y)) ?_
    dsimp only
    rw [hb, hk]
    dsimp only
    rw [if_neg (by simp [ha, hd])]
    simp only [Bool.and_eq_true, decide_eq_true_eq]
  · rw [exec_sampleBudgetExpiry]
    unfold execSampleBudgetExpiry
    refine congrArg Host.Outcome.next (State.mod_congr ?_)
    rw [hb, hk]
    dsimp only
    rw [if_pos (by simp only [ha, hd, ht, Half.since, Option.any_some, Bool.and_true]; simpa using hdue)]
    rfl
  · subst hn hi
    rw [exec_swdecDeadlineExpiry]
    unfold execSwdecDeadlineExpiry
    refine congrArg Host.Outcome.next (State.mod_congr ?_)
    rw [hsw, Option.bind_some, hr]
    dsimp only
    rw [if_neg (by simp [ha, hdue]), if_pos (by simp [hk, hp])]
    rfl
  · rw [exec_batchBudgetExpiry]
    unfold execBatchBudgetExpiry
    refine congrArg Host.Outcome.next (State.mod_congr ?_)
    rw [hc, hb]
    dsimp only
    exact if_neg (by simp [ha, hw, hst, Half.since, hdue])

/-! ### What a commit and a capture leave -/

/-- A commit changes neither the pipeline nor the commands in flight nor the page table. -/
theorem Half.commitBytes_pipe (x : Half) (ctx : Nat) (ws : List (Nat × Byte)) :
    (x.commitBytes ctx ws).sched.pipe = x.sched.pipe ∧ (x.commitBytes ctx ws).sched.cmds = x.sched.cmds ∧
    (x.commitBytes ctx ws).mem.tpt = x.mem.tpt := by
  have hnote : (x.noteWritten ctx ws).sched = x.sched := by
    unfold Half.noteWritten
    split <;> rfl
  have hmend : ∀ y : Half, (y.mendBlocks ctx ws).sched = y.sched := fun y => by
    unfold Half.mendBlocks
    split <;> rfl
  have hhot : ∀ y : Half, (y.dropHot ctx ws).sched.pipe = y.sched.pipe ∧ (y.dropHot ctx ws).sched.cmds = y.sched.cmds := fun y => by
    unfold Half.dropHot
    split <;> exact ⟨rfl, rfl⟩
  have hready : (x.commitReady ctx ws).sched.pipe = x.sched.pipe ∧ (x.commitReady ctx ws).sched.cmds = x.sched.cmds := by
    obtain ⟨hpipe, hcmds⟩ := hhot ((x.noteWritten ctx ws).mendBlocks ctx ws)
    rw [hmend, hnote] at hpipe hcmds
    exact ⟨hpipe, hcmds⟩
  have hput := (x.commitReady ctx ws).sameButCells_vputs ctx ws
  have hsched := hput.sched
  have htpt := hput.tpt
  exact ⟨(congrArg Sched.pipe hsched).trans hready.1, (congrArg Sched.cmds hsched).trans hready.2,
    htpt.trans (x.commitReady_frame ctx ws).2.1⟩

/-- A flag in bit 1. -/
theorem two_b2n {a : Bool} {p : Prop} [Decidable p] (h : a = true ↔ p) : 2 * b2n a = if p then 2 else 0 := by
  by_cases hp : p
  · rw [if_pos hp, h.2 hp]
    rfl
  · rw [if_neg hp, show a = false from Bool.eq_false_iff.2 (mt h.1 hp)]
    rfl

/-- What a change of binding n leaves, and what it makes of the bindings. -/
theorem Half.modBinding_frame (x : Half) (n : Nat) (f : Binding → Binding) :
    (x.modBinding n f).sched.cmds = x.sched.cmds ∧ (x.modBinding n f).mem = x.mem ∧
    (x.modBinding n f).sched.pipe.bindings = x.sched.pipe.bindings.map (fun b => if b.num = n then f b else b) :=
  ⟨rfl, rfl, rfl⟩

theorem Half.dropCaptures_frame (x : Half) (b : Binding) (n : Nat) :
    (x.dropCaptures b n).sched.pipe.bindings = x.sched.pipe.bindings.map
      (fun k => if k.num = b.num then { k with dropped := b.dropped + BitVec.ofNat 32 n } else k) ∧
    (x.dropCaptures b n).sched.cmds = x.sched.cmds ∧ (x.dropCaptures b n).mem.tpt = x.mem.tpt := by
  unfold Half.dropCaptures
  dsimp only
  obtain ⟨hpipe, hcmds, htpt⟩ := Half.commitBytes_pipe (x.modBinding b.num (fun k =>
      { k with dropped := b.dropped + BitVec.ofNat 32 n })) b.ctx
    (placeBytes (b.ring + 8) (leBytes 4 (b.dropped + BitVec.ofNat 32 n).toNat))
  exact ⟨congrArg Pipe.bindings hpipe, hcmds, htpt⟩

theorem Half.putCapture_frame {x : Half} {b : Binding} (e : Entry) (hx : x.entryHeld b = false) :
    (x.putCapture b e).sched.pipe.bindings = x.sched.pipe.bindings.map
      (fun k => if k.num = b.num then { k with produced := b.produced + 1, droppedLast := k.dropped } else k) ∧
    (x.putCapture b e).sched.cmds = x.sched.cmds ∧ (x.putCapture b e).mem.tpt = x.mem.tpt := by
  unfold Half.putCapture
  rw [if_neg (by simp [hx])]
  dsimp only [Half.modBinding, Half.modPipe]
  simp only [Half.commitBytes_pipe, and_self]

/-- What a change of the binding with a number makes of that binding and of the others. -/
theorem mem_of_mem_bindings_map {l : List Binding} {n : Nat} {f : Binding → Binding} {d : Binding}
    (hd : d ∈ l.map (fun k => if k.num = n then f k else k)) (hf : ∀ k, (f k).num = k.num) :
    (d.num = n → ∃ k ∈ l, k.num = n ∧ d = f k) ∧ (d.num ≠ n → d ∈ l) := by
  obtain ⟨k, hk, rfl⟩ := List.mem_map.mp hd
  by_cases e : k.num = n
  · rw [if_pos e]
    exact ⟨fun _ => ⟨k, hk, e, rfl⟩, fun hne => absurd ((hf k).trans e) hne⟩
  · rw [if_neg e]
    exact ⟨fun hn => absurd hn e, fun _ => hk⟩

/-! ### What a receiver, a flow and the link make of a capture -/

section
variable {h : HalfId} {c : Capture} {s : State} {b : Binding}

theorem exec_captureWrite_camera (ha : (s.half h).alive = true) (hc : c.source < 8) :
    exec (.captureWrite h c) s = .next (s.csiCapture h c) := by
  rw [exec_captureWrite, execCaptureWrite, if_neg (by simp [ha]), if_pos hc]

theorem exec_captureWrite_flow (ha : (s.half h).alive = true) (h1 : 0x20 ≤ c.source) (h2 : c.source ≤ 0x3F) :
    exec (.captureWrite h c) s = .next (s.flowCapture h c.source) := by
  rw [exec_captureWrite, execCaptureWrite, if_neg (by simp [ha]), if_neg (by omega), if_pos (by simp [h1, h2])]

/-- The half that has taken what a camera's receiver saw: the camera is attached and its failed packets are violations (R203). -/
def Half.received (x : Half) (c : Capture) (long : Bool) : Half :=
  let y := (x.ptnFixed c.source c.source 0).modPartner c.source (fun p => { p with awaitFirst := false })
  (((y.csiVio c.source 0x01 1 c.ecc).csiVio c.source 0x01 2 c.crc).csiVio c.source 0x02 1 (b2n c.cut)).csiVio c.source 0x02 2 (b2n long)

theorem State.csiCapture_of_binding (hs : (s.half h).ptn.sites = false) (hq : ((s.half h).partner c.source).st ≠ .quarantined)
    {kind : Nat}
    (hk : csiKind (c.select / 16) = some kind)
    (hb : (((s.half h).ptnFixed c.source c.source 0).modPartner c.source (fun p =>
        { p with awaitFirst := false })).sourceBinding c.source =
      some b) (hsel : b.select = c.select) :
    s.csiCapture h c =
      let data := storedData kind c.data
      let long := decide (b.slotBytes < data.length)
      let z := (s.half h).received c long
      if (z.partner c.source).st = .quarantined then s.setHalf h z
      else if z.sched.pipe.sideReset || !(z.link 16).works then (s.setHalf h z).mod h (fun w => w.dropCaptures b 1)
      else (s.setHalf h z).captured h b { kind := kind, flags := 4 * b2n (decide (0 < c.ecc + c.crc)) + 2 * b2n (c.cut || long)
                                          time := c.time, mediaTs := 0, w := c.w, h := c.h, data := data } := by
  unfold State.csiCapture
  dsimp only
  rw [if_neg (by simp [hs, hq]), hk, hb]
  exact if_neg (by simp [hsel])

theorem State.flowCapture_of_binding {pre post : List Capture} {k : Capture} {source : Nat}
    (hw : (s.half h).sched.pipe.whole = pre ++ k :: post) (hpre : ∀ p ∈ pre, p.source ≠ source) (hk : k.source = source)
    (hb : (s.half h).sourceBinding source = some b) (hsel : b.select = k.select) (hr : (s.half h).sched.pipe.sideReset = false) :
    s.flowCapture h source = (s.mod h (fun y => y.modPipe (fun p => { p with whole := pre ++ post }))).captured h b
      { kind := if k.select = 0 then 0x11 else 0x10, flags := if k.cut = true ∨ b.slotBytes < k.data.length then 2 else 0
        time := k.time, mediaTs := k.mediaTs, w := 0, h := 0, data := k.data } := by
  have hfirst := takeFirst_append (f := fun c : Capture => if c.source = source then some c else none) (post := post)
    (fun m hm => if_neg (hpre m hm)) (if_pos hk)
  have hflags : 2 * b2n (k.cut || decide (b.slotBytes < k.data.length)) = if k.cut = true ∨ b.slotBytes < k.data.length then 2 else 0 :=
    two_b2n (by simp)
  unfold State.flowCapture
  rw [hw, hfirst, hb]
  dsimp only
  rw [if_neg (by simp [hsel]), if_neg, hflags]
  rw [State.mod_same]
  simp [Half.modPipe, hr]

theorem exec_forwardedCaptureReceive_of_first {src kind flags time ts w hh q : Nat} {data : List Byte} {rest : List LinkMsg}
    (hout : (s.half (other h)).links.outbox = .capture src kind flags time ts w hh q data :: rest)
    (ha : (s.half h).alive = true) (hup : (s.half h).handoffUp = true) (hr : (s.half h).sched.pipe.sideReset = false)
    (hseq : ∀ v, seqOf (s.half h).links.fwdSeen src = some v → v = q) (hb : (s.half h).sourceBinding (0x40 + src) = some b) :
    exec (.forwardedCaptureReceive h) s =
      .next ((s.mod (other h) (fun o => { o with links := { o.links with outbox := rest } })).mod h (fun y =>
        ({ y with links := { y.links with fwdSeen := setSeq y.links.fwdSeen src (q + 1) } } : Half).putCapture b
          { kind := kind, time := time, mediaTs := ts, w := w, h := hh, data := data
            flags := flags + 8 + (if b.slotBytes < data.length ∧ flags / 2 % 2 = 0 then 2 else 0) })) := by
  have hgap : q - (seqOf (s.half h).links.fwdSeen src).getD q = 0 := by
    cases hs : seqOf (s.half h).links.fwdSeen src with
    | none => simp
    | some v => simp [hseq v hs]
  have hflags : 2 * b2n (decide (b.slotBytes < data.length) && flags / 2 % 2 = 0) =
      if b.slotBytes < data.length ∧ flags / 2 % 2 = 0 then 2 else 0 :=
    two_b2n (by simp)
  rw [exec_forwardedCaptureReceive]
  unfold execForwardedCaptureReceive
  dsimp only
  rw [Half.takeOut_first (pre := []) (b := (src, q, { kind := kind, flags := flags, time := time, mediaTs := ts, w := w, h := hh, data
      := data }))
    hout ?_ ?_ ?_]
  rotate_left
  · exact fun k hk => absurd hk List.not_mem_nil
  · rfl
  · exact .inr (fun k hk => absurd hk List.not_mem_nil)
  dsimp only
  rw [if_neg (by simp [ha, hup])]
  refine congrArg Host.Outcome.next (State.mod_congr ?_)
  rw [State.setHalf_at_other]
  have hb' : ({ s.half h with
      links := { (s.half h).links with fwdSeen := setSeq (s.half h).links.fwdSeen src (q + 1) } } : Half).sourceBinding (0x40 + src) =
      some b := hb
  rw [hb']
  dsimp only
  rw [if_pos hgap, hb']
  dsimp only
  rw [if_neg (by simp [hr]), hflags]
end

/-- Settles O39: the receiver's guards, then the ring's. -/
theorem capturesReachTheirRings : Obligations.CapturesReachTheirRings := by
  unfold Obligations.CapturesReachTheirRings
  refine ⟨fun h c s b => ?_, fun x b e hb huniq => ⟨fun hx => ?_, fun hx => ?_, fun d hd hne => ?_⟩⟩
  · dsimp only
    intro ha
    refine ⟨fun hc hs hq kind hk hb hsel => ?_, fun hc hq => ?_, fun pre k post h1 h2 hw hpre hk hb hsel hr => ?_, fun hsub hr hb => ?_,
      fun src kind flags time ts w hh q data rest hout hup hr hseq hb => ?_⟩
    · rw [exec_captureWrite_camera ha hc, State.csiCapture_of_binding hs hq hk hb hsel]
      dsimp only
      refine ⟨fun hz => congrArg Host.Outcome.next (if_pos hz), fun hz hside => congrArg Host.Outcome.next ((if_neg hz).trans
          (if_pos ?_)),
        fun hz hside hlink => congrArg Host.Outcome.next ((if_neg hz).trans (if_neg ?_))⟩
      · rcases hside with hside | hside
        · exact Bool.or_eq_true_iff.mpr (.inl hside)
        · exact Bool.or_eq_true_iff.mpr (.inr ((Bool.not_eq_true' _).mpr hside))
      · exact Bool.eq_false_iff.mp (Bool.or_eq_false_iff.mpr ⟨hside, (Bool.not_eq_false' _).mpr hlink⟩)
    · rw [exec_captureWrite_camera ha hc, State.csiCapture, if_pos (by simp [hq])]
    · rw [exec_captureWrite_flow ha h1 h2, State.flowCapture_of_binding hw hpre hk hb hsel hr]
    · rw [exec_arrivalMark]
      unfold execArrivalMark
      dsimp only
      rw [show ((s.half h).alive && !(s.half h).powx.subReset.contains 13) = true by rw [ha, hsub]; rfl, hb]
      exact if_neg (by simp [hr])
    · exact exec_forwardedCaptureReceive_of_first hout ha hup hr hseq hb
  · obtain ⟨hbind, hcmds, htpt⟩ := Half.putCapture_frame e hx
    refine ⟨fun d hd hn => ?_, hcmds, htpt⟩
    rw [hbind] at hd
    obtain ⟨k, hk, hkn, rfl⟩ := (mem_of_mem_bindings_map hd fun _ => rfl).1 hn
    rw [huniq k hk hkn]
    exact ⟨rfl, rfl, rfl⟩
  · rw [show x.putCapture b e = x.dropCaptures b 1 from if_pos hx]
    obtain ⟨hbind, hcmds, htpt⟩ := x.dropCaptures_frame b 1
    refine ⟨fun d hd hn => ?_, hcmds, htpt⟩
    rw [hbind] at hd
    obtain ⟨k, hk, hkn, rfl⟩ := (mem_of_mem_bindings_map hd fun _ => rfl).1 hn
    rw [huniq k hk hkn]
    rfl
  · cases hx : x.entryHeld b with
    | false =>
      rw [(Half.putCapture_frame e hx).1] at hd
      exact (mem_of_mem_bindings_map hd fun _ => rfl).2 hne
    | true =>
      rw [show x.putCapture b e = x.dropCaptures b 1 from if_pos hx, (x.dropCaptures_frame b 1).1] at hd
      exact (mem_of_mem_bindings_map hd fun _ => rfl).2 hne

end Sys2Proof.Machine
end

section
/-! PROOFS. Partners, endpoints and site dies (spec/17_partners.md, spec/15_die_to_die_links.md R382). -/

namespace Sys2Proof.Machine
open Sys2Proof.Laws.Memory

/-! ### Partners and logs -/

/-- A message sent in its long form whose checks pass and whose execution ends it. -/
theorem State.runMsg_done_long {s t : State} {h : HalfId} {slot op maxIn st : Nat} {f : Form} {chk : Half → Msg → List Chk}
    {act : State → Msg → Reply} {fields : List (Nat × Nat × Nat)} (hs : (s.half h).sendsLong slot op maxIn = true) (hop : op ∈ opcodes)
    (hl : f.long = true) (hm : f.maxIn = maxIn) (hc : ∀ d ∈ chk (s.half h) ((s.half h).msg slot), d.bad = false)
    (ha : act s ((s.half h).msg slot) = .done t st fields) :
    s.runMsg h slot op f chk act = t.mod h (fun y => y.finish slot st fields) := by
  rw [State.runMsg_long hs hop hl hm hc, ha]

/-- The same for a message whose execution changes its own half only. -/
theorem State.runMsg_done_long_mod {s : State} {h : HalfId} {slot op maxIn st : Nat} {f : Form} {chk : Half → Msg → List Chk}
    {act : State → Msg → Reply} {g : Half → Half} {fields : List (Nat × Nat × Nat)}
    (hs : (s.half h).sendsLong slot op maxIn = true) (hop : op ∈ opcodes) (hl : f.long = true) (hm : f.maxIn = maxIn)
    (hc : ∀ d ∈ chk (s.half h) ((s.half h).msg slot), d.bad = false)
    (ha : act s ((s.half h).msg slot) = .done (s.mod h g) st fields) :
    s.runMsg h slot op f chk act = s.mod h (fun y => (g y).finish slot st fields) := by
  rw [State.runMsg_done_long hs hop hl hm hc ha, State.mod_mod]

/-- A message sent in its short form with one check, which fails. -/
theorem State.runMsg_bad {s : State} {h : HalfId} {slot op len : Nat} {f : Form} {chk : Half → Msg → List Chk}
    {act : State → Msg → Reply} {c : Chk} (hs : (s.half h).sends slot op len = true) (hop : op ∈ opcodes)
    (hf : f.lens.contains len = true) (hc : worst (chk (s.half h) ((s.half h).msg slot)) = some c) :
    s.runMsg h slot op f chk act = s.mod h (fun y => y.finishBad slot c) := by
  rw [State.runMsg_sends hs hop hf, hc]
  rfl

section
variable {h : HalfId} {slot : Nat} {s : State}

theorem exec_ptnRelease_of_empty (hs : (s.half h).sends slot 0x0902 1 = true)
    (hp : ((s.half h).partner (pay ((s.half h).msg slot) 0 8)).st = .empty) : exec (.ptnRelease h slot) s =
      .next (s.mod h (fun y => y.finishBad slot { bad := true, st := stMalformed, off := 0x10 })) := by
  rw [exec_ptnRelease, execPtnRelease]
  refine congrArg Host.Outcome.next (State.runMsg_bad hs (by decide) (by decide) ?_)
  simp [worst, hp]

theorem exec_ptnRelease_of_checked (hs : (s.half h).sends slot 0x0902 1 = true)
    (hp : ((s.half h).partner (pay ((s.half h).msg slot) 0 8)).st ≠ .empty) :
    (((s.half h).partner (pay ((s.half h).msg slot) 0 8)).st ≠ .quarantined →
      exec (.ptnRelease h slot) s = .next (s.mod h (fun y => y.finish slot stOk []))) ∧
    (((s.half h).partner (pay ((s.half h).msg slot) 0 8)).st = .quarantined →
      exec (.ptnRelease h slot) s = .next ((s.release h (pay ((s.half h).msg slot) 0 8)).mod h (fun y => y.finish slot stOk []))) := by
  have hc : ∀ d ∈ [({ bad := ((s.half h).partner (pay ((s.half h).msg slot) 0 8)).st = .empty, st := stMalformed, off := 0x10 } : Chk)],
      d.bad = false := by
    simpa using hp
  rw [exec_ptnRelease, execPtnRelease]
  exact ⟨fun hq => congrArg Host.Outcome.next (State.runMsg_done hs (by decide) (by decide) hc (if_neg hq)),
    fun hq => congrArg Host.Outcome.next (State.runMsg_done hs (by decide) (by decide) hc (if_pos hq))⟩

theorem exec_ptnList_short (hs : (s.half h).sends slot 0x0901 1 = true) :
    (∀ q, (s.half h).nextPartner (pay ((s.half h).msg slot) 0 8) = some q →
      exec (.ptnList h slot) s = .next (s.mod h (fun y => y.finish slot stOk
        [(0x00, 8, q.num), (0x01, 8, q.kind.toNat), (0x02, 8, ptnCode q.st), (0x03, 8, q.attach.toNat), (0x04, 32, q.gen.toNat),
         (0x08, 64, q.ident.toNat), (0x10, 64, q.last.toNat), (0x18, 32, q.viol.toNat),
         (0x1C, 16, (((s.half h).nextPartner (q.num + 1)).map (·.num)).getD 0x100)]))) ∧
    ((s.half h).nextPartner (pay ((s.half h).msg slot) 0 8) = none →
      exec (.ptnList h slot) s = .next (s.mod h (fun y => y.finish slot stOk [(0x1C, 16, 0x100)]))) := by
  have hl := (Half.sends_short hs).1
  rw [exec_ptnList]
  unfold execPtnList
  refine ⟨fun q hq => ?_, fun hq => ?_⟩ <;>
    refine congrArg Host.Outcome.next (State.runMsg_done hs (by decide) (by decide) (by simp [hl]) ?_)
  · dsimp only
    rw [if_neg (by simp [hl]), hq]
  · dsimp only
    rw [if_neg (by simp [hl]), hq]

theorem exec_ptnList_long (hs : (s.half h).sendsLong slot 0x0901 67108864 = true) (hin : inLen ((s.half h).msg slot) = 0) :
    let m := (s.half h).msg slot
    let bytes := ((s.half h).ptn.entries.flatMap (fun q => leBytes 64 q.word.toNat)).take (outLen m / 64 * 64)
    exec (.ptnList h slot) s = .next (s.mod h (fun y =>
      (y.commitBytes (msgCtx m) (placeBytes (outAddr m) bytes)).settle.finish slot stOk [(0x00, 32, bytes.length)])) := by
  have hl := (Half.sendsLong_long hs).1
  dsimp only
  rw [exec_ptnList]
  unfold execPtnList
  let bytes := ((s.half h).ptn.entries.flatMap (fun q => leBytes 64 q.word.toNat)).take (outLen ((s.half h).msg slot) / 64 * 64)
  refine congrArg Host.Outcome.next (State.runMsg_done_long_mod hs (by decide) rfl rfl ?_
    (g := fun y => (y.commitBytes (msgCtx ((s.half h).msg slot)) (placeBytes (outAddr ((s.half h).msg slot)) bytes)).settle) (if_pos hl))
  rw [if_pos hl]
  simpa using hin

/-- The entries of a log that a LOG_READ with arguments a returns. -/
def Half.logRead (x : Half) (a : Nat × Nat × Nat) (cap : Nat) : List (BitVec 256) × Nat :=
  logCopy (x.logOf a.1).1 (x.logOf a.1).2 a.2.2 cap

theorem exec_logRead_short (h60 : 60 ≤ slot) (hs : (s.half h).sends slot 0x0A01 8 = true) (hlog : pay ((s.half h).msg slot) 0 8 ≤ 2)
    (hrsv : pay ((s.half h).msg slot) 1 8 = 0) :
    let m := (s.half h).msg slot
    let r := (s.half h).logRead (pay m 0 8, pay m 1 8, pay m 4 32) 1
    exec (.logRead h slot) s = .next (s.mod h (fun y => y.finish slot stOk
      [(0x00, 32, r.1.length), (0x04, 32, r.2), (0x08, 256, ((r.1.head?).map (·.toNat)).getD 0)])) := by
  have hl := (Half.sends_short hs).1
  have ha : logArgs (s.half h) ((s.half h).msg slot) = (pay ((s.half h).msg slot) 0 8, pay ((s.half h).msg slot) 1 8,
      pay ((s.half h).msg slot) 4 32) := if_neg (by simp [hl])
  dsimp only
  rw [exec_logRead]
  unfold execLogRead
  refine congrArg Host.Outcome.next (State.runMsg_done hs (by decide) (by simp [h60]) ?_ ?_)
  · dsimp only
    rw [ha]
    simp only [List.forall_mem_cons, hl, hrsv]
    exact ⟨rfl, by simpa using hlog, by simp, forall_mem_nil_bad⟩
  · dsimp only
    rw [ha, hl]
    rfl

theorem exec_logRead_long (hs : (s.half h).sendsLong slot 0x0A01 67108864 = true) (hin : inLen ((s.half h).msg slot) = 8)
    (hlog : (s.half h).vnat (msgCtx ((s.half h).msg slot)) (inAddr ((s.half h).msg slot)) 8 % 65536 ≤ 2) :
    let m := (s.half h).msg slot
    let v := (s.half h).vnat (msgCtx m) (inAddr m) 8
    let r := (s.half h).logRead (v % 256, v / 256 % 256, v / 2 ^ 32) (outLen m / 32)
    let bytes := r.1.flatMap (fun e => leBytes 32 e.toNat)
    exec (.logRead h slot) s = .next (s.mod h (fun y =>
      (y.commitBytes (msgCtx m) (placeBytes (outAddr m) bytes)).settle.finish slot stOk [(0x00, 32, bytes.length),
          (0x04, 32, r.2)])) := by
  have hl := (Half.sendsLong_long hs).1
  dsimp only
  generalize hv : (s.half h).vnat (msgCtx ((s.half h).msg slot)) (inAddr ((s.half h).msg slot)) 8 = v at hlog
  have ha : logArgs (s.half h) ((s.half h).msg slot) = (v % 256, v / 256 % 256, v / 2 ^ 32) := (if_pos hl).trans (by rw [hv])
  let bytes := ((s.half h).logRead (v % 256, v / 256 % 256, v / 2 ^ 32) (outLen ((s.half h).msg slot) / 32)).1.flatMap
    (fun e => leBytes 32 e.toNat)
  rw [exec_logRead]
  unfold execLogRead
  refine congrArg Host.Outcome.next (State.runMsg_done_long_mod hs (by decide) rfl rfl ?_
    (g := fun y => (y.commitBytes (msgCtx ((s.half h).msg slot)) (placeBytes (outAddr ((s.half h).msg slot)) bytes)).settle) ?_)
  · dsimp only
    rw [ha]
    simp only [List.forall_mem_cons, hl, hin]
    exact ⟨rfl, decide_eq_false (by omega), decide_eq_false (by omega), forall_mem_nil_bad⟩
  · dsimp only
    rw [ha, hl]
    rfl
end

/-- Settles O40. -/
theorem partnerMessagesComplete : Obligations.PartnerMessagesComplete := by
  unfold Obligations.PartnerMessagesComplete
  intro h slot n s
  dsimp only
  refine ⟨exec_ptnRelease_of_empty, fun hs hp => (exec_ptnRelease_of_checked hs hp).1,
    fun hs hq => (exec_ptnRelease_of_checked hs (by rw [hq]; decide)).2 hq, fun ha hq hr hdue => ?_, fun ha hd hdue => ?_,
    fun hs => (exec_ptnList_short hs).1, fun hs => (exec_ptnList_short hs).2, fun hs => exec_ptnList_long hs,
    fun h60 hs => exec_logRead_short h60 hs, fun _ hs => exec_logRead_long hs, fun ha ht => ?_, ?_⟩
  · rw [exec_quarantineReleaseTimeout]
    exact if_pos (by simp [ha, hq, hdue]; exact hr)
  · rw [exec_partnerAbsentTimeout]
    exact congrArg Host.Outcome.next (State.mod_congr (if_pos (by simp [ha, hd, hdue])))
  · rw [exec_mgmtBusFramingError]
    exact congrArg Host.Outcome.next (State.mod_congr (if_neg (by simp [ha, ht])))
  · rw [exec_mgmtAlertResponse]
    refine ⟨_, rfl, fun g => ?_⟩
    cases h <;> cases g <;> rfl

/-! ### Endpoints and site dies -/

section
variable {h : HalfId} {fn : BitVec 48} {s : State}

theorem exec_pcieEndpointDma_quarantined (ha : (s.half h).alive = true) (hr : (s.half h).powx.subReset.contains 13 = false) {p : Nat}
    (hs : ((s.half h).ptnArrive 5 0 fn.toNat).fnSrc fn = .partner p)
    (hq : (((s.half h).ptnArrive 5 0 fn.toNat).partner p).st = .quarantined) (r : EndpointReq) :
    exec (.pcieEndpointDma h fn r) s = .next { (s.setHalf h ((s.half h).ptnArrive 5 0 fn.toNat)) with resp := .dropped } := by
  rw [exec_pcieEndpointDma]
  unfold execPcieEndpointDma
  dsimp only
  rw [if_neg (by rw [ha, hr]; exact Bool.false_ne_true), hs]
  dsimp only
  exact if_pos (decide_eq_true hq)

/-- What an endpoint's request does once it may master the bus. -/
theorem exec_pcieEndpointDma_of_free (ha : (s.half h).alive = true) (hr : (s.half h).powx.subReset.contains 13 = false)
    (hfree : ∀ p, ((s.half h).ptnArrive 5 0 fn.toNat).fnSrc fn = .partner p →
      (((s.half h).ptnArrive 5 0 fn.toNat).partner p).st ≠ .quarantined) (r : EndpointReq) :
    let y := (s.half h).ptnArrive 5 0 fn.toNat
    let vio := fun (code addr : Nat) => { (s.setHalf h (y.violate (y.fnSrc fn) 0x03 code 2 0 addr)) with resp := Resp.busError }
    exec (.pcieEndpointDma h fn r) s = match r with
      | .write c va data =>
        if y.writable c va data.length then .next { (s.setHalf h (y.commitBytes c (placeBytes va data))) with resp := .ok }
        else .next (vio 2 va)
      | .read c va n =>
        if !y.mappedPlain c va n then .next (vio 2 va)
        else match y.firstBad c [(va, n)] with
          | some b => .next { (s.setHalf h (y.apError c b)) with resp := .busError }
          | none => .next { (s.setHalf h y) with resp := .data (y.vnat c va n) }
      | .outside a => .next (vio 2 a)
      | .malformed => .next (vio 1 0)
      | .unexpected => .next (vio 3 0) := by
  rw [exec_pcieEndpointDma]
  unfold execPcieEndpointDma
  dsimp only
  rw [if_neg (by rw [ha, hr]; exact Bool.false_ne_true), if_neg]
  · cases r <;> rfl
  · split
    next p hp => simpa using hfree p hp
    next => exact Bool.false_ne_true
end

/-- Settles O41: the guards of each access, in the model's order. -/
theorem endpointsAndDiesStayInTheirPages : Obligations.EndpointsAndDiesStayInTheirPages := by
  unfold Obligations.EndpointsAndDiesStayInTheirPages
  intro h fn c va n data v s
  dsimp only
  intro ha
  refine ⟨fun hr => ⟨fun p hs hq r => exec_pcieEndpointDma_quarantined ha hr hs hq r, fun hfree => ?_⟩, fun hd => ⟨fun hw hm => ?_,
    fun hw => ?_, fun hw hb hf => ?_, fun hw hb hf => ?_, fun hw => ?_⟩, fun f => ?_⟩
  · have hdma := fun r => exec_pcieEndpointDma_of_free ha hr hfree r
    dsimp only at hdma
    refine ⟨fun hw => (hdma _).trans (if_pos hw), fun hw => (hdma _).trans (if_neg (Bool.eq_false_iff.mp hw)), fun hm hb => ?_,
      fun b hm hb => ?_, fun hm => (hdma _).trans (if_pos (by rw [hm]; rfl)), hdma _, hdma _, hdma _⟩
    · exact (hdma _).trans ((if_neg (by simp [hm])).trans (by rw [hb]))
    · exact (hdma _).trans ((if_neg (by simp [hm])).trans (by rw [hb]))
  · rw [exec_siteDieWrite]
    unfold execSiteDieWrite
    refine congrArg Host.Outcome.next (State.mod_congr ?_)
    rw [if_neg (by simp [hd])]
    exact if_pos (by simp [hw, hm])
  · rw [exec_siteDieWrite]
    unfold execSiteDieWrite
    refine congrArg Host.Outcome.next (State.mod_congr ?_)
    rw [if_neg (by simp [hd])]
    refine if_neg ?_
    rcases hw with hw | hw <;> rw [hw] <;> simp
  · rw [exec_siteDieFill]
    unfold execSiteDieFill
    refine congrArg Host.Outcome.next (State.mod_congr ?_)
    rw [if_neg (by simp [hd]), if_pos (by simp [hw, hb])]
    exact if_neg (by simp [hf])
  · rw [exec_siteDieFill]
    unfold execSiteDieFill
    refine congrArg Host.Outcome.next (State.mod_id s h _ ?_)
    rw [if_neg (by simp [hd]), if_pos (by simp [hw, hb])]
    exact if_pos hf
  · rw [exec_siteDieFill]
    unfold execSiteDieFill
    refine congrArg Host.Outcome.next (State.mod_congr ?_)
    rw [if_neg (by simp [hd])]
    refine if_neg ?_
    rcases hw with hw | hw <;> rw [hw] <;> simp
  · rw [exec_rootPortLinkDown]
    exact congrArg Host.Outcome.next (State.mod_congr (if_neg (by simp [ha])))

end Sys2Proof.Machine
end

section
/-! PROOFS. Frames, gPTP and the clock (spec/16_time_and_ethernet.md). -/

namespace Sys2Proof.Machine
open Sys2Proof.Laws.Memory

/-! ### Frames -/

section
variable {h : HalfId} {port t : Nat} {f : List Byte} {s : State}

theorem Half.takePtp_not_carried {x : Half} {m : Ptp} (hm : x.macLive m.port = true) (hc : x.carriesPtp m.port = false) :
    x.takePtp m = (x.modPort m.port (fun p => { p with ptpDrops := p.ptpDrops + 1 }), false) := by
  simp only [Half.macLive, Bool.and_eq_true, decide_eq_true_eq] at hm
  obtain ⟨⟨⟨ha, hp⟩, hl⟩, hr⟩ := hm
  unfold Half.takePtp
  dsimp only
  rw [if_neg (by simp only [ha, hp, hl, hr]; simp), if_pos (by rw [hc]; rfl)]

/-- What a half does with a good frame that carries no gPTP (R402). -/
theorem exec_ethReceiveFrame_of_other (hm : (s.half h).macLive port = true) (hty : frameType f ≠ 0x88F7) :
    (∀ k, (s.half h).flowOf port f = some k →
      exec (.ethReceiveFrame h port f true t) s = .next (s.mod h (fun y => y.toFlow port f k (t - (y.port port).ingressLat.toNat)))) ∧
    ((s.half h).flowOf port f = none → (s.half h).cfg.bridge = false ∨ 4 ≤ port →
      exec (.ethReceiveFrame h port f true t) s = .next (s.mod h (fun y => y.toRing port f (t - (y.port port).ingressLat.toNat)))) ∧
    ((s.half h).flowOf port f = none → (s.half h).cfg.bridge = true → port < 4 →
      exec (.ethReceiveFrame h port f true t) s = .next (s.mod h (fun y =>
        let u := (y.learn (frameSrc f) (bridgePort h port)).bridgeLocal (bridgePort h port) f
        let v := if u.bridgeCrosses f then u.bridgeCross port f else u
        if v.forStack (frameDst f) then v.toRing port f (t - (y.port port).ingressLat.toNat) else v))) := by
  rw [exec_ethReceiveFrame]
  unfold execEthReceiveFrame
  refine ⟨fun k hk => ?_, fun hk hb => ?_, fun hk hb hp => ?_⟩ <;>
    refine congrArg Host.Outcome.next (State.mod_congr ((if_neg (by simp [hm])).trans ((if_neg hty).trans ?_))) <;> rw [hk] <;> dsimp only
  · refine if_neg ?_
    rcases hb with hb | hb
    · simp [hb]
    · simp [hb]
  · exact if_pos (by simp [hb, hp])

theorem exec_ethReceiveFrame_of_ptp (hm : (s.half h).macLive port = true) (hty : frameType f = 0x88F7) :
    ((s.half h).carriesPtp port = false → exec (.ethReceiveFrame h port f true t) s =
      .next (s.mod h (fun y => y.modPort port (fun k => { k with ptpDrops := k.ptpDrops + 1 })))) ∧
    ((s.half h).carriesPtp port = true → netNat f (frameBody f + 4) 1 = (s.half h).cfgb.domain →
      exec (.ethReceiveFrame h port f true t) s = .next s) := by
  rw [exec_ethReceiveFrame]
  unfold execEthReceiveFrame
  refine ⟨fun hc => congrArg Host.Outcome.next (State.mod_congr ?_), fun hc hd => congrArg Host.Outcome.next (State.mod_id s h _ ?_)⟩
  · dsimp only
    rw [if_neg (by simp [hm]), if_pos hty, if_pos (by simp [hc])]
    rw [Half.takePtp_not_carried (m := { port := port, src := _, domain := _, seq := 0, ok := true, t := t }) hm hc]
  · dsimp only
    rw [if_neg (by simp [hm]), if_pos hty]
    exact if_neg (by simp [hc, hd])

/-- A transmission of a ring whose next descriptor the MAC owns. -/
theorem exec_macTransmit_of_owned {r : Ring} (hr : (s.half h).cfgb.rings.find? (fun q => q.port = port && q.num = r.num && q.tx) = some r)
    (hm : (s.half h).macLive port = true) (hon : ((s.half h).port port).txOff[r.num]?.getD false = false)
    (hown : (s.half h).vnat r.ctx ((s.half h).ringDesc r + 0x0A) 1 % 2 = 1) :
    let len := (s.half h).vnat r.ctx ((s.half h).ringDesc r + 0x08) 2
    (len < 60 ∨ 9600 < len → exec (.macTransmit h port r.num t) s = .next (s.mod h (fun y => y.ringDone r len true none))) ∧
    (60 ≤ len → len ≤ 9600 → (∃ p, r.pair = some p ∧ (s.half h).ump.gates.getLsbD p = false) →
      exec (.macTransmit h port r.num t) s = .next (s.mod h (fun y =>
        (({ (y.modPort port (fun p => { p with gateDrops := p.gateDrops + 1 })) with
            cores := { y.cores with gateDrops := y.cores.gateDrops + 1 } } : Half).ringDone r len true none)))) ∧
    (60 ≤ len → len ≤ 9600 → (∀ p, r.pair = some p → (s.half h).ump.gates.getLsbD p = true) →
      exec (.macTransmit h port r.num t) s = .next (s.mod h (fun y =>
        if y.mapped r.ctx (y.vnat r.ctx (y.ringDesc r) 8) len then
          (y.sendOn port (.frame (y.vread r.ctx (y.vnat r.ctx (y.ringDesc r) 8) len))).ringDone r len false
            (some (t + (y.port port).egressLat.toNat))
        else y.ringDone r len true none))) := by
  have hok : (!(s.half h).macLive port || (((s.half h).port port).txOff[r.num]?.getD false) ||
      (s.half h).vnat r.ctx ((s.half h).ringDesc r + 0x0A) 1 % 2 = 0) = false := by simp [hm, hon, hown]
  dsimp only
  rw [exec_macTransmit]
  unfold execMacTransmit
  refine ⟨fun hl => congrArg Host.Outcome.next (State.mod_congr ?_), fun h1 h2 hp => congrArg Host.Outcome.next (State.mod_congr ?_),
    fun h1 h2 hp => congrArg Host.Outcome.next (State.mod_congr ?_)⟩ <;> rw [hr] <;> dsimp only <;>
      refine (if_neg (Bool.eq_false_iff.mp hok)).trans ?_
  · exact if_pos (by simpa using hl)
  · obtain ⟨p, hp, hg⟩ := hp
    have hpair : r.pair.filter (fun p => !(s.half h).ump.gates.getLsbD p) = some p := by simp [hp, hg]
    refine (if_neg (by simp; omega)).trans ?_
    rw [hpair]
    rfl
  · have hpair : r.pair.filter (fun p => !(s.half h).ump.gates.getLsbD p) = none := by
      simpa [Option.filter_eq_none_iff] using hp
    refine (if_neg (by simp; omega)).trans ?_
    rw [hpair]

theorem exec_ethLinkChange_of_alive (ha : (s.half h).alive = true) (hp : port < 5) :
    exec (.ethLinkChange h port true) s =
      .next (s.mod h (fun y => (y.modPort port (fun k => { k with linkUp := true })).bmca)).relayRoles ∧
    exec (.ethLinkChange h port false) s = .next (s.mod h (fun y =>
      let z := if y.tim.lead = true ∧ y.tim.source = 1 ∧ y.tim.sourcePort.toNat = port then y.loseSource else y
      (z.modPort port (fun k => { k with
        linkUp := false, asCapable := false, announce := none, pendSync := none, reqTime := none, pdResp := none
        pdPrev := none, relay := none })).bmca)).relayRoles := by
  rw [exec_ethLinkChange, exec_ethLinkChange]
  unfold execEthLinkChange
  refine ⟨congrArg (fun u : State => Host.Outcome.next u.relayRoles) (State.mod_congr ?_),
    congrArg (fun u : State => Host.Outcome.next u.relayRoles) (State.mod_congr ?_)⟩
  · refine (if_neg (by simp [ha, hp])).trans ?_
    exact if_pos rfl
  · refine (if_neg (by simp [ha, hp])).trans ((if_neg Bool.false_ne_true).trans ?_)
    simp only [Bool.and_eq_true, decide_eq_true_eq, and_assoc]

theorem exec_bridgeFrameReceive_of_up (ha : (s.half h).alive = true) (hu : (s.half h).handoffUp = true) (hb :
    (s.half h).cfg.bridge = true) :
    (∀ q rest, (s.half (other h)).takeOut LinkMsg.crossing = some (.inr q, rest) → exec (.bridgeFrameReceive h) s =
      .next ((s.mod (other h) (fun o => { o with links := { o.links with outbox := rest } })).mod h (fun y => y.relayOut none q))) ∧
    (∀ p f rest, (s.half (other h)).takeOut LinkMsg.crossing = some (.inl (p, f), rest) → exec (.bridgeFrameReceive h) s =
      .next ((s.mod (other h) (fun o => { o with links := { o.links with
          outbox := rest, bridgeHeld := o.links.bridgeHeld - f.length } })).mod h (fun y =>
        let z := (y.learn (frameSrc f) p).bridgeLocal p f
        if z.forStack (frameDst f) = true then z.toRing (p % 4) f (y.st * 1000) else z))) := by
  rw [exec_bridgeFrameReceive]
  unfold execBridgeFrameReceive
  refine ⟨fun q rest hq => congrArg Host.Outcome.next ?_, fun p f rest hq => congrArg Host.Outcome.next ?_⟩ <;> dsimp only <;>
    rw [hq] <;> dsimp only <;> exact if_neg (by simp [ha, hu, hb])
end

/-- Settles O42, rule by rule. -/
theorem framesFollowTheirRules : Obligations.FramesFollowTheirRules := by
  unfold Obligations.FramesFollowTheirRules
  intro h port t f r q s
  dsimp only
  refine ⟨fun hm => ⟨?_, fun hty => (exec_ethReceiveFrame_of_other hm hty).1, fun hty => (exec_ethReceiveFrame_of_other hm hty).2.1,
    fun hty => (exec_ethReceiveFrame_of_other hm hty).2.2, fun hty => (exec_ethReceiveFrame_of_ptp hm hty).1,
    fun hty => (exec_ethReceiveFrame_of_ptp hm hty).2⟩, fun hr hm hon hown => ?_, fun ha hp => exec_ethLinkChange_of_alive ha hp,
    fun rest hq ha hu hb => (exec_bridgeFrameReceive_of_up ha hu hb).1 q rest hq,
    fun p rest hq ha hu hb => (exec_bridgeFrameReceive_of_up ha hu hb).2 p f rest hq⟩
  · rw [exec_ethReceiveFrame]
    exact congrArg Host.Outcome.next (State.mod_id s h _ (if_pos (by simp)))
  · obtain ⟨hlen, hclosed, hopen⟩ := exec_macTransmit_of_owned (t := t) hr hm hon hown
    refine ⟨hlen, hclosed, fun h1 h2 hp => ⟨fun hmap => ?_, fun hmap => ?_⟩⟩
    · rw [hopen h1 h2 hp]
      exact congrArg Host.Outcome.next (State.mod_congr (if_pos hmap))
    · rw [hopen h1 h2 hp]
      exact congrArg Host.Outcome.next (State.mod_congr (if_neg (Bool.eq_false_iff.mp hmap)))

/-! ### What measurements and exchanges leave -/

/-- What the clock's own steps leave: the configuration, memory and work, and of the time unit its link to the source. -/
def Half.timeLink (x : Half) : Mem × Sched × Cfg × BitVec 32 × BitVec 2 × Nat :=
  (x.mem, x.sched, x.cfg, x.tim.interHalf, x.tim.source, x.timx.lastExch)

theorem Half.timeLink_stepClock (x : Half) (off : Int) : (x.stepClock off).timeLink = x.timeLink := by
  unfold Half.stepClock
  dsimp only
  split <;> rfl

theorem Half.timeLink_newRate (x : Half) : x.newRate.timeLink = x.timeLink := rfl

theorem Half.timeLink_offsetState (x : Half) (off : Int) : (x.offsetState off).timeLink = x.timeLink := by
  unfold Half.offsetState
  dsimp only
  (repeat' split) <;> rfl

theorem Half.timeLink_measured (x : Half) (off : Int) : (x.measured off).timeLink = x.timeLink := by
  unfold Half.measured
  dsimp only
  split
  · rfl
  · split
    · split
      · rfl
      · split
        · rfl
        · exact Half.timeLink_stepClock _ _
    · split
      · rfl
      · exact (Half.timeLink_offsetState _ _).trans (Half.timeLink_newRate _)

theorem Half.timeLink_exchangeBound (x : Half) (ps : Int) : (x.exchangeBound ps).timeLink = x.timeLink := by
  unfold Half.exchangeBound
  dsimp only
  (repeat' split) <;> simp [Half.timeLink, Half.timEvent]

theorem Half.portMeasure_cfg (x : Half) (p t origin : Nat) (corr : Int) : (x.portMeasure p t origin corr).cfg = x.cfg := by
  unfold Half.portMeasure
  dsimp only
  split
  · refine (congrArg (fun l => l.2.2.1) (Half.timeLink_measured _ _) :).trans ?_
    unfold Half.acquire
    dsimp only
    split <;> rfl
  · rfl

/-- Without the bridge a Sync is a measurement of its port alone. -/
theorem State.takeSync_of_no_bridge {s : State} {h : HalfId} {y : Half} {p t origin : Nat} {corr : Int} (hy : y.cfg.bridge = false) :
    s.takeSync h y p t origin corr = s.setHalf h (y.portMeasure p t origin corr) := by
  have hcfg : (y.portMeasure p t origin corr).cfg.bridge = false := by rw [Half.portMeasure_cfg, hy]
  have hrelay : (y.portMeasure p t origin corr).relay p t origin corr = y.portMeasure p t origin corr := if_pos (by rw [hcfg]; rfl)
  unfold State.takeSync State.feedLead
  rw [hrelay]
  refine if_neg ?_
  rw [State.setHalf_same, hcfg]
  exact Bool.false_ne_true

/-- A source that is lost: the clock free-runs at its rate (R417). -/
theorem Half.loseSource_tim {x : Half} (hs : x.tim.source ≠ 0) :
    x.loseSource.tim.source = 0 ∧ bitAt x.loseSource.tim.events 1 = true ∧ (x.tim.st ≠ .unset → x.loseSource.tim.st = .freeRun) ∧
    x.loseSource.tim.rate = x.tim.rate ∧ x.loseSource.mem = x.mem ∧ x.loseSource.sched = x.sched := by
  unfold Half.loseSource
  rw [if_neg hs]
  dsimp only
  simp only [Half.umpEvent_frame]
  split
  next hu => exact ⟨rfl, bitAt_setBit _ 1 (by decide), fun hn => absurd hu hn, rfl, by simp [Half.timEvent], by simp [Half.timEvent]⟩
  next hu => exact ⟨rfl, bitAt_setBit _ 1 (by decide), fun _ => rfl, rfl, by simp [Half.timEvent], by simp [Half.timEvent]⟩

/-! ### gPTP -/

section
variable {h : HalfId} {m : Ptp} {port origin : Nat} {corr : Int} {s : State}

theorem exec_gptpSyncReceive_of_taken (hm : ((s.half h).takePtp m).2 = true) :
    exec (.gptpSyncReceive h m false origin corr) s = .next (s.takeSync h ((s.half h).takePtp m).1 m.port m.t origin corr) ∧
    exec (.gptpSyncReceive h m true origin corr) s = .next (s.setHalf h
      (((s.half h).takePtp m).1.modPort m.port (fun k => { k with pendSync := some (m.seq, m.t) }))) := by
  rw [exec_gptpSyncReceive, exec_gptpSyncReceive]
  unfold execGptpSyncReceive
  dsimp only
  rw [hm]
  exact ⟨rfl, rfl⟩

theorem exec_gptpFollowUpReceive_of_taken (hm : ((s.half h).takePtp m).2 = true) {q t : Nat}
    (hp : (((s.half h).takePtp m).1.port m.port).pendSync = some (q, t)) :
    (q = m.seq → exec (.gptpFollowUpReceive h m origin corr) s =
      .next (s.takeSync h ((s.half h).takePtp m).1 m.port t origin corr)) ∧
    (q ≠ m.seq → exec (.gptpFollowUpReceive h m origin corr) s = .next (s.setHalf h ((s.half h).takePtp m).1)) := by
  rw [exec_gptpFollowUpReceive]
  unfold execGptpFollowUpReceive
  dsimp only
  rw [hm, hp]
  exact ⟨fun hq => congrArg Host.Outcome.next (if_pos hq), fun hq => congrArg Host.Outcome.next (if_neg hq)⟩

theorem exec_gptpAnnounceReceive_of_taken (hm : ((s.half h).takePtp m).2 = true) (vec steps : Nat) (gm : BitVec 64) :
    exec (.gptpAnnounceReceive h m vec gm steps) s = .next (s.setHalf h ((((s.half h).takePtp m).1.modPort m.port
      (fun k => { k with announce := some (vec, gm, steps), lastAnn := ((s.half h).takePtp m).1.now })).bmca)).relayRoles := by
  rw [exec_gptpAnnounceReceive]
  unfold execGptpAnnounceReceive
  dsimp only
  rw [hm]
  rfl

theorem exec_gptpPdelayReceive_of_taken (hm : ((s.half h).takePtp m).2 = true) :
    let y := ((s.half h).takePtp m).1
    exec (.gptpPdelayReceive h m .req) s = .next (s.setHalf h
      ((y.took.sendOn m.port (.pdelayResp (m.t - (y.port m.port).ingressLat.toNat))).sendOn m.port
        (.pdelayFollowUp (Config.freeNat y.seed 80)))).relayRoles ∧
    ∀ t2, exec (.gptpPdelayReceive h m (.resp t2)) s = .next (s.setHalf h
      (y.modPort m.port (fun q => { q with pdResp := some (t2, m.t - (y.port m.port).ingressLat.toNat) }))).relayRoles := by
  refine ⟨?_, fun t2 => ?_⟩
  · rw [exec_gptpPdelayReceive]
    unfold execGptpPdelayReceive
    refine congrArg (fun y => Host.Outcome.next (s.setHalf h y).relayRoles) ?_
    dsimp only
    rw [hm]
    rfl
  · rw [exec_gptpPdelayReceive]
    unfold execGptpPdelayReceive
    refine congrArg (fun y => Host.Outcome.next (s.setHalf h y).relayRoles) ?_
    dsimp only
    rw [hm]
    rfl

theorem exec_gptp_of_not_taken (hm : ((s.half h).takePtp m).2 = false) (vec steps : Nat) (gm : BitVec 64) :
    exec (.gptpSyncReceive h m false origin corr) s = .next (s.setHalf h ((s.half h).takePtp m).1) ∧
    exec (.gptpFollowUpReceive h m origin corr) s = .next (s.setHalf h ((s.half h).takePtp m).1) ∧
    exec (.gptpAnnounceReceive h m vec gm steps) s = .next (s.setHalf h ((s.half h).takePtp m).1) := by
  rw [exec_gptpSyncReceive, exec_gptpFollowUpReceive, exec_gptpAnnounceReceive]
  unfold execGptpSyncReceive execGptpFollowUpReceive execGptpAnnounceReceive
  dsimp only
  rw [hm]
  exact ⟨rfl, rfl, rfl⟩

theorem exec_gptpSyncTransmit_of_master (hp : (s.half h).ptpLive port = true) (hr : ((s.half h).port port).role = 2) (t : Nat) :
    let out := t + ((s.half h).port port).egressLat.toNat
    (∀ r, ((s.half h).port port).relay = some r → exec (.gptpSyncTransmit h { port := port, t := t }) s = .next (s.mod h (fun z =>
      (z.sendOn port (.sync r.origin (r.corrAt out))).modPort port (fun k => { k with relay := none })))) ∧
    (((s.half h).port port).relay = none → (s.half h).cfg.bridge = false →
      exec (.gptpSyncTransmit h { port := port, t := t }) s = .next (s.mod h (fun z => z.sendOn port (.sync out 0)))) := by
  dsimp only
  rw [exec_gptpSyncTransmit]
  unfold execGptpSyncTransmit
  refine ⟨fun r hrel => congrArg Host.Outcome.next (State.mod_congr ((if_neg (by simp [hp, hr])).trans ?_)),
    fun hrel hb => congrArg Host.Outcome.next (State.mod_congr ((if_neg (by simp [hp, hr])).trans ?_))⟩
  · dsimp only
    rw [hrel]
  · dsimp only
    rw [hrel]
    exact if_neg (by simp [hb])
end

/-! ### The exchange between the halves, and what reads the clock -/

/-- A follower that has measured its offset from the lead. -/
def Half.exchanged (x o : Half) (ps : Int) : Half :=
  let y : Half := { x with tim := { x.tim with interHalf := BitVec.ofInt 32 ps }, timx := { x.timx with lastExch := x.now } }
  let y := (y.acquire 2 0).exchangeBound ps
  if o.tim.st = .unset then y else y.measured (-ps / 1000)

/-- A follower reports the lead's grandmaster, offset and state, and steps with it (R416). -/
def Half.reports (y o : Half) : Half :=
  let y : Half := { y with tim := { y.tim with
    gm := o.tim.gm, stepsRemoved := o.tim.stepsRemoved, offset := o.tim.offset
    held := if o.tim.held.isSome && y.tim.st = .unset then o.tim.held else y.tim.held } }
  if y.tim.st = .unset || o.tim.st = .unset then y
  else { y with tim := { y.tim with st := o.tim.st, freeSince := o.tim.freeSince } }

theorem Half.timeLink_exchanged (x o : Half) (ps : Int) :
    (x.exchanged o ps).timeLink = (x.mem, x.sched, x.cfg, BitVec.ofInt 32 ps, 2, x.now) := by
  have hacq : ∀ y : Half, (y.acquire 2 0).timeLink = (y.mem, y.sched, y.cfg, y.tim.interHalf, 2, y.timx.lastExch) := fun y => by
    unfold Half.acquire
    dsimp only
    split <;> rfl
  unfold Half.exchanged
  dsimp only
  split
  · exact (Half.timeLink_exchangeBound _ _).trans (hacq _)
  · exact ((Half.timeLink_measured _ _).trans (Half.timeLink_exchangeBound _ _)).trans (hacq _)

theorem Half.reports_frame (y o : Half) : (y.reports o).timeLink = y.timeLink ∧ (y.reports o).tim.gm = o.tim.gm ∧
    (y.reports o).tim.offset = o.tim.offset := by
  unfold Half.reports
  dsimp only
  split <;> exact ⟨rfl, rfl, rfl⟩

section
variable {h : HalfId} {ag : Agent} {slot port : Nat} {ps : Int} {s : State}

theorem exec_timeExchange_of_follower (ha : (s.half h).alive = true) (ho : (s.half (other h)).alive = true)
    (hr : (s.half (other h)).tim.running = true) (hu : (s.half h).handoffUp = true) (hl : (s.half h).tim.lead = false)
    (hol : (s.half (other h)).tim.lead = true) :
    exec (.timeExchange h ps) s = .next (s.mod h (fun x => (x.exchanged (s.half (other h)) ps).reports (s.half (other h)))) := by
  rw [exec_timeExchange]
  unfold execTimeExchange
  exact congrArg Host.Outcome.next (State.mod_congr (if_neg (by simp [ha, ho, hr, hu, hl, hol])))

theorem Half.storeReaches_of_not_tool {x : Half} (ha : x.alive = true) (hag : ∀ a, ag ≠ .tool a) (off : Nat) :
    x.storeReaches ag off = true := by
  cases ag with
  | tool a => exact absurd rfl (hag a)
  | core n c => simp [Half.storeReaches, Half.toolIgnored, ha]
  | pair n => simp [Half.storeReaches, Half.toolIgnored, ha]

theorem exec_timSyncLoad_of_reach (ha : (s.half h).alive = true) (hag : ∀ a, ag ≠ .tool a) :
    exec (.timSyncLoad h ag 8 false) s = .next { (s.mod h (fun y => { y with tim := { y.tim with latch := BitVec.ofNat 64 y.now } }))
      with resp := .data ((s.half h).st % 2 ^ 64) } ∧
    exec (.timSyncLoad h ag 4 true) s = .next { (s.mod h (fun y => { y with tim := { y.tim with latch := BitVec.ofNat 64 y.now } }))
      with resp := .data ((s.half h).st / 2 ^ 32 % 2 ^ 32) } := by
  have hword : s.ctrlWord h 0x400000 = BitVec.ofNat 64 (s.half h).st := rfl
  have hload : ∀ off size, (off = 0x400000 ∧ size = 8) ∨ (off = 0x400004 ∧ size = 4) → s.ctrlLoad h off size =
      { (s.mod h (fun y => { y with tim := { y.tim with latch := BitVec.ofNat 64 y.now } })) with
        resp := .data (accLoad (BitVec.ofNat 64 (s.half h).st) off size) } := by
    rintro off size (⟨rfl, rfl⟩ | ⟨rfl, rfl⟩)
    · exact if_neg (by decide)
    · exact if_neg (by decide)
  rw [exec_timSyncLoad, exec_timSyncLoad]
  unfold execTimSyncLoad
  rw [if_pos (Half.storeReaches_of_not_tool ha hag _), if_pos (Half.storeReaches_of_not_tool ha hag _)]
  refine ⟨congrArg Host.Outcome.next ((hload _ _ (.inl ⟨rfl, rfl⟩)).trans ?_),
    congrArg Host.Outcome.next ((hload _ _ (.inr ⟨rfl, rfl⟩)).trans ?_)⟩
  · simp [accLoad]
  · have hhigh : (s.half h).st % 2 ^ 64 / 2 ^ 32 % 2 ^ 32 = (s.half h).st / 2 ^ 32 % 2 ^ 32 := by omega
    simp only [accLoad, BitVec.toNat_ofNat]
    exact congrArg (fun v => ({ s.mod h _ with resp := .data v } : State)) hhigh
end

/-- Settles O43, command by command. -/
theorem gptpAndTimeCommandsComplete : Obligations.GptpAndTimeCommandsComplete := by
  unfold Obligations.GptpAndTimeCommandsComplete
  refine ⟨fun h m port origin vec steps t2 t corr gm s => ?_, fun h ag slot port ps s => ?_⟩
  · dsimp only
    refine ⟨fun hm => ⟨fun _ hb => ?_, (exec_gptpSyncReceive_of_taken hm).1, (exec_gptpSyncReceive_of_taken hm).2,
      fun t1 hp => (exec_gptpFollowUpReceive_of_taken hm hp).1 rfl, fun q t1 hp => (exec_gptpFollowUpReceive_of_taken hm hp).2,
      exec_gptpAnnounceReceive_of_taken hm vec steps gm, ⟨_, (exec_gptpPdelayReceive_of_taken hm).1⟩,
      (exec_gptpPdelayReceive_of_taken hm).2 t2⟩, fun hm => exec_gptp_of_not_taken hm vec steps gm,
      fun hp => ⟨fun hr => ⟨(exec_gptpSyncTransmit_of_master hp hr t).1, (exec_gptpSyncTransmit_of_master hp hr t).2, ?_⟩, ?_⟩⟩
    · rw [(exec_gptpSyncReceive_of_taken hm).1, State.takeSync_of_no_bridge hb]
      refine congrArg (fun y => Host.Outcome.next (s.setHalf h y)) ?_
      unfold Half.portMeasure
      dsimp only
      refine ite_congr_iff ?_ rfl rfl
      simp only [Bool.and_eq_true, decide_eq_true_eq, and_assoc]
      exact Iff.rfl
    · rw [exec_announceTransmit]
      exact congrArg Host.Outcome.next (State.mod_congr (if_pos (by simp [hp, hr])))
    · rw [exec_pdelayReqTransmit]
      exact congrArg Host.Outcome.next (State.mod_congr (if_pos hp))
  · dsimp only
    refine ⟨fun ha hl hsrc hdue => ?_, fun ha hl hsrc hdue => ?_, fun ha hann hdue => ?_, fun ha ho hr hu hl hol => ?_, fun hr hdue => ?_,
      exec_timSyncLoad_of_reach, fun hs => ?_, fun hs hp hrsv hlim => ?_⟩
    · rw [exec_syncReceiptTimeout]
      unfold execSyncReceiptTimeout
      refine ⟨_, rfl, ?_⟩
      rw [State.mod_same, if_pos (by simp [ha, hl, hsrc, Half.since, hdue])]
      exact Half.loseSource_tim (by rw [hsrc]; decide)
    · rw [exec_followerExchangeTimeout]
      unfold execFollowerExchangeTimeout
      refine ⟨_, rfl, ?_⟩
      rw [State.mod_same, if_pos (by simp [ha, hl, hsrc, Half.since, hdue])]
      obtain ⟨h1, h2, h3, -, h4, h5⟩ := Half.loseSource_tim (x := s.half h) (by rw [hsrc]; decide)
      exact ⟨h1, h2, h3, h4, h5⟩
    · rw [exec_announceReceiptTimeout]
      exact congrArg (fun u : State => Host.Outcome.next u.relayRoles) (State.mod_congr (if_pos (by simp [ha, hann, Half.since, hdue])))
    · rw [exec_timeExchange_of_follower ha ho hr hu hl hol]
      refine ⟨_, rfl, ?_⟩
      rw [State.mod_same, State.mod_other]
      obtain ⟨hlink, hgm, hoff⟩ := ((s.half h).exchanged (s.half (other h)) ps).reports_frame (s.half (other h))
      rw [Half.timeLink_exchanged] at hlink
      simp only [Half.timeLink, Prod.mk.injEq] at hlink
      obtain ⟨hmem, hsched, -, hinter, hsource, hlast⟩ := hlink
      exact ⟨hinter, hsource, hgm, hoff, hlast, hmem, hsched, rfl⟩
    · rw [exec_startWaitExpiry]
      exact congrArg Host.Outcome.next (State.mod_congr (if_pos (by simp [hr, Half.since, hdue])))
    · rw [exec_timStatus]
      exact congrArg Host.Outcome.next (State.runMsg_done hs (by decide) (by decide) (by simp) rfl)
    · rw [exec_timPortAsym]
      refine congrArg Host.Outcome.next (State.runMsg_done_mod hs (by decide) (by decide) ?_ rfl)
      simp only [List.forall_mem_cons]
      exact ⟨by simpa using hp, rsv_pass hrsv, by simpa using hlim, forall_mem_nil_bad⟩

end Sys2Proof.Machine
end

section
/-! PROOFS. Links and the Tether (spec/15_die_to_die_links.md, spec/17_partners.md). -/

namespace Sys2Proof.Machine
open Sys2Proof.Laws.Memory

/-! ### What the course of commands leaves of a half -/

/-- A half without what the commands of its queues work on: their records but for the open site's reset, memory, the cores that they
    interrupt, what they send, and
the frame's checkpoints and marks. -/
def Half.shell (x : Half) : Half :=
  { x with
    free := 0, sched := { pipe := { sideReset := x.sched.pipe.sideReset } }, mem := {}, cores := {}, links :=
        { x.links with outbox := [], vc0 := 0, vc1 := 0 }
    ump := { x.ump with checkpoints := [], chainMask := [] }
    umpx := { x.umpx with untrusted := false, replay := [], marks := [], ownRec := [] } }

/-- Changes of the commands, of memory and of what is sent, which leave the rest. -/
@[simp] theorem Half.shell_simple (x : Half) :
    (∀ n f, (x.modCmd n f).shell = x.shell) ∧ x.tickSeq.shell = x.shell ∧ x.took.shell = x.shell ∧ (∀ n, (x.rearm n).shell = x.shell) ∧
    (∀ c us, (x.holdCmd c us).shell = x.shell) ∧ (∀ n s f, (x.modBatchSlot n s f).shell = x.shell) ∧
    (∀ n f, (x.modClient n f).shell = x.shell) ∧ (∀ n f, (x.modQueue n f).shell = x.shell) ∧ (∀ w, (x.setSync w).shell = x.shell) ∧
    (∀ m, (x.send m).shell = x.shell) ∧ (∀ c ps, (x.dropResidents c ps).shell = x.shell) ∧
    (∀ c d vas, (x.touch c d vas).shell = x.shell) ∧ (∀ c va t g, (x.setFree c va t g).shell = x.shell) := by
  and_intros <;> intros <;> rfl

theorem Half.shell_foldl {α : Type} {f : Half → α → Half} (hf : ∀ y a, (f y a).shell = y.shell) (l : List α) (x : Half) :
    (l.foldl f x).shell = x.shell := by
  induction l generalizing x with
  | nil => rfl
  | cons a l ih => exact (ih _).trans (hf x a)

theorem Half.shell_ite {p : Prop} [Decidable p] {x y z : Half} (hy : y.shell = x.shell) (hz : z.shell = x.shell) :
    (if p then y else z).shell = x.shell := by
  split
  · exact hy
  · exact hz

@[simp] theorem Half.shell_beginDecodes (x : Half) : x.beginDecodes.shell = x.shell := by
  refine Half.shell_foldl ?_ _ x
  intro y p
  rfl

@[simp] theorem Half.shell_dropCmd (x : Half) (n : Nat) : (x.dropCmd n).shell = x.shell :=
  Half.shell_ite ((Half.shell_beginDecodes _).trans rfl) rfl

@[simp] theorem Half.shell_queueIrq (x : Half) (cl : Nat) : (x.queueIrq cl).shell = x.shell := by
  have hdeliver : ∀ (y : Half) c i, (y.deliver c i).shell = y.shell := fun y c i => Half.shell_ite rfl rfl
  have hlines : ∀ y : Half, (y.clientLines cl).shell = y.shell := fun y => by
    refine Half.shell_foldl ?_ _ y
    intro z p
    exact Half.shell_ite rfl rfl
  unfold Half.queueIrq
  dsimp only
  rw [hlines, hdeliver]
  rfl

@[simp] theorem Half.shell_vwrite (x : Half) (ctx va : Nat) (bs : List Byte) : (x.vwrite ctx va bs).shell = x.shell := by
  rw [x.sameButCells_vwrite ctx va bs]
  rfl

theorem Half.shell_record (x : Half) (c : Cmd) (status det0 det1 : Nat) : (x.record c status det0 det1).shell = x.shell := by
  have hput : ∀ q : Queue, (x.putRecord q c.client (dTag c.desc) c.ringIdx c.inst status det0 det1).shell = x.shell := fun q => by
    simp [Half.putRecord]
  have hirq : ∀ y : Half, (if dIrq c.desc then y.queueIrq c.client else y).shell = y.shell := fun y =>
    Half.shell_ite (y.shell_queueIrq c.client) rfl
  have hhold : ∀ y : Half, (if status = stBusy then y.holdCmd c det1 else y).shell = y.shell := fun y => Half.shell_ite rfl rfl
  unfold Half.record
  dsimp only
  rw [hirq, hhold, Half.shell_dropCmd]
  split
  · exact hput _
  · rfl

@[simp] theorem Half.shell_failCmd (x : Half) (c : Cmd) (k : Chk) : (x.failCmd c k).shell = x.shell := by
  unfold Half.failCmd
  (repeat' split) <;> simp [Half.shell_record]

theorem Half.shell_commitBytes (x : Half) (ctx : Nat) (ws : List (Nat × Byte)) : (x.commitBytes ctx ws).shell = x.shell := by
  have hnote : (x.noteWritten ctx ws).shell = x.shell := Half.shell_ite rfl rfl
  have hmend : ∀ y : Half, (y.mendBlocks ctx ws).shell = y.shell := fun y => Half.shell_ite rfl rfl
  have hhot : ∀ y : Half, (y.dropHot ctx ws).shell = y.shell := fun y => Half.shell_ite rfl rfl
  unfold Half.commitBytes
  rw [Half.sameButCells_vputs]
  refine Eq.trans (b := (((x.noteWritten ctx ws).mendBlocks ctx ws).dropHot ctx ws).shell) rfl ?_
  rw [hhot, hmend, hnote]

theorem Half.shell_applyEff (x : Half) (e : Eff) : (x.applyEff e).shell = x.shell := by
  have hdefect : ∀ f, (x.defectSw f).shell = x.shell := fun f => by
    unfold Half.defectSw
    split <;> rfl
  cases e with
  | detach => exact hdefect _
  | _ => rfl

theorem Half.shell_chainCommit (x : Half) (c : Cmd) : (x.chainCommit c).shell = x.shell := by
  have hmark : (x.markCaptures c.id).shell = x.shell := by
    unfold Half.markCaptures
    split <;> rfl
  have hcompare : ∀ p d, (x.compareCommit p d).shell = x.shell := fun p d => Half.shell_ite (Half.shell_ite rfl rfl) rfl
  have hframe : ∀ y : Half, y.frameCommit.shell = y.shell := fun y => Half.shell_ite rfl rfl
  exact Half.shell_ite rfl (Half.shell_ite hmark (Half.shell_ite (hcompare _ _) (Half.shell_ite ((hframe _).trans (hcompare _ _)) rfl)))

theorem Half.shell_drainWord (x : Half) (ctx va : Nat) : (x.drainWord ctx va).shell = x.shell := by
  unfold Half.drainWord
  split <;> rfl

theorem Half.shell_fillWord (x : Half) (ctx va : Nat) (v : BitVec 64) : (x.fillWord ctx va v).shell = x.shell := by
  unfold Half.fillWord
  split <;> rfl

@[simp] theorem Half.shell_commit (x : Half) (c : Cmd) : (x.commit c).shell = x.shell := by
  have hpost : ∀ y : Half, (y.postOp c).shell = y.shell := fun y =>
    Half.shell_ite (y.shell_fillWord ..) (Half.shell_ite (y.shell_drainWord ..) rfl)
  have heng : ∀ y : Half, (y.engineCommit c).shell = y.shell := fun y => by
    unfold Half.engineCommit
    split <;> rfl
  have hrace : ∀ ws, (x.noteRaces c.id c.ctx ws).shell = x.shell := fun ws => Half.shell_ite rfl rfl
  unfold Half.commit
  dsimp only
  rw [Half.shell_record, hpost, Half.shell_chainCommit]
  refine Half.shell_ite ?_ ((heng _).trans ?_) <;> rw [Half.shell_applyEff, Half.shell_commitBytes, hrace]

@[simp] theorem Half.shell_syncCommit (x : Half) (c : Cmd) : (x.syncCommit c).shell = x.shell :=
  (Half.shell_commit _ _).trans (Half.shell_ite (x.shell_fillWord ..) (Half.shell_ite (x.shell_drainWord ..) rfl))

theorem Half.shell_settleN (n : Nat) (x : Half) : (settleN n x).shell = x.shell := by
  have hone : ∀ y z : Half, y.settleOne = some z → z.shell = y.shell := fun y z h => by
    unfold Half.settleOne at h
    dsimp only at h
    (repeat' split at h) <;> simp only [Option.some.injEq, reduceCtorEq] at h <;> subst h <;> simp
  induction n generalizing x with
  | zero => rfl
  | succ n ih =>
    unfold settleN
    split
    next y hy => exact (ih y).trans (hone x y hy)
    next => rfl

theorem Half.shell_beginN (n : Nat) (x : Half) : (beginN n x).shell = x.shell := by
  have hone : ∀ y z : Half, y.beginOne = some z → z.shell = y.shell := fun y z h => by
    unfold Half.beginOne at h
    dsimp only at h
    (repeat' split at h) <;> simp only [Option.some.injEq, reduceCtorEq] at h <;> subst h <;> simp
  induction n generalizing x with
  | zero => rfl
  | succ n ih =>
    unfold beginN
    split
    next y hy => exact (ih y).trans (hone x y hy)
    next => rfl

@[simp] theorem Half.shell_settle (x : Half) : x.settle.shell = x.shell := by
  have hstamp : ∀ y : Half, y.stampReached.shell = y.shell := fun y => by
    refine Half.shell_foldl ?_ _ y
    intro z c
    rfl
  unfold Half.settle
  dsimp only
  rw [hstamp, Half.shell_settleN, Half.shell_beginN, Half.shell_settleN, Half.shell_beginN]

@[simp] theorem Half.shell_endCmds (x : Half) (ns : List Nat) (status : Nat) : (x.endCmds ns status).shell = x.shell := by
  refine Half.shell_foldl (fun y n => ?_) ns x
  have habandon : ∀ (z : Half) c, (z.abandon c).shell = z.shell := fun z c => Half.shell_ite rfl rfl
  have hwasted : ∀ (z : Half) c k, (z.wasted c k).shell = z.shell := fun z c k => by
    unfold Half.wasted
    split <;> rfl
  unfold Half.endCmd
  (repeat' split)
  · rw [Half.shell_record]
  · rw [Half.shell_record, hwasted, habandon]
    rfl
  · rfl

@[simp] theorem Half.shell_killBatches (x : Half) : x.killBatches.shell = x.shell :=
  (Half.shell_settle _).trans (Half.shell_endCmds _ _ _)

@[simp] theorem Half.shell_discardSent (x : Half) (tether : Bool) : (x.discardSent tether).shell = x.shell := by
  refine (Half.shell_settle _).trans (Half.shell_foldl (fun y n => ?_) _ x)
  unfold Half.endLost
  split
  · rw [Half.shell_record]
    rfl
  · rfl

/-! ### The links of a half -/

@[simp] theorem Half.lnkEvent_link (x : Half) (n j : Nat) : (x.lnkEvent n).link j = x.link j := by
  unfold Half.lnkEvent
  dsimp only
  split <;> simp [Half.link]

/-- A change of a link's state touches its record alone. -/
theorem Half.linkSet_ne (x : Half) {i j : Nat} (st : LnkState) (hj : j ≠ i) : (x.linkSet i st).link j = x.link j := by
  unfold Half.linkSet
  split
  · rfl
  · rw [Half.lnkEvent_link, Half.modLink_ne _ _ _ _ hj]

theorem Half.linkSet_same (x : Half) {i : Nat} (st : LnkState) (hi : i < x.links.recs.length) :
    ((x.linkSet i st).link i).st = st ∧ ((x.linkSet i st).link i).reason = (x.link i).reason ∧
    ((x.linkSet i st).link i).retrains = (x.link i).retrains := by
  unfold Half.linkSet
  split
  next h => exact ⟨h, rfl, rfl⟩
  next =>
    rw [Half.lnkEvent_link, Half.modLink_same _ _ _ hi]
    exact ⟨rfl, rfl, rfl⟩

theorem Half.linkSet_frame (x : Half) (i : Nat) (st : LnkState) :
    (x.linkSet i st).qos = x.qos ∧ (x.linkSet i st).mem = x.mem ∧ (x.linkSet i st).sched = x.sched := by
  unfold Half.linkSet
  split <;> simp

/-- A link outside the half's records reads as one that trains. -/
theorem Half.link_lt {x : Half} {i : Nat} (h : (x.link i).st ≠ .training) : i < x.links.recs.length := by
  refine Nat.lt_of_not_le fun hi => h ?_
  simp [Half.link, List.getElem?_eq_none hi]

theorem Half.modLink_modLink (x : Half) (i : Nat) (f g : Link → Link) :
    (x.modLink i f).modLink i g = x.modLink i (fun l => g (f l)) := by
  simp only [Half.modLink, List.modify_modify_eq]
  rfl

/-! ### Retrains (spec/15_die_to_die_links.md R389) -/

theorem Half.shell_recs {x y : Half} (h : x.shell = y.shell) : x.links.recs = y.links.recs :=
  (congrArg (fun z => z.links.recs) h :)

theorem Half.shell_qos {x y : Half} (h : x.shell = y.shell) : x.qos = y.qos :=
  (congrArg Half.qos h :)

theorem Half.shell_sideReset {x y : Half} (h : x.shell = y.shell) : x.sched.pipe.sideReset = y.sched.pipe.sideReset :=
  (congrArg (fun z => z.sched.pipe.sideReset) h :)

/-- The half with the open site's captures stopped. -/
def Half.holdSite (x : Half) : Half := { x with sched := { x.sched with pipe := { x.sched.pipe with sideReset := true } } }

/-- The half with the open site's captures stopped and its started batches killed. -/
def Half.stopSite (x : Half) : Half := x.holdSite.killBatches

theorem Half.stopSite_frame (x : Half) :
    x.stopSite.links.recs = x.links.recs ∧ x.stopSite.qos = x.qos ∧ x.stopSite.sched.pipe.sideReset = true :=
  have h : x.stopSite.shell = x.holdSite.shell := Half.shell_killBatches _
  ⟨(Half.shell_recs h :), (Half.shell_qos h :), (Half.shell_sideReset h :)⟩

theorem Half.retrainEnd_eq (x : Half) (i reason : Nat) : x.retrainEnd i reason =
    let y := ((x.modLink i (fun l => { l with
      reason := BitVec.ofNat 8 reason, retrains := satInc l.retrains, recoveryDue := none })).linkSet i .retraining).cause 4 true
    if i = 16 then y.stopSite else y := rfl

/-- What a retrain makes of a half's end of link i (R389). -/
def Half.Retrains (x y : Half) (i reason : Nat) : Prop :=
  (y.link i).st = .retraining ∧ (y.link i).reason.toNat = reason ∧ (y.link i).retrains = satInc (x.link i).retrains ∧
  bitAt y.qos.causes 4 = true ∧ (∀ j, j ≠ i → y.link j = x.link j) ∧ (i ≠ 16 → y.mem = x.mem)

/-- A retrain of a link other than the open site's touches the link's record and cause 4 alone; the open site's kills batches too. -/
theorem Half.retrains_retrainEnd (x : Half) {i reason : Nat} (hi : i < x.links.recs.length) (hr : reason < 256) :
    x.Retrains (x.retrainEnd i reason) i reason := by
  rw [Half.retrainEnd_eq]
  generalize hv : x.modLink i (fun l => { l with
    reason := BitVec.ofNat 8 reason, retrains := satInc l.retrains, recoveryDue := none }) = v
  have hlen : i < v.links.recs.length := by simpa [← hv, Half.modLink] using hi
  have hlink : v.link i = { x.link i with
      reason := BitVec.ofNat 8 reason, retrains := satInc (x.link i).retrains, recoveryDue := none } := by
    rw [← hv, Half.modLink_same _ _ _ hi]
  obtain ⟨hst, hreason, hret⟩ := v.linkSet_same .retraining hlen
  dsimp only
  generalize hz : (v.linkSet i .retraining).cause 4 true = z
  have hends : (z.link i).st = .retraining ∧ (z.link i).reason.toNat = reason ∧ (z.link i).retrains = satInc (x.link i).retrains ∧
      bitAt z.qos.causes 4 = true ∧ (∀ j, j ≠ i → z.link j = x.link j) ∧ z.mem = x.mem := by
    subst hz
    refine ⟨hst, ?_, ?_, bitAt_setBit _ 4 (by decide), fun j hj => ?_, ?_⟩
    · refine (congrArg BitVec.toNat hreason).trans ?_
      rw [hlink]
      simpa using hr
    · exact hret.trans (by rw [hlink])
    · exact (v.linkSet_ne .retraining hj).trans (by rw [← hv, Half.modLink_ne _ _ _ _ hj])
    · exact (v.linkSet_frame i .retraining).2.1.trans (by rw [← hv]; simp)
  obtain ⟨hst, hreason, hret, hcause, hother, hmem⟩ := hends
  split
  next h16 =>
    have hl : ∀ j, (z.stopSite).link j = z.link j := fun j => by unfold Half.link; rw [z.stopSite_frame.1]
    have hqos := z.stopSite_frame.2.1
    exact ⟨by rw [hl, hst], by rw [hl, hreason], by rw [hl, hret], by rw [hqos, hcause], fun j hj => (hl j).trans (hother j hj),
      fun h => absurd h16 h⟩
  next => exact ⟨hst, hreason, hret, hcause, hother, fun _ => hmem⟩

theorem Half.retrainEnd_sideReset (x : Half) (reason : Nat) : (x.retrainEnd 16 reason).sched.pipe.sideReset = true := by
  rw [Half.retrainEnd_eq]
  dsimp only
  rw [if_pos rfl]
  exact (Half.stopSite_frame _).2.2

/-- The clock's answer to a Handoff retrain leaves the links, the causes and memory. -/
theorem Half.Retrains.retrainClock {x y : Half} {i reason : Nat} (h : x.Retrains y i reason) : x.Retrains y.retrainClock i reason := by
  have hframe : y.retrainClock.links = y.links ∧ y.retrainClock.qos = y.qos ∧ y.retrainClock.mem = y.mem := by
    unfold Half.retrainClock
    split <;> exact ⟨rfl, rfl, rfl⟩
  obtain ⟨hlinks, hqos, hmem⟩ := hframe
  simpa only [Half.Retrains, Half.link, hlinks, hqos, hmem] using h

/-! ### Events of the links -/

theorem Link.works_lt {x : Half} {i : Nat} (h : (x.link i).works = true) : i < x.links.recs.length := by
  refine Half.link_lt fun ht => ?_
  simp [Link.works, ht] at h

/-- A link that nothing waits for gets no reply. -/
theorem Half.retrainReply_none {x : Half} {i : Nat} (h : (x.link i).slot = none) : x.retrainReply i = x := by
  unfold Half.retrainReply
  rw [h]

@[simp] theorem State.mod_self (s : State) (h : HalfId) : s.mod h (fun x => x) = s := State.mod_id s h _ rfl

theorem exec_flitCrcError_of_works {h : HalfId} {i : Nat} {again : Bool} {s : State} (ha : (s.half h).alive = true) (hi : i < 19)
    (hw : ((s.half h).link i).works = true) :
    exec (.flitCrcError h i again) s =
      let tries := if again then ((s.half h).link i).flitTries + 1 else 0
      let t := s.mod h (fun y => y.modLink i (fun k => { k with
        crc := k.crc + 1, flitTries := tries, replay := if i = handoffLink then k.replay else k.replay + 1 }))
      let t := if i = handoffLink then t.mod (other h) (fun y => y.modLink i (fun k => { k with replay := k.replay + 1 })) else t
      if tries < (if i = tetherLink then 4 else 8) then .next t
      else .next ((t.retrain h i 3).mod h (fun y => if i = handoffLink then y else y.linkVio i (if i = tetherLink then 2 else 1))) := by
  rw [exec_flitCrcError]
  exact if_neg (by simp [ha, hi, hw])

/-- A flit error of a link that is the half's own. -/
theorem exec_flitCrcError_own {h : HalfId} {i : Nat} {again : Bool} {s : State} (ha : (s.half h).alive = true) (hi : i < 19)
    (hw : ((s.half h).link i).works = true) (hn : i ≠ handoffLink) :
    exec (.flitCrcError h i again) s =
      let tries := if again then ((s.half h).link i).flitTries + 1 else 0
      let t := s.mod h (fun y => y.modLink i (fun k => { k with crc := k.crc + 1, flitTries := tries, replay := k.replay + 1 }))
      if tries < (if i = tetherLink then 4 else 8) then .next t
      else .next ((t.retrain h i 3).mod h (fun y => y.linkVio i (if i = tetherLink then 2 else 1))) := by
  rw [exec_flitCrcError_of_works ha hi hw]
  simp only [if_neg hn]

/-- A flit error of the Handoff link. -/
theorem exec_flitCrcError_handoff {h : HalfId} {again : Bool} {s : State} (ha : (s.half h).alive = true)
    (hw : ((s.half h).link handoffLink).works = true) :
    exec (.flitCrcError h handoffLink again) s =
      let tries := if again then ((s.half h).link handoffLink).flitTries + 1 else 0
      let t := (s.mod h (fun y => y.modLink handoffLink (fun k => { k with crc := k.crc + 1, flitTries := tries }))).mod (other h)
        (fun y => y.modLink handoffLink (fun k => { k with replay := k.replay + 1 }))
      if tries < 8 then .next t else .next (t.retrain h handoffLink 3) := by
  rw [exec_flitCrcError_of_works ha (by decide) hw]
  simp only [if_true, State.mod_self]
  rfl

/-- The end of a retrain of a link that no quarantine holds. -/
theorem exec_retrainComplete_own {h : HalfId} {i rate : Nat} {ok : Bool} {bad : List Nat} {die : List Byte} {s : State}
    (ha : (s.half h).alive = true) (hi : i < 19) (hn : i ≠ handoffLink)
    (hst : ((s.half h).link i).st = .retraining ∨ ((s.half h).link i).st = .training) (hq : (s.half h).heldLink i = false) :
    exec (.retrainComplete h i ok rate bad die) s =
      let all := (bad ++ ((s.half h).link i).runFaulty).eraseDups
      let reply := fun (t : State) => t.mod h (fun y => y.retrainReply i)
      if (!ok || rate = 0) && ((s.half h).link i).st = .training && i ≤ 16 then
        .next (reply (s.mod h (fun y => y.stepFails i (if rate = 0 then 1 else 2))))
      else if !ok then .next (reply (s.retrainFailed h i))
      else if i = tetherLink then
        if lnkWidth i all = 0 || rate = 0 then .next (reply (s.linkLost h i)) else .next (reply (s.mod h
            (fun y => y.tetherTrained rate all)))
      else .next (reply (s.mod h (fun y =>
        let z := y.trained i rate all
        if (z.link i).works then z.discovered i die else z))) := by
  rw [exec_retrainComplete]
  refine (if_neg (by rcases hst with hst | hst <;> simp [ha, hi, hst])).trans ?_
  simp only [hq, Bool.false_eq_true, if_false, if_neg hn, State.mod_self]

/-- A retrain that fails for the first or second time, with no message waiting for it, is tried again. -/
theorem State.retrainFailed_again {s : State} {h : HalfId} {i : Nat} (hn : i ≠ handoffLink) (hslot : ((s.half h).link i).slot = none)
    (hf : ((s.half h).link i).fails < 2) :
    s.retrainFailed h i = s.mod h (fun y => y.modLink i (fun k => { k with fails := k.fails + 1, retrains := satInc k.retrains })) := by
  unfold State.retrainFailed
  simp only [hslot, Option.isSome_none, decide_false, Bool.false_and, Bool.or_self, Bool.false_or, decide_eq_true_eq, hn,
    if_neg (Nat.not_le.2 hf), State.mod_mod, if_false]
  exact State.mod_congr (Half.modLink_modLink _ _ _ _)

/-- With no link retraining or within its 1 ms, cause 4 clears. -/
theorem exec_linkRecoveryCauseClear_of_done {h : HalfId} {s : State}
    (hd : ∀ k ∈ (s.half h).links.recs, k.st ≠ .retraining ∧ ∀ t, k.recoveryDue = some t → t ≤ (s.half h).now) :
    exec (.linkRecoveryCauseClear h) s = .next (s.mod h (fun x => ({ x with links := { x.links with
      recs := x.links.recs.map (fun l => { l with recoveryDue := none }) } } : Half).cause 4 false)) := by
  have hmap : (s.half h).links.recs.map (fun (l : Link) => if l.recoveryDue.any (fun t => t ≤ (s.half h).now) then
      { l with recoveryDue := none } else l) =
      (s.half h).links.recs.map (fun l => { l with recoveryDue := none }) := by
    refine List.map_congr_left fun l hl => ?_
    cases ht : l.recoveryDue with
    | none => simp [← ht]
    | some t => simp [(hd l hl).2 t ht]
  rw [exec_linkRecoveryCauseClear]
  refine congrArg Host.Outcome.next (State.mod_congr ?_)
  dsimp only
  rw [hmap]
  refine if_neg ?_
  simp only [List.any_map, List.any_eq_true, not_exists, not_and, Function.comp, Bool.or_eq_true, decide_eq_true_eq, Option.isSome_none,
    Bool.false_eq_true, or_false]
  exact fun l hl => (hd l hl).1

/-- Settles O44: each event by the branch that its conditions leave, a retrain by the halves' ends of it. -/
theorem linkEventsComplete : Obligations.LinkEventsComplete := by
  unfold Obligations.LinkEventsComplete
  refine ⟨?_, ?_⟩
  · intro h i lane rate slot rx bad again lanes die s
    dsimp only
    intro ha
    refine ⟨fun hi hw => ⟨fun hn => ?_, ?_⟩, fun hi hw hlane => ?_, fun hi hw => ?_, fun hs hm hi ht hr hd hq => ?_,
      fun hi hst hq hwid hrate => ?_, ?_, fun hi hst hq => ?_, fun hi hst hq hslot hf => ?_, fun hd => ?_⟩
    · rw [exec_flitCrcError_own ha hi hw hn]
      dsimp only
      generalize (if again = true then ((s.half h).link i).flitTries + 1 else 0) = tries
      refine ⟨fun ht => if_pos ?_, fun hn ht => if_pos ?_, fun hn ht => ?_, fun hn ht => ?_⟩
      · split <;> omega
      · rwa [if_neg hn]
      · rw [if_neg hn, if_neg (Nat.not_lt.2 ht)]
        simp only [if_neg hn]
      · rw [if_pos hn, if_neg (Nat.not_lt.2 ht)]
        simp only [if_pos hn]
    · rintro rfl
      rw [exec_flitCrcError_handoff ha hw]
      exact ⟨fun ht => if_pos ht, fun ht => if_neg (Nat.not_lt.2 ht)⟩
    · have hg : ¬ (!((s.half h).alive && decide (i < 18) && (((s.half h).link i).works || decide
        (((s.half h).link i).st = .retraining)) &&
          decide (lane < lnkData i + lnkSpares i + (if i = handoffLink then 1 else 0)))) = true := by
        rcases hw with hw | hw <;> simp [ha, hi, hw, hlane]
      rw [exec_laneFaultDetected]
      refine ⟨fun hno => (if_neg hg).trans (if_neg ?_), fun hw hk => (if_neg hg).trans (if_pos ?_)⟩
      · rcases hno with hno | hno
        · simp [hno]
        · simpa using fun _ => hno
      · simpa [hw] using hk
    · rw [exec_sidebandLoss]
      exact if_neg (by simp [ha, hi, hw])
    · rw [exec_lnkRetrain]
      unfold execLnkRetrain
      rw [State.runMsg_short hs (by decide) (by decide) (by simp [hm, ht, hr]; simpa using ⟨hi, hd⟩)]
      simp [hm, hq]
    · have hn : i ≠ handoffLink := Nat.ne_of_lt hi
      have ht : i ≠ tetherLink := Nat.ne_of_lt (Nat.lt_of_lt_of_le hi (by decide))
      rw [exec_retrainComplete_own ha (by omega) hn hst hq]
      simp only [hrate, Bool.not_true, decide_false, Bool.or_self, Bool.false_and, Bool.false_eq_true, if_false, if_neg ht, State.mod_mod]
      rfl
    · rintro rfl hst hq hwid hrate
      rw [exec_retrainComplete_own ha (by decide) (by decide) hst hq]
      simp only [hrate, hwid, Bool.not_true, decide_false, Bool.or_self, Bool.false_and, Bool.false_eq_true, if_false, if_true,
          State.mod_mod]
    · rw [exec_retrainComplete_own ha (by omega) (Nat.ne_of_lt hi) (.inr hst) hq]
      refine (if_pos (by simpa [hst] using Nat.le_of_lt_succ hi)).trans ?_
      dsimp only
      rw [State.mod_mod]
    · have hn : i ≠ handoffLink := hi.elim Nat.ne_of_lt (fun e => e ▸ by decide)
      have h19 : i < 19 := hi.elim (fun hi => by omega) (fun e => e ▸ by decide)
      rw [exec_retrainComplete_own ha h19 hn (.inl hst) hq]
      refine (if_neg (by simp [hst])).trans ((if_pos rfl).trans ?_)
      dsimp only
      rw [State.retrainFailed_again hn hslot hf, State.mod_mod]
      refine congrArg Host.Outcome.next (State.mod_congr (Half.retrainReply_none ?_))
      rw [Half.modLink_same _ _ _ (Half.link_lt (by simp [hst]))]
      exact hslot
    · rw [exec_linkRecoveryCauseClear_of_done hd]
      refine ⟨_, rfl, ?_⟩
      rw [State.mod_same]
      refine ⟨?_, fun k hk => ?_, rfl, rfl⟩
      · simp [Half.cause, bitAt]
      · obtain ⟨l, -, rfl⟩ := List.mem_map.1 hk
        rfl
  · intro h i reason s hi ho hr
    dsimp only
    unfold State.retrain
    split
    next hn =>
      subst hn
      have hends : ∀ x : Half, handoffLink < x.links.recs.length → x.Retrains
          ((x.retrainEnd handoffLink reason).retrainClock) handoffLink reason :=
        fun x hx => (x.retrains_retrainEnd hx hr).retrainClock
      rw [State.mod_at_other, State.mod_same, State.mod_same, State.mod_other]
      exact ⟨hends _ hi, fun h => absurd h (by decide), fun _ => hends _ ho, fun hn => absurd rfl hn⟩
    next hn =>
      rw [State.mod_same, State.mod_other]
      exact ⟨(s.half h).retrains_retrainEnd hi hr, fun h16 => h16 ▸
          (s.half h).retrainEnd_sideReset reason, fun h => absurd h hn, fun _ => rfl⟩

/-! ### The Tether (spec/17_partners.md R433, R434) -/

theorem Half.linkAdvisory_frame (x : Half) (i : Nat) :
    (x.linkAdvisory i).ptn = x.ptn ∧ (x.linkAdvisory i).sec = x.sec ∧ (x.linkAdvisory i).mem = x.mem ∧
    (x.linkAdvisory i).tim = x.tim := by
  unfold Half.linkAdvisory
  simp

theorem Half.linkSet_rest (x : Half) (i : Nat) (st : LnkState) :
    (x.linkSet i st).ptn = x.ptn ∧ (x.linkSet i st).sec = x.sec ∧ (x.linkSet i st).mem = x.mem ∧ (x.linkSet i st).tim = x.tim := by
  unfold Half.linkSet
  split <;> simp

/-- Two halves with the same links and the same time. -/
def Half.SameLinks (x y : Half) : Prop := x.links = y.links ∧ x.tim = y.tim

namespace Half.SameLinks
variable {x y : Half}

theorem link (h : x.SameLinks y) (i : Nat) : x.link i = y.link i := by
  unfold Half.link
  rw [h.1]

theorem st (h : x.SameLinks y) : x.st = y.st := by
  unfold Half.st
  rw [h.2]

theorem modLink (h : x.SameLinks y) (i : Nat) (f : Link → Link) : (x.modLink i f).SameLinks (y.modLink i f) := by
  obtain ⟨hlinks, htim⟩ := h
  exact ⟨by simp [Half.modLink, hlinks], by simpa using htim⟩

theorem lnkEvent (h : x.SameLinks y) (i : Nat) : (x.lnkEvent i).SameLinks (y.lnkEvent i) := by
  have hlinks : ∀ z : Half, (z.lnkEvent i).links = { z.links with irqStatus := setBit z.links.irqStatus i } := fun z => by
    unfold Half.lnkEvent
    dsimp only
    split <;> simp
  exact ⟨by rw [hlinks, hlinks, h.1], by simpa using h.2⟩

theorem linkSet (h : x.SameLinks y) (i : Nat) (st : LnkState) : (x.linkSet i st).SameLinks (y.linkSet i st) := by
  unfold Half.linkSet
  rw [h.link, h.st]
  split
  · exact h
  · exact (h.modLink i _).lnkEvent i

theorem linkAdvisory (h : x.SameLinks y) (i : Nat) : (x.linkAdvisory i).SameLinks (y.linkAdvisory i) := by
  have hm := h.modLink i (fun l => { l with advisory := true })
  unfold Half.linkAdvisory
  dsimp only
  refine Half.SameLinks.lnkEvent ?_ i
  rw [hm.link, hm.st, hm.1]
  exact ⟨rfl, hm.2⟩

end Half.SameLinks

/-- A link that comes up again, by its width and rate. -/
theorem Half.trained_up (x : Half) {i rate : Nat} {bad : List Nat} (hw : lnkWidth i bad ≠ 0) (hr : rate ≠ 0) :
    ((x.trained i rate bad).ptn = x.ptn ∧ (x.trained i rate bad).sec = x.sec ∧ (x.trained i rate bad).mem = x.mem ∧
      (x.trained i rate bad).tim = x.tim) ∧
    ∀ y : Half, x.SameLinks y → (x.trained i rate bad).SameLinks (y.trained i rate bad) := by
  have hup : ¬ (decide (lnkWidth i bad = 0) || decide (rate = 0)) = true := by simp [hw, hr]
  unfold Half.trained
  simp only [if_neg hup]
  refine ⟨?_, fun y h => ?_⟩
  · split
    · simp [Half.linkAdvisory_frame, Half.linkSet_rest]
    · simp [Half.linkSet_rest]
  · have hnow : x.now = y.now := congrArg Tim.local' h.2
    rw [h.link, ← hnow]
    split
    · exact (((h.modLink i _).modLink i _).linkSet i _).linkAdvisory i
    · exact ((h.modLink i _).modLink i _).linkSet i _

/-- The Tether at work again under a peer that is not admitted: the half awaits its identity and has signed a report. -/
theorem Half.tetherTrained_unadmitted {x : Half} {rate : Nat} {bad : List Nat} (hw : lnkWidth tetherLink bad ≠ 0) (hr : rate ≠ 0)
    (ha : x.ptn.admitted = false) :
    (x.tetherTrained rate bad).links = (x.trained tetherLink rate bad).links ∧
    (x.tetherTrained rate bad).ptn = { x.ptn with tetherUp := some x.now } ∧ (x.tetherTrained rate bad).sec.tetherReport = true ∧
    (x.tetherTrained rate bad).sec.leaves =
      (if x.sec.tetherReport = false ∧ x.sec.life ≠ 0 ∧ x.sec.leaves < 2 ^ 30 then x.sec.leaves + 1 else x.sec.leaves) ∧
    (x.tetherTrained rate bad).mem = x.mem := by
  obtain ⟨hptn, hsec, hmem, htim⟩ := (x.trained_up (i := tetherLink) hw hr).1
  unfold Half.tetherTrained
  generalize x.trained tetherLink rate bad = y at hptn hsec hmem htim
  have hnow : y.now = x.now := congrArg Tim.local' htim
  have hcond : (!y.sec.tetherReport && decide (y.sec.life ≠ 0) && decide (y.sec.leaves < 2 ^ 30)) = true ↔
      x.sec.tetherReport = false ∧ x.sec.life ≠ 0 ∧ x.sec.leaves < 2 ^ 30 := by
    simp [hsec, and_assoc]
  dsimp only
  rw [if_neg (by simp [hptn, ha])]
  by_cases hi : x.sec.tetherReport = false ∧ x.sec.life ≠ 0 ∧ x.sec.leaves < 2 ^ 30
  · rw [if_pos (hcond.2 hi), if_pos hi]
    exact ⟨rfl, by rw [← hptn, ← hnow]; rfl, rfl, by rw [← hsec]; rfl, hmem⟩
  · rw [if_neg (hi ∘ hcond.1), if_neg hi]
    exact ⟨rfl, by rw [← hptn, ← hnow], rfl, by rw [← hsec], hmem⟩

/-- A fixed partner that is not quarantined is present with its identity. -/
theorem Half.ptnFixed_same {x : Half} {n attach ident : Nat} (hn : n < x.ptn.entries.length) (hq : (x.partner n).st ≠ .quarantined) :
    ((x.ptnFixed n attach ident).partner n).st = .present ∧
    ((x.ptnFixed n attach ident).partner n).ident = BitVec.ofNat 64 ident := by
  unfold Half.ptnFixed
  rw [Half.modPartner_same _ _ _ hn]
  dsimp only
  refine ⟨if_neg ?_, rfl⟩
  split <;> simp [hq]

/-- The quarantine of the Tether's peer for what it says of itself leaves its link. -/
theorem Half.quarantine_peer (x : Half) (code detail addr : Nat) (hn : 11 < x.ptn.entries.length) :
    ((x.quarantine 11 8 code detail addr).partner 11).st = .quarantined ∧
    (x.quarantine 11 8 code detail addr).ptn.admitted = x.ptn.admitted ∧
    (x.quarantine 11 8 code detail addr).ptn.tetherUp = x.ptn.tetherUp := by
  have hptn : ∀ y : Half, (if y.servesChain 11 then y.umpEvent 10 else y).ptn = y.ptn := fun y => by split <;> simp
  unfold Half.quarantine
  simp only [Half.partner, hptn]
  simp [Half.vioNew, Half.modPartner, hn]

/-- Settles O45: each event by what it makes of the Tether and of entry 11. -/
theorem tetherAdmitsItsPeer : Obligations.TetherAdmitsItsPeer := by
  unfold Obligations.TetherAdmitsItsPeer
  intro h rate half bad serial report s
  dsimp only
  intro ha
  refine ⟨fun hw hq hwid hr => ?_, fun hw hup hst hlen => ⟨fun hok => ?_, fun hok => ?_⟩, ?_⟩
  · rw [exec_tetherLinkUp]
    refine ⟨_, rfl, ?_⟩
    rw [State.mod_same, if_neg (by simp [ha, hw, hq, hwid, hr])]
    have hsame : ({ s.half h with ptn := { (s.half h).ptn with admitted := false } } : Half).SameLinks (s.half h) := ⟨rfl, rfl⟩
    obtain ⟨hlinks, hptn, hrep, hleaves, hmem⟩ :=
      Half.tetherTrained_unadmitted (x := { s.half h with ptn := { (s.half h).ptn with admitted := false } }) hwid hr rfl
    refine ⟨?_, by rw [hptn]; rfl, by rw [hptn], hrep, hleaves, hmem⟩
    refine Eq.trans ?_ (((Half.trained_up _ hwid hr).2 _ hsame).link tetherLink)
    unfold Half.link
    rw [hlinks]
  · rw [exec_tetherIdentityReceive]
    refine ⟨_, rfl, ?_⟩
    rw [State.mod_same, if_neg (by simp [ha, hw, Option.isSome_iff_ne_none.1 hup, hst])]
    dsimp only
    rw [if_pos (by simpa [and_assoc] using hok)]
    generalize hy : ({ s.half h with ptn := { (s.half h).ptn with admitted := true, tetherUp := none } } : Half) = y
    have hylen : 11 < y.ptn.entries.length := by rwa [← hy]
    have hyst : (y.partner 11).st ≠ .quarantined := by rwa [← hy]
    obtain ⟨hpst, hident⟩ := Half.ptnFixed_same (attach := 0) (ident := serial.toNat) hylen hyst
    have hlen' : 11 < (y.ptnFixed 11 0 serial.toNat).ptn.entries.length := by simpa [Half.ptnFixed, Half.modPartner] using hylen
    have hpartner : ∀ z : Half, (z.announce 78).partner 11 = z.partner 11 := fun z => by simp [Half.partner]
    rw [hpartner, Half.modPartner_same _ _ _ hlen']
    refine ⟨?_, ?_, hpst, hident.trans (BitVec.ofNat_toNat 64 serial |>.trans (BitVec.setWidth_eq serial)), ?_⟩ <;>
      simp [Half.ptnFixed, Half.modPartner, ← hy]
  · rw [exec_tetherIdentityReceive]
    refine ⟨_, rfl, ?_⟩
    rw [State.mod_same, if_neg (by simp [ha, hw, Option.isSome_iff_ne_none.1 hup, hst])]
    dsimp only
    rw [if_neg (by simpa [and_assoc] using hok)]
    obtain ⟨hpst, hadm, hup⟩ := Half.quarantine_peer (({ s.half h with ptn := {
        (s.half h).ptn with tetherUp := none } } : Half).modPartner 11
      (fun p => { p with viol := satInc p.viol, lastCls := 8, ident := serial })) 1 half 0 (by simpa [Half.modPartner] using hlen)
    have hann : ∀ z : Half, (z.announce 78).ptn = z.ptn := fun z => by simp
    exact ⟨by rw [hann, hup]; rfl, by unfold Half.partner; rw [hann]; exact hpst, by rw [hann, hadm]; rfl⟩
  · rw [exec_tetherLinkDown]
    exact congrArg Host.Outcome.next (State.mod_congr (if_pos ha))

end Sys2Proof.Machine
end

section
/-! PROOFS. The Umpire (spec/18_safety.md). -/

namespace Sys2Proof.Machine
open Sys2Proof.Laws.Memory

/-! ### What messages and interrupts leave of a half -/

/-- A half without its mailbox, its cores and its source of free values: what no answer to a message and no interrupt changes. -/
def Half.body (x : Half) : Half := { x with free := 0, mbx := {}, cores := {} }

theorem Half.body_fields {x y : Half} (h : x.body = y.body) :
    x.me = y.me ∧ x.sched = y.sched ∧ x.mem = y.mem ∧ x.qos = y.qos ∧ x.links = y.links ∧ x.tim = y.tim ∧ x.ptn = y.ptn ∧
    x.ump = y.ump ∧ x.umpx = y.umpx ∧ x.sec = y.sec ∧ x.svc = y.svc ∧ x.pow = y.pow ∧ x.powx = y.powx ∧ x.cfg = y.cfg ∧
    x.frame = y.frame ∧ x.tests = y.tests ∧ x.cfgb = y.cfgb ∧ x.timx = y.timx :=
  ⟨congrArg (fun z => z.me) h, congrArg (fun z => z.sched) h, congrArg (fun z => z.mem) h, congrArg (fun z => z.qos) h,
    congrArg (fun z => z.links) h, congrArg (fun z => z.tim) h, congrArg (fun z => z.ptn) h, congrArg (fun z => z.ump) h,
    congrArg (fun z => z.umpx) h, congrArg (fun z => z.sec) h, congrArg (fun z => z.svc) h, congrArg (fun z => z.pow) h,
    congrArg (fun z => z.powx) h, congrArg (fun z => z.cfg) h, congrArg (fun z => z.frame) h, congrArg (fun z => z.tests) h,
    congrArg (fun z => z.cfgb) h, congrArg (fun z => z.timx) h⟩

theorem Half.body_alive {x y : Half} (h : x.body = y.body) : x.alive = y.alive := by
  obtain ⟨-, -, -, -, -, -, -, -, humpx, -, -, hpow, hpowx, -⟩ := Half.body_fields h
  simp only [Half.alive, humpx, hpow, hpowx]

@[simp] theorem Half.body_deliver (x : Half) (c i : Nat) : (x.deliver c i).body = x.body := by
  unfold Half.deliver
  split <;> rfl

@[simp] theorem Half.body_pairLine (x : Half) (p : Nat) : (x.pairLine p).body = x.body := rfl

@[simp] theorem Half.body_announce (x : Half) (i : Nat) : (x.announce i).body = x.body := Half.body_deliver _ _ _

@[simp] theorem Half.body_clientLines (x : Half) (cl : Nat) : (x.clientLines cl).body = x.body := by
  unfold Half.clientLines
  generalize List.range 2 = l
  induction l generalizing x with
  | nil => rfl
  | cons p l ih =>
    refine (ih _).trans ?_
    dsimp only
    split <;> rfl

@[simp] theorem Half.body_mbxIrq (x : Half) (slot c cl : Nat) : (x.mbxIrq slot c cl).body = x.body := by
  unfold Half.mbxIrq
  dsimp only
  (repeat' split) <;> simp only [Half.body_clientLines, Half.body_deliver] <;> rfl

@[simp] theorem Half.body_finish (x : Half) (slot st : Nat) (fields : List (Nat × Nat × Nat)) :
    (x.finish slot st fields).body = x.body := by
  unfold Half.finish
  dsimp only
  split
  · rw [Half.body_mbxIrq]
    rfl
  · rfl

@[simp] theorem Half.body_finishBad (x : Half) (slot : Nat) (c : Chk) : (x.finishBad slot c).body = x.body := by
  unfold Half.finishBad
  dsimp only
  (repeat' split) <;> exact (Half.body_finish _ _ _ _).trans rfl

@[simp] theorem Half.body_finishWaiting (x : Half) (slot st : Nat) (fields : List (Nat × Nat × Nat)) :
    (x.finishWaiting slot st fields).body = x.body := by
  unfold Half.finishWaiting
  split <;> simp only [Half.body_finish]

@[simp] theorem Half.body_failWaiting (x : Half) (slot : Nat) (c : Chk) : (x.failWaiting slot c).body = x.body := by
  unfold Half.failWaiting
  split <;> simp only [Half.body_finishBad]

/-! ### Roles and changes of the device's mode -/

theorem eq_other_of_ne {g h : HalfId} (hg : g ≠ h) : g = other h := by
  cases g <;> cases h <;> simp_all [other]

/-- What an update of a half leaves of every half. -/
theorem State.mod_keeps {α : Type} {F : Half → α} {f : Half → Half} (hf : ∀ x, F (f x) = F x) (s : State) (h g : HalfId) :
    F ((s.mod h f).half g) = F (s.half g) := by
  by_cases hg : g = h
  · rw [hg, State.mod_same, hf]
  · rw [eq_other_of_ne hg, State.mod_other]

theorem State.mod_body {s : State} {h : HalfId} {f : Half → Half} (hf : ∀ x, (f x).body = x.body) (g : HalfId) :
    ((s.mod h f).half g).body = (s.half g).body := State.mod_keeps hf s h g

/-- A message that waits for a change of mode ends with ST_BUSY. -/
def State.endChange (s : State) : Option (HalfId × Nat) → State
  | some (h, slot) => s.mod h (fun x => x.failWaiting slot { bad := true, st := stBusy, retry := none })
  | none => s

theorem State.endChange_frame (s : State) (o : Option (HalfId × Nat)) :
    (s.endChange o).dev = s.dev ∧ ∀ g, ((s.endChange o).half g).body = (s.half g).body := by
  cases o with
  | none => exact ⟨rfl, fun _ => rfl⟩
  | some p =>
    exact ⟨State.mod_dev _ _ _, State.mod_body (f := fun x => x.failWaiting p.2 _) fun x => x.body_failWaiting p.2 _⟩

theorem State.dropChange_eq (s : State) : s.dropChange =
    let t := (s.endChange (s.dev.change.bind (·.slot))).endChange (s.dev.rejoin.bind (·.slot))
    { t with dev := { t.dev with change := none, rejoin := none } } := by
  have hone : ∀ u : State, u.dev = s.dev →
      (match u.dev.rejoin with | some r => u.endChange r.slot | none => u) = u.endChange (s.dev.rejoin.bind (·.slot)) := fun u hu => by
    rw [hu]
    cases s.dev.rejoin <;> rfl
  dsimp only
  rw [← hone _ (s.endChange_frame _).1]
  unfold State.dropChange
  cases s.dev.change <;> rfl

/-- The end of what was asked for answers its message, and neither a change nor a return is left. -/
theorem State.dropChange_frame (s : State) :
    s.dropChange.dev = { s.dev with change := none, rejoin := none } ∧ ∀ g, (s.dropChange.half g).body = (s.half g).body := by
  obtain ⟨hdev, hbody⟩ := s.endChange_frame (s.dev.change.bind (·.slot))
  obtain ⟨hdev', hbody'⟩ := (s.endChange (s.dev.change.bind (·.slot))).endChange_frame (s.dev.rejoin.bind (·.slot))
  rw [State.dropChange_eq]
  generalize (s.endChange (s.dev.change.bind (·.slot))).endChange (s.dev.rejoin.bind (·.slot)) = t at hdev' hbody'
  rw [← hdev, ← hdev']
  exact ⟨rfl, fun g => (congrArg Half.body (State.half_with _ _ _ _ g)).trans ((hbody' g).trans (hbody g))⟩

theorem State.setRoles_half (s : State) (g : HalfId) :
    s.setRoles.half g = { s.half g with ump := { (s.half g).ump with role := BitVec.ofNat 8 (s.roleOf g) } } := by
  cases g <;> rfl

@[simp] theorem State.setRoles_dev (s : State) : s.setRoles.dev = s.dev := rfl

/-- A half that carries on no work has no role. -/
theorem State.roleOf_of_not_alive {s : State} {h : HalfId} (ha : (s.half h).alive = false) : s.roleOf h = 0 := by
  unfold State.roleOf
  dsimp only
  rw [if_pos (by simp [ha])]

/-! ### Gates and the safe state -/

/-- A change of the gates gives an open one a fresh permit, and interrupts pairs. -/
theorem Half.body_setGates (x : Half) (g : BitVec 2) : (x.setGates g).body = ({ x with ump := { x.ump with
    gates := g, permit := (List.range 2).map (fun j => if g.getLsbD j then x.ump.clock else x.ump.permit[j]?.getD 0) } } : Half).body :=
        by
  unfold Half.setGates
  dsimp only
  generalize ({ x with ump := { x.ump with
    gates := g, permit := (List.range 2).map (fun j => if g.getLsbD j then x.ump.clock else x.ump.permit[j]?.getD 0) } } : Half) = y
  generalize List.range 2 = l
  induction l generalizing y with
  | nil => rfl
  | cons j l ih =>
    refine (ih _).trans ?_
    dsimp only
    split <;> rfl

/-- A half that faults, before the roles are set again: its safe state. -/
def Half.faultSafe (x : Half) : Half := ({ x with umpx := { x.umpx with badFrame := some x.frame } } : Half).enterSafe true

/-- The safe state of a half whose fault has been sent (R453). -/
theorem Half.faultSafe_fields (x : Half) (hl : handoffLink < x.links.recs.length) :
    x.faultSafe.umpx.safe = true ∧ x.faultSafe.ump.gates = 0 ∧ x.faultSafe.ump.role = 0 ∧
    x.faultSafe.pow.domains = 1 ∧ x.faultSafe.sched.cmds = [] ∧ x.faultSafe.mem.cells = [] ∧
    x.faultSafe.mem.tpt = [] ∧ x.faultSafe.sec.debug = 0 ∧ (x.faultSafe.link handoffLink).st = .disabled ∧
    x.faultSafe.links.outbox = [.fault] ∧ x.faultSafe.links.busOut = x.links.busOut ++ [.fault] ∧
    x.faultSafe.ump.safeEntries = satInc x.ump.safeEntries ∧ x.faultSafe.ump.killed = x.ump.killed ∧
    x.faultSafe.ptn.log = x.ptn.log ∧ x.faultSafe.svc.flashA = x.svc.flashA ∧
    x.faultSafe.svc.flashB = x.svc.flashB ∧ x.faultSafe.sec.life = x.sec.life := by
  obtain ⟨-, -, -, -, hlinks, -, hptn, hump, -, hsec, hsvc, -⟩ := Half.body_fields (({ x with umpx :=
      { x.umpx with badFrame := some x.frame } } : Half).body_setGates 0)
  unfold Half.faultSafe Half.enterSafe Half.closeGates
  dsimp only at hlinks hptn hump hsec hsvc ⊢
  generalize Half.setGates _ 0 = z at hlinks hptn hump hsec hsvc
  refine ⟨rfl, rfl, rfl, rfl, rfl, rfl, rfl, rfl, ?_, rfl, rfl, ?_, ?_, ?_, ?_, ?_, ?_⟩
  · rw [Half.modLink_same _ _ _ (by simpa [Half.switchedOff, hlinks] using hl)]
  · simp [Half.switchedOff, hump]
  · simp [Half.switchedOff, hump]
  · simp [Half.switchedOff, hptn]
  · simp [Half.switchedOff, hsvc]
  · simp [Half.switchedOff, hsvc]
  · simp [Half.switchedOff, hsec]

theorem Half.alive_of_safe {x : Half} (h : x.umpx.safe = true) : x.alive = false := by
  simp [Half.alive, h]

/-! ### Half faults (R453) -/

/-- A half whose domains did not fall asserts KILL. -/
def Half.assertKill (x : Half) : Half := { x with ump := { x.ump with kill := true, killed := true } }

/-- The other half's checkpoints when a half faults: a takeover that was asked for starts before the untrusted frame (R460). -/
def State.untrustSent (s : State) (h : HalfId) : State :=
  if (s.half h).umpx.sub = .sent then s.mod (other h) (fun y => y.dropUntrusted (s.half h).umpx.subFrame) else s

theorem State.untrustSent_frame (s : State) (h : HalfId) :
    (s.untrustSent h).half h = s.half h ∧ (s.untrustSent h).dev = s.dev ∧
    ((s.untrustSent h).half (other h)).mem = (s.half (other h)).mem ∧
    ((s.untrustSent h).half (other h)).sched = (s.half (other h)).sched ∧
    ((s.untrustSent h).half (other h)).alive = (s.half (other h)).alive := by
  unfold State.untrustSent
  split
  · simp [Half.dropUntrusted, Half.alive]
  · exact ⟨rfl, rfl, rfl, rfl, rfl⟩

/-- The wake line of a half that sleeps is raised when the other one faults. -/
def State.wakePeer (s : State) (h : HalfId) (falls : Bool) : State :=
  let o := s.half (other h)
  if falls && (o.pow.st = .hibernate || o.pow.st = .off) && !o.powx.inReset then
    s.mod (other h) (fun x => { x with powx := { x.powx with wakeLine := true } })
  else s

theorem State.wakePeer_frame (s : State) (h : HalfId) (falls : Bool) :
    (s.wakePeer h falls).half h = s.half h ∧ (s.wakePeer h falls).dev = s.dev ∧
    ((s.wakePeer h falls).half (other h)).mem = (s.half (other h)).mem ∧
    ((s.wakePeer h falls).half (other h)).sched = (s.half (other h)).sched := by
  unfold State.wakePeer
  dsimp only
  split
  · simp
  · exact ⟨rfl, rfl, rfl, rfl⟩

/-- The device while a half has just faulted. -/
def State.faulted (s : State) (h : HalfId) (falls : Bool) : State :=
  let t := (s.untrustSent h).mod h Half.faultSafe
  (if falls then t else t.mod h Half.assertKill).wakePeer h falls

theorem State.faulted_frame (s : State) (h : HalfId) (falls : Bool) :
    (s.faulted h falls).half h = (if falls then (s.half h).faultSafe else (s.half h).faultSafe.assertKill) ∧
    (s.faulted h falls).dev = s.dev ∧ ((s.faulted h falls).half (other h)).mem = (s.half (other h)).mem ∧
    ((s.faulted h falls).half (other h)).sched = (s.half (other h)).sched := by
  obtain ⟨hh, hdev, hmem, hsched, -⟩ := s.untrustSent_frame h
  unfold State.faulted
  cases falls <;> simp [State.wakePeer_frame, hh, hdev, hmem, hsched]

/-- A half fault: without another half at work the device is in SOLO. -/
theorem State.halfFault_of_alive {s : State} {h : HalfId} {falls : Bool} (ha : (s.half h).alive = true) :
    s.halfFault h falls =
      (if (s.half (other h)).alive then s.faulted h falls else (s.faulted h falls).dropChange.soloAfterFault).setRoles := by
  have halive : ((if falls then (s.untrustSent h).mod h Half.faultSafe
      else ((s.untrustSent h).mod h Half.faultSafe).mod h Half.assertKill).half (other h)).alive = (s.half (other h)).alive := by
    rw [← (s.untrustSent_frame h).2.2.2.2]
    split <;> simp
  rw [← halive]
  unfold State.halfFault State.faulted State.wakePeer State.untrustSent
  rw [if_neg (by simp [ha])]
  cases (s.half h).umpx.sub <;> rfl

/-- A half without work or role keeps all when the roles are set again. -/
theorem State.setRoles_of_dead {s : State} {h : HalfId} (ha : (s.half h).alive = false) (hr : (s.half h).ump.role = 0) :
    s.setRoles.half h = s.half h := by
  rw [State.setRoles_half, State.roleOf_of_not_alive ha, show BitVec.ofNat 8 0 = (s.half h).ump.role from hr.symm]

theorem State.soloAfterFault_of_dead {s : State} {h : HalfId} (ha : (s.half h).alive = false) (hr : (s.half h).ump.role = 0) :
    s.soloAfterFault.half h = s.half h := by
  have hd : ∀ d : Dev, ({ s with dev := d } : State).half h = s.half h := fun d => State.half_with _ _ _ _ _
  unfold State.soloAfterFault
  rw [State.setRoles_of_dead (by rwa [hd]) (by rwa [hd]), hd]

/-- What a half fault leaves of its half, up to messages and interrupts. -/
theorem State.halfFault_body {s : State} {h : HalfId} {falls : Bool} (ha : (s.half h).alive = true)
    (hl : handoffLink < (s.half h).links.recs.length) :
    ((s.halfFault h falls).half h).body = (if falls then (s.half h).faultSafe else (s.half h).faultSafe.assertKill).body := by
  obtain ⟨hh, -, -, -⟩ := s.faulted_frame h falls
  obtain ⟨hsafe, -, hrole, -⟩ := Half.faultSafe_fields (s.half h) hl
  have hdead : ((s.faulted h falls).half h).alive = false := Half.alive_of_safe (by rw [hh]; split <;> exact hsafe)
  have hnone : ((s.faulted h falls).half h).ump.role = 0 := by rw [hh]; split <;> exact hrole
  rw [State.halfFault_of_alive ha, ← hh]
  split
  · rw [State.setRoles_of_dead hdead hnone]
  · have hbody := (s.faulted h falls).dropChange_frame.2 h
    obtain ⟨-, -, -, -, -, -, -, hump, -⟩ := Half.body_fields hbody
    have hdead' := (Half.body_alive hbody).trans hdead
    have hnone' : ((s.faulted h falls).dropChange.half h).ump.role = 0 := by rw [hump, hnone]
    have hsolo := State.soloAfterFault_of_dead hdead' hnone'
    rw [State.setRoles_of_dead (by rw [hsolo]; exact hdead') (by rw [hsolo]; exact hnone'), hsolo, hbody]

theorem Half.since_of_le {x : Half} {t ns : Nat} (h : t + ns ≤ x.now) : x.since t ns = true := decide_eq_true h

/-- Settles O46: each monitor by its condition, and a half fault by what the safe state keeps. -/
theorem monitorsBringHalfFaults : Obligations.MonitorsBringHalfFaults := by
  unfold Obligations.MonitorsBringHalfFaults
  refine ⟨?_, ?_⟩
  · intro h p falls s
    dsimp only
    refine ⟨fun hu => ?_, fun ha hu => ?_, fun ha hp hr => ?_⟩
    · rw [exec_umpireSelfFailure]
      exact congrArg Host.Outcome.next (State.mod_congr (if_pos hu))
    · have hmon : ∀ seen : Bool, seen = true → s.monitor h seen falls = .next (s.halfFault h falls) := fun seen hs =>
        if_pos (by simp [ha, hu, hs])
      refine ⟨fun hb hd => ?_, ?_, ?_, ?_, fun k hk t ht hdue => ?_, fun k hk t ht hdue => ?_⟩
      · rw [exec_captainHeartbeatLoss]
        exact hmon _ (by simp [hb, Half.onlyLogs, hd])
      · rw [exec_refclkFailure]
        exact hmon _ rfl
      · rw [exec_supplyOutOfWindow]
        exact hmon _ rfl
      · rw [exec_captainMemoryUe]
        exact hmon _ rfl
      · rw [exec_junctionOvertemp]
        exact hmon _ (List.any_eq_true.2 ⟨k, hk, by rw [ht, Option.any_some]; exact Half.since_of_le hdue⟩)
      · rw [exec_hbmOvertemp]
        exact hmon _ (List.any_eq_true.2 ⟨k, hk, by rw [ht, Option.any_some]; exact Half.since_of_le hdue⟩)
    · have hexec : exec (.pairLockstepDisagree h p falls) s = .next (s.pairFails h p falls) := if_pos (by simp [ha, hp, hr])
      rw [hexec]
      unfold State.pairFails
      dsimp only
      refine ⟨fun ho => ?_, fun ho => ⟨fun hr' => ?_, fun hr' hl => ?_, fun hr' hl => ?_⟩⟩ <;> rw [ho]
      · rfl
      · rw [hr']; rfl
      · rw [hr', if_neg (by decide), if_neg (by decide), if_pos hl]
      · rw [hr', if_neg (by decide), if_neg (by decide), if_neg hl]
  · intro h falls s ha hl
    dsimp only
    have hbody := Half.body_fields (State.halfFault_body (falls := falls) ha hl)
    generalize hz : (if falls then (s.half h).faultSafe else (s.half h).faultSafe.assertKill) = z at hbody
    obtain ⟨-, hsched, hmem, -, hlinks, -, hptn, hump, humpx, hsec, hsvc, hpow, -⟩ := hbody
    obtain ⟨hsafe, hgates, hrole, hdom, hcmds, hcells, htpt, hdebug, hlink, hout, hbus, hentries, hkilled, hlog, hA, hB, hlife⟩ :=
      Half.faultSafe_fields (s.half h) hl
    obtain ⟨-, hdev, homem, hosched⟩ := s.faulted_frame h falls
    have hkeep : z.sched = (s.half h).faultSafe.sched ∧ z.mem = (s.half h).faultSafe.mem ∧ z.links = (s.half h).faultSafe.links ∧
        z.ptn = (s.half h).faultSafe.ptn ∧ z.umpx = (s.half h).faultSafe.umpx ∧ z.sec = (s.half h).faultSafe.sec ∧
        z.svc = (s.half h).faultSafe.svc ∧ z.pow = (s.half h).faultSafe.pow ∧ z.ump.gates = (s.half h).faultSafe.ump.gates ∧
        z.ump.role = (s.half h).faultSafe.ump.role ∧ z.ump.safeEntries = (s.half h).faultSafe.ump.safeEntries := by
      rw [← hz]
      split <;> exact ⟨rfl, rfl, rfl, rfl, rfl, rfl, rfl, rfl, rfl, rfl, rfl⟩
    obtain ⟨ksched, kmem, klinks, kptn, kumpx, ksec, ksvc, kpow, kgates, krole, kentries⟩ := hkeep
    have hsafe' : ((s.halfFault h falls).half h).umpx.safe = true := by rw [humpx, kumpx, hsafe]
    refine ⟨hsafe', Half.alive_of_safe hsafe', by rw [hump, kgates, hgates], by rw [hump, krole, hrole], by rw [hpow, kpow, hdom],
      by rw [hsched, ksched, hcmds], by rw [hmem, kmem, hcells], by rw [hmem, kmem, htpt], by rw [hsec, ksec, hdebug],
      by unfold Half.link; rw [hlinks, klinks]; exact hlink, by rw [hlinks, klinks, hout], by rw [hlinks, klinks, hbus],
      by rw [hump, kentries, hentries], fun hf => ?_, fun hf => ?_, by rw [hptn, kptn, hlog], by rw [hsvc, ksvc, hA],
      by rw [hsvc, ksvc, hB], by rw [hsec, ksec, hlife], fun ho => ?_, fun ho => ?_⟩
    · rw [hump, ← hz, hf]
      exact ⟨rfl, rfl⟩
    · rw [hump, ← hz, if_pos hf, hkilled]
    · rw [State.halfFault_of_alive ha, if_neg (by simp [ho])]
      refine ⟨rfl, rfl, ?_⟩
      exact (congrArg Dev.change (s.faulted h falls).dropChange_frame.1 :)
    · rw [State.halfFault_of_alive ha, if_pos ho]
      exact ⟨hdev, by rw [State.setRoles_half]; exact homem, by rw [State.setRoles_half]; exact hosched⟩

/-! ### The exchange of the Umpires -/

/-- The first message of its kind that waits on the Handoff link is taken, when it is SAFETY traffic. -/
theorem State.takeMsg_first {α : Type} {s : State} {h : HalfId} {f : LinkMsg → Option α} {pre post : List LinkMsg} {m : LinkMsg} {b : α}
    (hup : (s.half (other h)).handoffUp = true) (ho : (s.half (other h)).links.outbox = pre ++ m :: post) (hpre : ∀ k ∈ pre, f k = none)
    (hm : f m = some b) (hs : (s.half (other h)).isSafety m = true) :
    s.takeMsg h f = some (b, s.mod (other h) (fun y => { y with links := { y.links with outbox := pre ++ post } })) := by
  unfold State.takeMsg
  dsimp only
  rw [if_neg (by simp [hup]), Half.takeOut_first ho hpre hm (.inl hs)]
  rfl

/-- The first message of its kind that waits on the management bus is taken. -/
theorem State.takeBus_first {α : Type} {s : State} {h : HalfId} {f : LinkMsg → Option α} {pre post : List LinkMsg} {m : LinkMsg} {b : α}
    (ho : (s.half (other h)).links.busOut = pre ++ m :: post) (hpre : ∀ k ∈ pre, f k = none) (hm : f m = some b) :
    s.takeBus h f = some (b, s.mod (other h) (fun y => { y with links := { y.links with busOut := pre ++ post } })) := by
  unfold State.takeBus
  rw [ho, takeFirst_append hpre hm]
  rfl

/-! ### The device when a half is lost -/

@[simp] theorem State.moveChain_dev (s : State) (h : HalfId) : (s.moveChain h).dev = { s.dev with chain := h } := by
  unfold State.moveChain State.setLead
  simp

@[simp] theorem State.openChain_dev (s : State) (h : HalfId) : (s.openChain h).dev = s.dev := by
  unfold State.openChain
  split
  · rfl
  · exact State.mod_dev _ _ _

@[simp] theorem State.soloAfterFault_dev (s : State) :
    s.soloAfterFault.dev = { s.dev with mode := .solo, soloFault := true, inMode := 0, midFrame := true } := rfl

@[simp] theorem State.takeover_dev (s : State) (h : HalfId) : (s.takeover h).dev = { s.dev with chain := h } := by
  unfold State.takeover
  simp

/-- A half that loses the other one is alone with the chain (R454). -/
theorem State.lostPeer_dev (s : State) (h : HalfId) : (s.lostPeer h).dev.mode = .solo ∧ (s.lostPeer h).dev.chain = h := by
  unfold State.lostPeer
  dsimp only
  generalize (s.peerGone (other h)).dropChange = t
  split
  · exact ⟨rfl, rfl⟩
  · generalize hu : t.mod h _ = u
    split
    · simp
    · split
      next hm =>
        split
        next hc =>
          (repeat' split) <;> simp [hc]
        next => simp
      next hm =>
        split
        next hc => simp [hc]
        next => simp
      next hm =>
        split
        next hc => exact ⟨hm, hc⟩
        next =>
          split <;> simp

/-- A half that gives its gates up has none open. -/
theorem Half.giveGates_gates (x : Half) : x.giveGates.ump.gates = 0 := by
  obtain ⟨-, -, -, -, -, -, -, hump, -⟩ := Half.body_fields (x.body_setGates 0)
  unfold Half.giveGates Half.closeGates
  dsimp only
  split
  · exact (congrArg Umpire.gates hump :)
  · exact (congrArg Umpire.gates hump :)

/-- The gate of pair j is open on a permit that is 2 ms old. -/
def Half.gateLate (x : Half) (j : Nat) : Bool := x.ump.gates.getLsbD j && decide (x.ump.permit[j]?.getD 0 + 2000000 ≤ x.ump.clock)

/-- The gates that stay open. -/
def Half.liveGates (x : Half) : BitVec 2 :=
  (List.range 2).foldl (fun (g : BitVec 2) j => if x.gateLate j then g &&& ~~~(1#2 <<< j) else g) x.ump.gates

theorem Half.liveGates_getLsbD (x : Half) {j : Nat} (hj : j < 2) : x.liveGates.getLsbD j = (x.ump.gates.getLsbD j && !x.gateLate j) := by
  have hrange : List.range 2 = [0, 1] := rfl
  simp only [Half.liveGates, hrange, List.foldl_cons, List.foldl_nil]
  rcases (by omega : j = 0 ∨ j = 1) with rfl | rfl <;> cases x.gateLate 0 <;> cases x.gateLate 1 <;> simp

theorem Half.liveGates_eq (x : Half) {j : Nat} (hj : j < 2) :
    x.liveGates.getLsbD j = (x.ump.gates.getLsbD j && decide (x.ump.clock < x.ump.permit[j]?.getD 0 + 2000000)) := by
  have hlt : ∀ a b : Nat, decide (b < a) = !decide (a ≤ b) := fun a b => by
    rw [← decide_not]
    exact decide_eq_decide.2 Nat.not_le.symm
  rw [x.liveGates_getLsbD hj, Half.gateLate, hlt]
  cases x.ump.gates.getLsbD j <;> simp only [Bool.true_and, Bool.false_and]

/-- The gates whose permits have expired close; nothing but the gates and the pairs' interrupts changes. -/
theorem exec_gatePermitExpiry_body (h : HalfId) (s : State) : ∃ t, exec (.gatePermitExpiry h) s = .next t ∧
    (t.half h).body = ({ s.half h with ump := { (s.half h).ump with gates := (s.half h).liveGates } } : Half).body := by
  rw [exec_gatePermitExpiry]
  refine ⟨_, rfl, ?_⟩
  rw [State.mod_same]
  change (if (s.half h).liveGates = (s.half h).ump.gates then s.half h
    else (List.range 2).foldl (fun (z : Half) j => if (s.half h).gateLate j then z.pairLine j else z)
      { s.half h with ump := { (s.half h).ump with gates := (s.half h).liveGates } }).body = _
  split
  next hg => rw [hg]
  next =>
    generalize ({ s.half h with ump := { (s.half h).ump with gates := (s.half h).liveGates } } : Half) = y
    generalize List.range 2 = l
    induction l generalizing y with
    | nil => rfl
    | cons j l ih =>
      refine (ih _).trans ?_
      dsimp only
      split <;> rfl

/-- Settles O47: each exchange by the message that it takes. -/
theorem umpireExchangesComplete : Obligations.UmpireExchangesComplete := by
  unfold Obligations.UmpireExchangesComplete
  intro h pre post s
  dsimp only
  refine ⟨fun hu => ⟨?_, fun hpre ho => ?_, fun hpre hup ho => ?_⟩, fun fr fu pl mask marks lp grid hpre ha hup ho => ?_,
    fun fr hpre ha hu hup ho => ?_, fun hpre ha hu hup ho => ?_, fun hu ha hh hb hp => ?_, fun hu ha hf => ?_, s.lostPeer_dev h,
    fun hu hp => ?_, ?_, fun hc => ?_⟩
  · rw [exec_umpireHeartbeatSend]
    exact congrArg Host.Outcome.next (State.mod_congr (if_neg (by simp [hu])))
  · rw [exec_umpireHeartbeatReceive]
    unfold execUmpireHeartbeatReceive
    rw [if_neg (by simp [hu]), if_pos rfl, State.takeBus_first (b := ()) ho ?_ rfl]
    · rfl
    · intro k hk
      cases k with
      | heartbeat => exact absurd hk hpre
      | _ => rfl
  · rw [exec_umpireHeartbeatReceive]
    unfold execUmpireHeartbeatReceive
    rw [if_neg (by simp [hu]), if_neg (by decide), State.takeMsg_first (b := ()) hup ho ?_ rfl rfl]
    · rfl
    · intro k hk
      cases k with
      | heartbeat => exact absurd hk hpre
      | _ => rfl
  · rw [exec_checkpointReceive]
    unfold execCheckpointReceive
    rw [if_neg (by simp [ha])]
    simp only [State.takeMsg_first hup ho hpre rfl rfl]
  · rw [exec_substituteReceive]
    unfold execSubstituteReceive
    rw [if_neg (by simp [ha, hu]), State.takeMsg_first (b := fr) hup ho ?_ rfl rfl]
    · refine ⟨_, rfl, ?_⟩
      rw [State.setRoles_half, State.setRoles_half, State.setRoles_dev]
      simp only [State.mod_same, State.mod_other, State.mod_at_other, State.mod_dev]
      refine ⟨by simp, by simp, ?_, Half.giveGates_gates _, trivial⟩
      rw [Half.umpEvent_ump]
      exact bitAt_setBit _ 3 (by decide)
    · intro k hk
      cases k with
      | substitute f => exact absurd hk (hpre f)
      | _ => rfl
  · rw [exec_gateClosedReceive]
    unfold execGateClosedReceive
    rw [if_neg (by simp [ha, hu]), State.takeMsg_first (b := ()) hup ho ?_ rfl rfl]
    · dsimp only
      rw [State.mod_at_other, State.mod_dev]
      exact ⟨fun hsub => if_pos hsub, fun hsub hc => (if_neg hsub).trans (if_pos hc), fun hsub hc => (if_neg hsub).trans (if_neg hc)⟩
    · intro k hk
      cases k with
      | gateClosed => exact absurd hk hpre
      | _ => rfl
  · rw [exec_peerLoss]
    refine (if_neg (by simp [hu])).trans ((if_pos ?_).trans ?_)
    · simpa [hh, hb, ha, or_assoc] using hp
    · refine congrArg (fun t : State => Host.Outcome.next (t.lostPeer h)) (State.mod_congr ?_)
      simp [hh, hb]
  · rw [exec_faultReceive]
    refine ⟨_, if_pos ?_, State.lostPeer_dev _ _⟩
    simp only [ha, hu, Bool.true_and, Bool.or_eq_true, List.any_eq_true]
    exact hf.imp (fun hf => ⟨_, hf, rfl⟩) (fun hf => ⟨_, hf, rfl⟩)
  · rw [exec_gatePermitRefresh]
    refine ⟨_, rfl, ?_⟩
    rw [State.mod_same, if_pos (by simp [hu, hp])]
    refine ⟨rfl, fun j hj => ?_⟩
    simp only [List.getElem?_map, List.getElem?_zipIdx, List.getElem?_eq_getElem hj, Option.map_some, Nat.zero_add]
    exact apply_ite some _ _ _
  · obtain ⟨t, ht, hbody⟩ := exec_gatePermitExpiry_body h s
    obtain ⟨-, hsched, hmem, -, -, -, -, hump, -⟩ := Half.body_fields hbody
    exact ⟨t, ht, hmem, hsched, fun j hj => by rw [hump]; exact Half.liveGates_eq _ hj⟩
  · rw [exec_mbxHeartbeatTick]
    refine ⟨_, rfl, ?_⟩
    rw [State.mod_same, if_pos hc]
    exact ⟨rfl, rfl, rfl, rfl⟩

/-! ### Verdicts on warm-ups and on the records of MIRROR -/

/-- The first disagreement of an engine that no rule of a spare, a swap or a rerun concerns. -/
theorem Half.firstDisagree_iff (x : Half) (n : Nat) : x.firstDisagree n = true ↔
    (x.engine n).st ≠ .spare ∧ x.svc.upd.any (fun u => u.cur = some n) = false ∧ n ∉ x.umpx.retrial ∧
      x.ump.rerun.find? (fun r => r.1 = n) = none := by
  unfold Half.firstDisagree
  simp [and_assoc]

theorem Half.verdict_of_firstDisagree {x : Half} {n : Nat} (h : x.firstDisagree n = true) (agrees : Bool) :
    x.verdict n agrees = (if agrees then (x.modEngine n (fun e => { e with warmDone := false })).passEngine n
      else (x.modEngine n (fun e => { e with warmDone := false })).beginRerun n) := by
  obtain ⟨hst, hupd, hret, hrerun⟩ := (x.firstDisagree_iff n).1 h
  unfold Half.verdict
  dsimp only
  rw [if_neg hst, if_neg (by simpa using hupd), if_neg (by simpa using hret)]
  have hr : (x.modEngine n (fun e => { e with warmDone := false })).ump.rerun.find? (fun r => r.1 = n) = none := hrerun
  rw [hr]

/-- Trust in checkpoints touches the Umpire's records alone. -/
theorem Half.trust_sched (x : Half) : x.trust.sched = x.sched := by
  unfold Half.trust
  (repeat' split) <;> rfl

theorem Half.passEngine_engine (x : Half) (n k : Nat) :
    (x.passEngine n).engine k = (x.modEngine n (fun e => { e with warmup := 1, passedFrame := true, rerunNext := false })).engine k := by
  unfold Half.passEngine Half.engine
  rw [Half.trust_sched]

/-- What a first disagreement, or a pass in its place, makes of the engine. -/
theorem Half.verdict_engine {x : Half} {n : Nat} (h : x.firstDisagree n = true) (hn : n < x.sched.engines.length) :
    ((x.verdict n true).engine n).warmup = 1 ∧ ((x.verdict n true).engine n).passedFrame = true ∧
    ((x.verdict n true).engine n).warmDone = false ∧ (∀ k, k ≠ n → (x.verdict n true).engine k = x.engine k) ∧
    ((x.verdict n false).engine n).passedFrame = false ∧ (x.verdict n false).ump.rerun = (n, 0, x.frame) :: x.ump.rerun ∧
    (x.verdict n false).umpx.badFrame = some x.frame ∧ (∀ k, k ≠ n → (x.verdict n false).engine k = x.engine k) := by
  rw [Half.verdict_of_firstDisagree h, Half.verdict_of_firstDisagree h, if_pos rfl, if_neg (by decide)]
  have hlen : n < (x.modEngine n (fun e => { e with warmDone := false })).sched.engines.length := by simpa using hn
  have hbegin : ∀ k, ((x.modEngine n (fun e => { e with warmDone := false })).beginRerun n).engine k =
      ((x.modEngine n (fun e => { e with warmDone := false })).modEngine n
        (fun e => { e with passedFrame := false, rerunNext := false })).engine k := fun _ => rfl
  simp only [Half.passEngine_engine, hbegin, Half.modEngine_same _ _ _ hlen, Half.modEngine_same _ _ _ hn]
  exact ⟨trivial, trivial, trivial, fun k hk => by rw [Half.modEngine_ne _ _ _ _ hk, Half.modEngine_ne _ _ _ _ hk], trivial, rfl, rfl,
    fun k hk => by rw [Half.modEngine_ne _ _ _ _ hk, Half.modEngine_ne _ _ _ _ hk]⟩

theorem exec_umpireVerdict_of_done {h : HalfId} {n : Nat} {out : List WarmElem} {s : State} (ha : (s.half h).alive = true)
    (hu : (s.half h).umpireRuns = true) (hw : ((s.half h).engine n).warmDone = true) :
    exec (.umpireVerdict h n out) s =
      let agrees := (s.half h).warmAgrees out
      let t := (s.mod h (fun x => x.verdict n agrees)).trustCopies h
      if agrees = false ∧ (s.half h).firstDisagree n = true ∧ (n ∈ (s.half h).ump.prevMask ∨ ((s.half h).engine n).st = .quick) ∧
          s.dev.chain = h ∧ s.dev.evacuated = false ∧ (s.half h).powx.ready = true then
        .next (t.untrustedFrame h (s.half h).ump.prevFrame).setRoles
      else .next t := by
  rw [exec_umpireVerdict]
  refine (if_neg (by simp [ha, hu, hw])).trans ?_
  dsimp only
  refine ite_congr_iff ?_ rfl rfl
  simp [and_assoc]

/-- A NaN and an infinity match their own kind alone (spec/03_arithmetic_formats.md R88). -/
theorem bandMatch_kinds (tol : List (Nat × Nat)) (w : WarmElem) :
    (warmNum w.fmt w.y w.yScale = .nan → (bandMatch tol w = true ↔ warmNum w.fmt w.r w.rScale = .nan)) ∧
    (warmNum w.fmt w.r w.rScale = .nan → (bandMatch tol w = true ↔ warmNum w.fmt w.y w.yScale = .nan)) ∧
    (∀ b, warmNum w.fmt w.y w.yScale = .inf b → (bandMatch tol w = true ↔ warmNum w.fmt w.r w.rScale = .inf b)) ∧
    (∀ b, warmNum w.fmt w.r w.rScale = .inf b → (bandMatch tol w = true ↔ warmNum w.fmt w.y w.yScale = .inf b)) := by
  unfold bandMatch
  dsimp only
  cases warmNum w.fmt w.y w.yScale <;> cases warmNum w.fmt w.r w.rScale <;> grind

/-- A comparison that fails changes the messages that wait and the device's change alone. -/
theorem State.noteCompare_body (s : State) (g : HalfId) : (s.noteCompare.half g).body = (s.half g).body := by
  unfold State.noteCompare
  split
  · exact (congrArg Half.body (State.half_with _ _ _ _ g)).trans (s.dropChange_frame.2 g)
  · rfl

/-- A mismatch is counted and sets event 5 (R452). -/
theorem Half.mismatch_counts (x : Half) (frame : Nat) :
    (x.mismatch frame).umpx.ownRec = x.umpx.ownRec ∧ (x.mismatch frame).ump.mismatches = satInc x.ump.mismatches ∧
    bitAt (x.mismatch frame).ump.events 5 = true := by
  have h5 : ∀ r : BitVec 32, bitAt (setBit r 5) 5 = true := fun r => bitAt_setBit r 5 (by decide)
  unfold Half.mismatch
  dsimp only
  split
  · refine ⟨by simp, by simp, ?_⟩
    rw [Half.umpEvent_ump]
    dsimp only
    rw [bitAt_setBit_ne _ 6 5 (by decide), Half.umpEvent_ump]
    exact bitAt_setBit _ 5 (by decide)
  · refine ⟨by simp, by simp, ?_⟩
    rw [Half.umpEvent_ump]
    exact bitAt_setBit _ 5 (by decide)

/-- Settles O48: verdicts by their conditions, and each record by the half's own of the same frame. -/
theorem umpireJudgesWarmupsAndRecords : Obligations.UmpireJudgesWarmupsAndRecords := by
  unfold Obligations.UmpireJudgesWarmupsAndRecords
  intro h n out tol w pre post s
  dsimp only
  intro ha hu
  refine ⟨fun hw => ⟨fun hag => ?_, fun hag hfd hch => ?_, fun hag hno => ?_⟩, List.all_eq_true, bandMatch_kinds tol w,
    fun hfd hn => Half.verdict_engine hfd hn, fun plan frame data at' ours hpre hup ho hown => ?_, fun plan frame at' ours hown hoth
        hdue => ?_⟩
  · rw [exec_umpireVerdict_of_done ha hu hw, hag]
    exact if_neg (by simp)
  · rw [exec_umpireVerdict_of_done ha hu hw, hag]
    exact if_pos ⟨rfl, hfd, hch⟩
  · rw [exec_umpireVerdict_of_done ha hu hw, hag]
    refine if_neg ?_
    rintro ⟨-, hfd, hch⟩
    rcases hno with hno | hno
    · rw [hno] at hfd
      exact absurd hfd (by decide)
    · exact hno hch
  · rw [exec_compareRecordReceive]
    refine (if_neg (by simp [ha, hu])).trans ?_
    rw [State.takeMsg_first (m := .compare plan frame data) (b := (plan, frame, data, ours)) hup ho ?_ ?_ rfl]
    · refine congrArg (fun t : State => Host.Outcome.next t.noteCompare) (State.mod_congr ?_)
      rw [State.mod_at_other]
      cases plan <;> rfl
    · intro k hk
      cases k with
      | compare p f d => exact absurd hk (hpre p f d)
      | _ => rfl
    · dsimp only
      rw [hown]
      rfl
  · rw [exec_compareRecordTimeout]
    have hfind : (s.half h).umpx.ownRec.find? (fun r => (s.half h).since r.2.2.1 2000000 &&
        (s.half (other h)).umpx.ownRec.all (fun q => !(q.1 = r.1 && q.2.1 = r.2.1) || (s.half (other h)).since q.2.2.1 2000000)) =
        some (plan, frame, at', ours) := by
      rw [hown, hoth]
      exact List.find?_cons_of_pos (by simp [Half.since_of_le hdue])
    unfold execCompareRecordTimeout
    dsimp only
    rw [if_neg (by simp [ha, hu]), hfind]
    refine ⟨_, rfl, ?_⟩
    obtain ⟨-, -, -, -, -, -, -, hump, humpx, -⟩ := Half.body_fields (State.noteCompare_body _ h)
    rw [humpx, hump, State.mod_at_other, State.mod_same]
    obtain ⟨hown', hcount, hev⟩ := ((s.half h).dropOwn plan frame).mismatch_counts frame
    refine ⟨?_, hcount, hev⟩
    rw [hown']
    simp [Half.dropOwn, hown]

/-! ### Modes, diagnostics and readiness -/

/-- A request for a mode that passes its checks is executed. -/
theorem exec_safModeRequest_of_sends {h : HalfId} {slot : Nat} {s : State} (hs : (s.half h).sends slot 0x0501 3 = true)
    (hmode : pay ((s.half h).msg slot) 0 8 ≤ 2) (hhalf : pay ((s.half h).msg slot) 1 8 ≤ 1)
    (hto : pay ((s.half h).msg slot) 0 8 < 2 →
      (if pay ((s.half h).msg slot) 1 8 = 0 then HalfId.a else .b) = s.dev.chain ∧ pay ((s.half h).msg slot) 2 8 = 0)
    (hsolo : pay ((s.half h).msg slot) 0 8 = 2 →
      (s.half (if pay ((s.half h).msg slot) 1 8 = 0 then .a else .b)).alive = true ∧ pay ((s.half h).msg slot) 2 8 ≤ 2)
    (hch : s.changing = false) (hin : s.dev.inMode ≠ 0) (hsub : s.substituting = false)
    (hret : s.dev.mode = .solo → pay ((s.half h).msg slot) 0 8 < 2 →
      (s.half (other s.dev.chain)).sec.debug ≠ 2 ∧ (s.half (other s.dev.chain)).unreachable = false) :
    let m := (s.half h).msg slot
    let mode := pay m 0 8
    let half : HalfId := if pay m 1 8 = 0 then .a else .b
    let target : DevMode := if mode = 0 then .dual else if mode = 1 then .mirror else .solo
    (s.dev.mode = target → (mode = 2 → half = s.dev.chain) → exec (.safModeRequest h slot) s = .next (s.mod h
        (fun y => y.finish slot stOk []))) ∧
    (¬ (s.dev.mode = target ∧ (mode = 2 → half = s.dev.chain)) → s.dev.mode = .solo → mode ≠ 2 →
      let u := s.startRejoin { half := other s.dev.chain, target := target, slot := some (h, slot)
                               kept := (s.half (other s.dev.chain)).alive && !(s.half (other s.dev.chain)).powx.held }
      u.dev.rejoin.isSome = true → exec (.safModeRequest h slot) s = .next (u.holdMsg h slot)) ∧
    (¬ (s.dev.mode = target ∧ (mode = 2 → half = s.dev.chain)) → s.dev.mode ≠ .solo → exec (.safModeRequest h slot) s =
      .next (({ s with dev := { s.dev with change := some (
        { kind := .request, target := target, half := half, leave := pay m 2 8, slot := some (h, slot)
          left := if target = .mirror then 2 else 1 } : Change) } } : State).holdMsg h slot)) := by
  have hctx := (Half.sends_short hs).2.2 (by decide)
  rw [exec_safModeRequest]
  unfold execSafModeRequest
  dsimp only
  rw [State.runMsg_short hs (by decide) (by decide) ?_]
  · have himp : ∀ {p q : Prop} [Decidable p], (p → q) ↔ (¬ p ∨ q) := Decidable.imp_iff_not_or
    refine ⟨fun hm hh => ?_, fun hno hm h2 hu => ?_, fun hno hm => ?_⟩
    · rw [if_pos (by simpa [himp] using ⟨hm, himp.1 hh⟩)]
    · rw [if_neg (by simpa [himp] using hno), if_pos (by simp [hm, h2]), if_pos hu]
    · rw [if_neg (by simpa [himp] using hno), if_neg (by simp [hm])]
  · simp only [List.forall_mem_cons, Bool.or_eq_false_iff, decide_eq_false_iff_not, Bool.and_eq_false_imp, decide_eq_true_eq,
      Decidable.not_not, Nat.not_lt,
      Bool.not_eq_false']
    refine ⟨hctx, hmode, hhalf, fun hm => (hto hm).1, fun hm => (hsolo hm).1, ?_, ⟨⟨hch, hin⟩, hsub⟩, ?_, forall_mem_nil_bad⟩
    · split
      next h2 => simpa using (hsolo h2).2
      next h2 => simpa using (hto (by omega)).2
    · intro hm
      obtain ⟨hm, hlt⟩ := Bool.and_eq_true_iff.1 hm
      exact hret (of_decide_eq_true hm) (of_decide_eq_true hlt)

/-- A gate test closes the gate of its pair (R463). -/
theorem Half.diagWork_gate (x : Half) {n : Nat} (hn : n < 2) (hg : x.ump.gates.getLsbD n = true) :
    (x.diagWork 3 n true false).ump.gates.getLsbD n = false ∧ (x.diagWork 3 n true false).umpx.diagGate = some n ∧
    (x.diagWork 3 n true false).mem = x.mem := by
  obtain ⟨-, -, hmem, -, -, -, -, hump, -⟩ := Half.body_fields (x.body_setGates (x.ump.gates &&& ~~~(1#2 <<< n)))
  have hwork : x.diagWork 3 n true false = { x.closeGate n with umpx := { (x.closeGate n).umpx with diagGate := some n } } :=
    if_pos (by simp [hg])
  rw [hwork]
  refine ⟨?_, rfl, hmem⟩
  refine (congrArg (fun u : Umpire => u.gates.getLsbD n) hump).trans ?_
  simp [hn]

/-- Settles O49: each message by the conditions under which it is executed, and readiness by the mode of the device. -/
theorem safetyMessagesComplete : Obligations.SafetyMessagesComplete := by
  unfold Obligations.SafetyMessagesComplete
  intro h slot pass s
  dsimp only
  refine ⟨fun hs => ?_, fun hs => ?_, fun hs hmode hhalf hto hsolo hch hin hsub => ?_, fun hs h1 h4 hn hcfg hret hsl => ?_,
    fun n hn hg => ?_, fun hc hst hstart hop => ?_, fun hr => ?_⟩
  · exact congrArg _ (State.runMsg_done hs (by decide) rfl (by simp) rfl)
  · exact congrArg _ (State.runMsg_done hs (by decide) rfl (by simp) rfl)
  · have hif : ∀ n : Nat, n < 2 → (if n = 0 then DevMode.dual else if n = 1 then .mirror else .solo) ≠ .solo := fun n hn => by
      rcases (by omega : n = 0 ∨ n = 1) with rfl | rfl <;> decide
    have h2 : pay ((s.half h).msg slot) 0 8 = 2 ∨ pay ((s.half h).msg slot) 0 8 < 2 := by omega
    refine ⟨fun hm hh => ?_, fun hm hne => ?_, fun hm hlt hdeb hreach hu => ?_⟩
    · refine (exec_safModeRequest_of_sends hs hmode hhalf hto hsolo hch hin hsub fun hm' hlt => ?_).1 hm hh
      exact absurd (hm.symm.trans hm') (hif _ hlt)
    · exact (exec_safModeRequest_of_sends hs hmode hhalf hto hsolo hch hin hsub fun hm' => absurd hm' hm).2.2 (fun hb => hne hb.1) hm
    · refine (exec_safModeRequest_of_sends hs hmode hhalf hto hsolo hch hin hsub fun _ _ => ⟨hdeb, hreach⟩).2.1 ?_ hm (by omega) hu
      exact fun hb => hif _ hlt (hb.1.symm.trans hm)
  · rw [exec_diagRun]
    refine (if_neg ?_).trans (congrArg Host.Outcome.next ?_)
    · have hready := (Half.sends_ready hs).1
      simp only [Half.msgReady, Bool.and_eq_true, Bool.not_eq_true'] at hready
      simp [hready]
    · rw [State.runMsg_short hs (by decide) (by decide) ?_]
      simp only [List.forall_mem_cons, Bool.or_eq_false_iff, decide_eq_false_iff_not, Bool.and_eq_false_imp, Bool.or_eq_true,
        decide_eq_true_eq, Decidable.not_not, Nat.not_lt, Bool.not_eq_false']
      exact ⟨(Half.sends_short hs).2.2 (by decide), hcfg, ⟨by omega, h4⟩, ⟨hn, hret⟩, hsl, forall_mem_nil_bad⟩
  · exact Half.diagWork_gate _ hn hg
  · rw [exec_diagRun]
    exact if_pos (by simp [hc, hst, hstart, hop])
  · rw [exec_halfReady]
    unfold execHalfReady
    rw [if_neg (by simp [hr])]
    dsimp only
    rw [State.mod_dev, State.mod_other]
    refine ⟨fun hs ho hor hb => ?_, fun hs ho hor hb => ?_, fun hs ho => ?_, fun hs q hq => ⟨fun hh h1 => ?_, fun hno => ?_⟩,
      fun hs hq => ⟨fun hc => ?_, fun hc ho => ⟨fun hm => ?_, fun hm => ?_⟩⟩⟩
    · rw [if_pos (by simp [hs]), if_pos (by simp [ho, hor]), State.mod_same]
      exact if_pos (decide_eq_true hb)
    · rw [if_pos (by simp [hs]), if_pos (by simp [ho, hor]), State.mod_same]
      exact if_neg (fun hp => Nat.not_lt.2 hb (of_decide_eq_true hp))
    · rw [if_pos (by simp [hs])]
      exact if_neg (by rcases ho with ho | ho <;> simp [ho])
    · rw [if_neg (by simp [hs]), hq]
      exact if_pos (by simp [hh, h1])
    · rw [if_neg (by simp [hs]), hq]
      exact if_neg (by rcases hno with hno | hno <;> simp [hno])
    · rw [if_neg (by simp [hs]), hq]
      exact if_pos (by rcases hc with hc | hc <;> simp [hc])
    · rw [if_neg (by simp [hs]), hq]
      exact (if_neg (by simp [hc, ho])).trans (if_pos hm)
    · rw [if_neg (by simp [hs]), hq]
      exact (if_neg (by simp [hc, ho])).trans (if_neg hm)

end Sys2Proof.Machine
end

section
/-! PROOFS. The frame boundary and the periodic self-test (spec/01_two_halves.md, spec/18_safety.md R457). -/

namespace Sys2Proof.Machine
open Sys2Proof.Laws.Memory

/-! ### The frame boundary -/

@[simp] theorem State.answer_dev (s : State) (o : Option (HalfId × Nat)) : (s.answer o).dev = s.dev := by
  cases o with
  | none => rfl
  | some p => exact State.mod_dev _ _ _

theorem State.enterMode_dev (s : State) (mode : DevMode) (chain : HalfId) :
    (s.enterMode mode chain).dev.mode = mode ∧ (s.enterMode mode chain).dev.chain = chain := by
  unfold State.enterMode
  dsimp only
  split <;> simp

theorem State.soloRequested_dev (s : State) (c : Change) :
    (s.soloRequested c).dev.mode = .solo ∧ (s.soloRequested c).dev.chain = c.half := by
  unfold State.soloRequested
  dsimp only
  rw [State.setRoles_dev]
  refine ⟨rfl, ?_⟩
  dsimp only
  rw [State.answer_dev, State.mod_dev]
  split
  next hc => rw [State.mod_dev, hc]
  next => simp [State.handChain]

/-- A requested change that is due puts the device into its mode, and only SOLO moves the chain. -/
theorem State.changeBoundary_due {s : State} {c : Change} (hc : s.dev.change = some c) (hk : c.kind = .request) (hl : c.left = 1) :
    s.changeBoundary.dev.mode = c.target ∧ (c.target = .solo → s.changeBoundary.dev.chain = c.half) ∧
    (c.target ≠ .solo → s.changeBoundary.dev.chain = s.dev.chain) := by
  unfold State.changeBoundary
  rw [hc]
  dsimp only
  rw [if_neg (by omega), if_neg (by omega), hk]
  dsimp only
  cases ht : c.target with
  | solo =>
    dsimp only
    obtain ⟨hm, hch⟩ := s.soloRequested_dev c
    exact ⟨hm, fun _ => hch, fun h => absurd rfl h⟩
  | dual =>
    dsimp only
    rw [State.answer_dev, State.mod_dev]
    obtain ⟨hm, hch⟩ := s.enterMode_dev .dual s.dev.chain
    exact ⟨hm, fun h => absurd h (by decide), fun _ => hch⟩
  | mirror =>
    dsimp only
    rw [State.answer_dev, State.mod_dev, State.mod_dev]
    obtain ⟨hm, hch⟩ := s.enterMode_dev .mirror s.dev.chain
    exact ⟨hm, fun h => absurd h (by decide), fun _ => hch⟩

/-- Settles O50: the parts of a boundary that its conditions leave, and what a change that is due makes of the device. -/
theorem frameBoundaryTakesEffect : Obligations.FrameBoundaryTakesEffect := by
  unfold Obligations.FrameBoundaryTakesEffect
  intro h k s c
  dsimp only
  refine ⟨fun hle => ?_, fun ha hr ht hlt hst hrj hdrive hua hur => ?_, ?_, fun hc hk hl => State.changeBoundary_due hc hk hl⟩
  · rw [exec_frameBoundary]
    exact if_pos (by simp [hle])
  · rw [exec_frameBoundary]
    refine (if_neg (by simp [ha, hr, ht, hlt])).trans ?_
    rw [State.mod_dev, hrj]
    dsimp only
    generalize hu : s.mod h (fun y => (y.beginFrame y.frameNow).heldStep) = u at hua hur
    have hdev : u.dev = s.dev := by rw [← hu, State.mod_dev]
    have hoth : u.half (other h) = s.half (other h) := by rw [← hu, State.mod_other]
    have hlate : (u.rejoinLate h).bootAlone h = u := by
      have hl : u.rejoinLate h = u := by
        unfold State.rejoinLate
        rw [hdev, hrj]
      rw [hl]
      exact if_neg (by simp [hdev, hst])
    have hdr : (u.drives h && u.dev.started) = decide (s.dev.chain = h) := by
      by_cases hch : s.dev.chain = h
      · simp [State.drives, hdev, hst, hch]
      · obtain ⟨hoa, hor⟩ := hdrive.resolve_left hch
        have hchain : s.dev.chain = other h := by
          cases h <;> cases hs : s.dev.chain <;> simp_all [other]
        simp [State.drives, hdev, hchain, hoth, hoa, hor]
    rw [hlate, hdr]
    simp only [decide_eq_true_eq]
    exact if_pos (by rw [hua, hur]; rfl)
  · exact ⟨rfl, rfl, rfl, fun n hn => List.mem_append_left _ hn, rfl, rfl⟩

/-! ### The periodic self-test -/

/-- An interval of the self-test is missed only once it has ended. -/
theorem exec_selftestIntervalMissed_of_early {h : HalfId} {e : Nat} {s : State} (hn : (s.half h).now < (s.half h).testInterval e) :
    exec (.selftestIntervalMissed h e) s = .next s := by
  rw [exec_selftestIntervalMissed]
  refine congrArg Host.Outcome.next (State.mod_id s h _ ?_)
  dsimp only
  exact if_pos (by simp [hn])

/-- Refutes O51: in the element's first interval, which has not ended, no interval counts as missed. The statement asks for the count in
every alive half without a pass, and a half whose local counter stands at 0 is one: there its interval number is 0 - 1 = 0. -/
theorem not_selfTestsAndCalibrationComplete : ¬ Obligations.SelfTestsAndCalibrationComplete := by
  unfold Obligations.SelfTestsAndCalibrationComplete
  intro hall
  have hmiss := (hall .a 0 0 0 0 false 0 { a := { powx := { booted := true }, pow := { st := .run } } }).2.1
  obtain ⟨u, hu, hcount, -⟩ := (hmiss rfl (by decide) (by decide) (by decide)).2 (by decide) (by intro p hp; cases hp)
  rw [exec_selftestIntervalMissed_of_early (by decide)] at hu
  obtain rfl : _ = u := Host.Outcome.next.inj hu
  exact absurd hcount (by decide)

end Sys2Proof.Machine
end

section
/-! PROOFS. Power, thermal limits, wakes and subsystem resets (spec/20_power_thermal_reset.md). -/

namespace Sys2Proof.Machine
open Sys2Proof.Laws.Memory

/-! ### Power states and clocks (spec/20_power_thermal_reset.md) -/

/-- New clocks touch the engines' and clusters' frequencies alone. -/
theorem Half.applyClocks_frame (x : Half) :
    x.applyClocks.mem = x.mem ∧ x.applyClocks.sched.cmds = x.sched.cmds ∧ x.applyClocks.pow.forcedDim = x.pow.forcedDim ∧
    x.applyClocks.pow.st = x.pow.st ∧ x.applyClocks.pow.domains = x.pow.domains ∧ x.applyClocks.powx = x.powx ∧
    (∀ n, (x.applyClocks.engine n).st = (x.engine n).st ∧ (x.applyClocks.engine n).wantWarmup = (x.engine n).wantWarmup) := by
  refine ⟨rfl, rfl, rfl, rfl, rfl, rfl, fun n => ?_⟩
  cases hn : x.sched.engines[n]? <;> simp [Half.engine, Half.applyClocks, hn]

/-- A half that sleeps (R497 step 7). -/
theorem Half.asleep_fields (x : Half) (dst : PwrState) :
    (x.asleep dst).pow.st = dst ∧ (x.asleep dst).ump.gates = 0 ∧ (x.asleep dst).sched.cmds = [] ∧
    (x.asleep dst).mem.cells = (if dst = .off then [] else x.mem.cells) ∧ (dst = .off → (x.asleep dst).pow.domains = 0) := by
  have hmem : (x.sleepDebug (decide (dst = .off))).mem = x.mem := by
    unfold Half.sleepDebug
    split <;> rfl
  unfold Half.asleep
  dsimp only
  rw [hmem]
  split
  next hd => exact ⟨rfl, rfl, rfl, rfl, fun _ => rfl⟩
  next hd => exact ⟨rfl, rfl, rfl, rfl, fun h => absurd h hd⟩

/-- A request for a power state that passes its checks is executed. -/
theorem exec_pwrStateRequest_of_sends {h : HalfId} {slot : Nat} {s : State} (hs : (s.half h).sends slot 0x0701 8 = true)
    (hlife : (s.half h).sec.pendLife = none) (hst : pay ((s.half h).msg slot) 0 8 ≤ 4) (hrsv : payBits ((s.half h).msg slot) 1 0 24 = 0)
    (hwake : pay ((s.half h).msg slot) 0 8 < 3 → pay ((s.half h).msg slot) 4 32 = 0)
    (hsup : 2 ≤ pay ((s.half h).msg slot) 0 8 → pwrOf (pay ((s.half h).msg slot) 0 8) ≠ (s.half h).pow.st →
      s.dev.mode = .solo ∧ (s.dev.chain = h → (s.half h).cfg.suspended = true))
    (hch : s.changing = false) (hsub : s.substituting = false) (hout : (s.half h).mem.mapOut = none) (hpend : (s.half h).powx.pend = none)
    (hhold : (s.half h).powx.holdSlot = none) :
    let x := s.half h
    let st := pay (x.msg slot) 0 8
    let held := pwrOf st = x.pow.st ∧ ¬ (st = 1 ∧ x.pow.forcedDim = true ∧ x.pow.reqDim = false)
    (held → exec (.pwrStateRequest h slot) s = .next (s.mod h (fun y => y.finish slot stOk []))) ∧
    (¬ held → st < 2 → exec (.pwrStateRequest h slot) s = .next (s.mod h (fun y => (y.goRunDim (pwrOf st)).finish slot stOk []))) ∧
    (¬ held → st = 2 → exec (.pwrStateRequest h slot) s =
      .next ((s.mod h (fun y => { y with powx := { y.powx with pend := some (.doze, slot) } })).holdMsg h slot)) ∧
    (¬ held → 3 ≤ st → exec (.pwrStateRequest h slot) s = .next (s.mod h (fun y =>
      let z := y.sleepSteps (some slot)
      ({ z with powx := { z.powx with
          holdSlot := some (slot, z.now + 5000000, pwrOf st)
          wakeAt := if pay (x.msg slot) 4 32 = 0 then none else some (z.ump.clock + pay
              (x.msg slot) 4 32 * 980000) } } : Half).finish slot
        stOk []))) := by
  have hctx := (Half.sends_short hs).2.2 (by decide)
  have hcodes : pwrOf (pay ((s.half h).msg slot) 0 8) = .dim ↔ pay ((s.half h).msg slot) 0 8 = 1 := by
    generalize pay ((s.half h).msg slot) 0 8 = n at hst
    rcases (by omega : n = 0 ∨ n = 1 ∨ n = 2 ∨ n = 3 ∨ n = 4) with rfl | rfl | rfl | rfl | rfl <;> decide
  rw [exec_pwrStateRequest]
  unfold execPwrStateRequest
  rw [if_neg (by simp [hlife]), State.runMsg_short hs (by decide) (by decide) ?_]
  · have hheld : (decide (pwrOf (pay ((s.half h).msg slot) 0 8) = (s.half h).pow.st) &&
        !(decide (pwrOf (pay ((s.half h).msg slot) 0 8) = .dim) && (s.half h).pow.forcedDim && !(s.half h).pow.reqDim)) = true ↔
        pwrOf (pay ((s.half h).msg slot) 0 8) = (s.half h).pow.st ∧
          ¬ (pay ((s.half h).msg slot) 0 8 = 1 ∧ (s.half h).pow.forcedDim = true ∧ (s.half h).pow.reqDim = false) := by
      rw [← hcodes]
      simp [Decidable.imp_iff_not_or, or_assoc]
    dsimp only
    refine ⟨fun hh => ?_, fun hno hlt => ?_, fun hno h2 => ?_, fun hno h3 => ?_⟩
    · rw [if_pos (hheld.2 hh)]
    · rw [if_neg (fun hh => hno (hheld.1 hh))]
      rcases (by omega : pay ((s.half h).msg slot) 0 8 = 0 ∨ pay ((s.half h).msg slot) 0 8 = 1) with h0 | h0 <;> rw [h0] <;>
        exact congrArg Host.Outcome.next (State.mod_mod _ _ _ _)
    · rw [if_neg (fun hh => hno (hheld.1 hh)), h2]
      rfl
    · rw [if_neg (fun hh => hno (hheld.1 hh))]
      rcases (by omega : pay ((s.half h).msg slot) 0 8 = 3 ∨ pay ((s.half h).msg slot) 0 8 = 4) with h0 | h0 <;> rw [h0] <;>
        exact congrArg Host.Outcome.next (State.mod_mod _ _ _ _)
  · simp only [List.forall_mem_cons, Bool.or_eq_false_iff, decide_eq_false_iff_not, Bool.and_eq_false_imp, decide_eq_true_eq,
      Decidable.not_not, Nat.not_lt,
      Bool.not_eq_false', busy100, Bool.and_eq_true, Bool.not_eq_true']
    refine ⟨hctx, hst, rsv_pass hrsv, hwake, ?_, ?_, forall_mem_nil_bad⟩
    · rintro ⟨⟨h2, -⟩, hne⟩
      exact hsup h2 hne
    · simp [hch, hsub, hout, hpend, hhold]

/-- A cap within its bounds is refused while the other half runs out of reach, and waits for the boundary otherwise. -/
theorem exec_pwrCapSet_of_sends {h : HalfId} {slot : Nat} {s : State} (hs : (s.half h).sends slot 0x0702 2 = true)
    (hlo : 60 ≤ pay ((s.half h).msg slot) 0 16) (hhi : pay ((s.half h).msg slot) 0 16 ≤ 480) :
    (otherState (s.half h) (s.half (other h)) = 7 → exec (.pwrCapSet h slot) s =
      .next (s.mod h (fun y => y.finishBad slot { bad := true, st := stBusy, retry := some 100000 }))) ∧
    (otherState (s.half h) (s.half (other h)) ≠ 7 → exec (.pwrCapSet h slot) s =
      .next (({ s with dev := { s.dev with pendCap := s.dev.pendCap ++ [(h, slot, pay
          ((s.half h).msg slot) 0 16)] } } : State).holdMsg h slot)) := by
  have hctx := (Half.sends_short hs).2.2 (by decide)
  rw [exec_pwrCapSet]
  unfold execPwrCapSet
  refine ⟨fun ho => congrArg Host.Outcome.next ?_, fun ho => congrArg Host.Outcome.next ?_⟩
  · refine State.runMsg_bad hs (by decide) (by decide) ?_
    rw [worst_cons_pass (by simp [hctx]), worst_cons_pass (by simp; omega)]
    simp [worst, busy100, ho]
  · rw [State.runMsg_short hs (by decide) (by decide) ?_]
    simp only [List.forall_mem_cons, Bool.or_eq_false_iff, decide_eq_false_iff_not, Decidable.not_not, Nat.not_lt, busy100]
    exact ⟨hctx, ⟨hlo, hhi⟩, ho, forall_mem_nil_bad⟩

/-- Settles O52: each message and event by the conditions under which it has its effect. -/
theorem powerMessagesComplete : Obligations.PowerMessagesComplete := by
  unfold Obligations.PowerMessagesComplete
  intro h slot d power s
  dsimp only
  refine ⟨fun hl => ?_, fun hs hl hst hrsv hwake hsup hch hsub hout hpend hhold =>
      exec_pwrStateRequest_of_sends hs hl hst hrsv hwake hsup hch hsub hout hpend hhold, fun k t dst hhold ha ht => ?_,
    fun dst => (s.half h).asleep_fields dst, fun hs hlo hhi ho => (exec_pwrCapSet_of_sends hs hlo hhi).1 ho,
    fun hs hlo hhi ho => (exec_pwrCapSet_of_sends hs hlo hhi).2 ho, fun hs => ?_, fun ha => ?_, fun t ha hf hg hdue => ?_,
    fun hb hsafe hres hd hw hoff => ?_⟩
  · rw [exec_pwrStateRequest]
    exact if_pos hl
  · rw [exec_hibernateHoldExpiry]
    unfold execHibernateHoldExpiry
    dsimp only
    rw [hhold]
    exact if_pos (by simp [ha, Half.since, ht])
  · rw [exec_thmCoolantReport]
    refine congrArg Host.Outcome.next (State.runMsg_done hs (by decide) rfl ?_ rfl)
    simp only [List.forall_mem_cons, decide_eq_false_iff_not, Decidable.not_not]
    exact ⟨(Half.sends_short hs).2.2 (by decide), forall_mem_nil_bad⟩
  · rw [exec_powerSample]
    exact congrArg Host.Outcome.next (State.mod_congr (if_pos ha))
  · rw [exec_forcedDimRelease]
    refine ⟨_, rfl, ?_⟩
    rw [State.mod_same, if_pos (by rw [ha, hf, hg, Option.any_some, Half.since_of_le hdue]; rfl)]
    obtain ⟨hmem, hcmds, hforced, hpow, -⟩ := Half.applyClocks_frame { s.half h with
      pow := { (s.half h).pow with forcedDim := false, st := if (s.half h).pow.reqDim || (s.half h).pow.st = .doze then
          (s.half h).pow.st else .run }
      powx := { (s.half h).powx with level := min (s.half h).powx.level 3, goodSince := none } }
    refine ⟨hforced, hpow.trans ?_, hmem, hcmds⟩
    exact ite_congr_iff (by simp) rfl rfl
  · rw [exec_domainPowerGood]
    refine ⟨_, rfl, ?_⟩
    rw [State.mod_same, if_neg (by rw [hb, hsafe, hres, hw, hoff, decide_eq_true hd]; decide)]
    dsimp only
    generalize hy : ({ s.half h with pow := { (s.half h).pow with domains := setBit (s.half h).pow.domains d } } : Half) = y
    have hdom : y.pow.domains = setBit (s.half h).pow.domains d := by rw [← hy]
    have hsched : y.sched = (s.half h).sched := by rw [← hy]
    have hmem : y.mem = (s.half h).mem := by rw [← hy]
    split
    next hd =>
      obtain ⟨kmem, kcmds, -, -, kdom, -, keng⟩ := (y.powerEngine (d - 1)).applyClocks_frame
      refine ⟨kdom.trans hdom, fun _ _ hst hlen => ?_, kcmds.trans (by rw [← hsched]; rfl), kmem.trans hmem⟩
      have heng : ((y.powerEngine (d - 1)).engine (d - 1)).st = .active ∧ ((y.powerEngine (d - 1)).engine (d - 1)).wantWarmup = true := by
        unfold Half.powerEngine
        have hyst : (y.engine (d - 1)).st = .off := by unfold Half.engine; rw [hsched]; exact hst
        rw [Half.modEngine_same _ _ _ (by rwa [hsched]), if_pos hyst]
        exact ⟨rfl, rfl⟩
      exact ⟨(keng _).1.trans heng.1, (keng _).2.trans heng.2⟩
    next hd => exact ⟨hdom, fun h1 h18 => absurd (by simp [h1, h18]) hd, by rw [hsched], hmem⟩

/-! ### The thermal loop -/

/-- A step of the clock-lowering order leaves the limits and the budget. -/
theorem Half.regulate_frame (x : Half) :
    x.regulate.pow.thermal = x.pow.thermal ∧ x.regulate.pow.budget = x.pow.budget ∧ x.regulate.pow.limiter = x.pow.limiter ∧
    x.regulate.mem = x.mem ∧ x.regulate.sched = x.sched := by
  unfold Half.regulate
  dsimp only
  (repeat' split) <;> simp

/-- The bounds of an estimate of a thermal resistance (R502). -/
theorem thetaNext_bounds (old : Nat) (dT dP : Int) : 50 ≤ thetaNext old dT dP ∧ thetaNext old dT dP ≤ 1000 := by
  unfold thetaNext
  omega

/-- A reading within the sensors' range stands for itself. -/
theorem reading_sensor {a : BitVec 16} (hlo : -800 ≤ a.toInt) (hhi : a.toInt ≤ 2400) : sensor a = a ∧ reading a = some a.toInt := by
  have hne : a ≠ 0x8000#16 := by
    rintro rfl
    exact absurd hlo (by decide)
  exact ⟨if_pos (by simp [hlo, hhi]), if_neg hne⟩

/-- The greater of two readings within the sensors' range is what a hot spot uses (R507, R508). -/
theorem HotSpot.sample_of_valid (k : HotSpot) (now : Nat) {a b : BitVec 16} (ha : -800 ≤ a.toInt) (ha' : a.toInt ≤ 2400)
    (hb : -800 ≤ b.toInt)
    (hb' : b.toInt ≤ 2400) :
    (k.sample now a b).used.toInt = max a.toInt b.toInt ∧ (k.sample now a b).hot = decide (1760 ≤ max a.toInt b.toInt) ∧
    (k.sample now a b).slow = (decide (1760 ≤ max a.toInt b.toInt) || (k.slow && decide (1680 ≤ max a.toInt b.toInt))) := by
  obtain ⟨hsa, hra⟩ := reading_sensor ha ha'
  obtain ⟨hsb, hrb⟩ := reading_sensor hb hb'
  unfold HotSpot.sample
  simp only [hsa, hsb, hra, hrb]
  refine ⟨?_, trivial, trivial⟩
  rw [BitVec.toInt_ofInt]
  refine Int.bmod_eq_of_le ?_ ?_ <;> omega

/-- A sample gives each hot spot and stack its reading of the operands. -/
theorem exec_temperatureSample_of_alive {h : HalfId} {ps : List (BitVec 16 × BitVec 16)} {ks : List (BitVec 16)} {s : State}
    (ha : (s.half h).alive = true) : ∃ t, exec (.temperatureSample h ps ks) s = .next t ∧
      (t.half h).powx.pairs = (s.half h).powx.pairs.zipIdx.map (fun p =>
        p.1.sample (s.half h).now (ps[p.2]?.getD (p.1.a, p.1.b)).1 (ps[p.2]?.getD (p.1.a, p.1.b)).2) ∧
      (t.half h).powx.stks = (s.half h).powx.stks.zipIdx.map (fun p => p.1.sample (s.half h).now (ks[p.2]?.getD p.1.temp)) ∧
      (t.half h).mem = (s.half h).mem ∧ (t.half h).sched.cmds = (s.half h).sched.cmds := by
  have hon : ∀ (c : Bool) (i : Nat) (z : Half), (if c then z.thmEvent i else z).powx = z.powx ∧
      (if c then z.thmEvent i else z).mem = z.mem ∧
      (if c then z.thmEvent i else z).sched = z.sched := fun c i z => by split <;> simp
  rw [exec_temperatureSample]
  refine ⟨_, rfl, ?_⟩
  rw [State.mod_same, if_neg (by simp [ha])]
  dsimp only
  obtain ⟨hmem, hcmds, -, -, -, hpowx, -⟩ := Half.applyClocks_frame _
  rw [hmem, hcmds, hpowx]
  refine ⟨?_, by simp only [hon], by simp only [hon], by simp only [hon]⟩
  simp only [hon]
  refine List.map_congr_left fun q _ => ?_
  cases ps[q.2]? <;> rfl

/-- Settles O53: each event by what it makes of the limits, the estimates and the sensors. -/
theorem thermalEventsComplete : Obligations.ThermalEventsComplete := by
  unfold Obligations.ThermalEventsComplete
  intro h p tj tm tin pairs stks s
  dsimp only
  refine ⟨fun ha => ⟨?_, fun hdue => ?_, fun hdue hp => ?_, ?_, fun hdue => ?_⟩,
    fun k now a b ha ha' hb hb' => k.sample_of_valid now ha ha' hb hb', fun k now v => ⟨rfl, rfl⟩, thetaNext_bounds⟩
  · rw [exec_thermalLimitUpdate]
    refine ⟨_, rfl, ?_⟩
    rw [State.mod_same, State.mod_other, if_neg (by simp [ha])]
    dsimp only
    generalize hy : ({ s.half h with pow := { (s.half h).pow with
      thermal := power16 (min (s.half h).limits.1 (s.half h).limits.2)
      budget := BitVec.ofNat 16 (min 0xFFFF ((s.half h).nextBudget (s.share h)).1)
      limiter := BitVec.ofNat 4 ((s.half h).nextBudget (s.share h)).2 } } : Half) = y
    generalize hz : (if ((s.half h).nextBudget (s.share h)).2 = 2 then y.thmEvent 1
      else if ((s.half h).nextBudget (s.share h)).2 = 3 then y.thmEvent 3 else y) = z
    have hkeep : z.pow.thermal = y.pow.thermal ∧ z.pow.budget = y.pow.budget ∧ z.pow.limiter = y.pow.limiter ∧ z.mem = y.mem ∧
        z.sched = y.sched := by
      rw [← hz]
      (repeat' split) <;> simp
    obtain ⟨hth, hbud, hlim, hmem, hsched⟩ := hkeep
    obtain ⟨rth, rbud, rlim, rmem, rsched⟩ := z.regulate_frame
    subst hy
    exact ⟨rth.trans hth, rbud.trans hbud, rlim.trans hlim, rmem.trans hmem, (congrArg Sched.cmds (rsched.trans hsched) :), rfl⟩
  · rw [exec_thetaEstimate]
    refine ⟨_, rfl, ?_⟩
    rw [State.mod_same, if_neg (by simp [ha, Half.since_of_le hdue])]
    dsimp only
    refine ⟨?_, fun he => ?_, fun p0 tj0 tm0 tin0 he => ?_⟩
    · (repeat' split) <;> simp
    · rw [he]
    · rw [he]
      dsimp only
      refine ⟨fun hlt => by rw [if_pos hlt], fun hge => ?_⟩
      rw [if_neg (Nat.not_lt.2 hge)]
      (repeat' split) <;> simp
  · rw [exec_thetaProbe]
    exact congrArg Host.Outcome.next (State.mod_congr (if_pos (by rw [ha, Half.since_of_le hdue, hp]; rfl)))
  · obtain ⟨t, ht, hps, hks, hmem, hcmds⟩ := exec_temperatureSample_of_alive (ps := pairs) (ks := stks) ha
    refine ⟨t, ht, fun i r k hr hk => ?_, fun i v k hv hk => ?_, hmem, hcmds⟩
    · simp [hps, hk, hr]
    · simp [hks, hk, hv]
  · rw [exec_coolantReportTimeout]
    refine ⟨_, rfl, ?_⟩
    rw [State.mod_same, if_pos (by rw [ha, Half.since_of_le hdue]; rfl)]
    refine ⟨by simp, ?_, by simp, by simp⟩
    rw [Half.thmEvent_pow]
    exact bitAt_setBit _ 5 (by decide)

/-! ### Wakes and subsystem resets -/

/-- The parts of a half that the configuration's regulator, ports and clock do not touch. -/
def Half.plant (x : Half) : Mem × Pow × PowX × Sched × Sec × Svc := (x.mem, x.pow, x.powx, x.sched, x.sec, x.svc)

theorem Half.plant_regather (x : Half) : x.regather.plant = x.plant := by
  unfold Half.regather
  split <;> rfl

theorem Half.plant_bmca (x : Half) : x.bmca.plant = x.plant := by
  have hlose : ∀ y : Half, y.loseSource.plant = y.plant := fun y => by
    unfold Half.loseSource
    dsimp only
    (repeat' split) <;> simp [Half.plant]
  have hgm : ∀ (y : Half) gm steps, (y.newGm gm steps).plant = y.plant := fun y gm steps => by
    have hevent : ∀ (z : Half) i, (z.timEvent i).plant = z.plant := fun z i => rfl
    unfold Half.newGm
    dsimp only
    split
    · rfl
    · split
      · rfl
      · exact (hevent _ 3).trans ((Half.plant_regather _).trans rfl)
  unfold Half.bmca
  dsimp only
  (repeat' split) <;> (try simp only [hgm, hlose]) <;> rfl

theorem Half.plant_loadRings (x : Half) : x.loadRings.plant = x.plant := by
  have hlog : ∀ (y : Half) src cls code ans detail addr, (y.vioLog src cls code ans detail addr).plant = y.plant := by
    intro y src cls code ans detail addr
    unfold Half.vioLog
    refine ite_both (P := fun z : Half => z.plant = y.plant) rfl ?_
    unfold Half.vioNew
    simp [Half.plant]
  have hall : ∀ (l : List Ring) (y : Half), (l.foldl (fun (z : Half) r =>
      z.vioLog .config 0x0B 1 5 (r.port * 8 + r.num * 2 + b2n r.tx) r.va) y).plant = y.plant := fun l => by
    induction l with
    | nil => exact fun _ => rfl
    | cons r l ih => exact fun y => (ih _).trans (hlog ..)
  exact (hall _ _).trans rfl

theorem Half.plant_loadQos (x : Half) : x.loadQos.plant = x.plant := by
  have hput : ∀ (l : List (Nat × BitVec 64)) (y : Half), (l.foldl (fun (y : Half) r => match y.qosPut r.1 8 r.2.toNat with
      | some q => { y with qos := q }
      | none => y) y).plant = y.plant := fun l => by
    induction l with
    | nil => exact fun _ => rfl
    | cons r l ih =>
      refine fun y => (ih _).trans ?_
      dsimp only
      split <;> rfl
  exact (hput x.cfg.qos _).trans rfl

/-- A configuration that is taken up sets the cap and leaves the rest of the plant. -/
theorem Half.plant_takeCfg (x : Half) (c : Cfg × CfgB) :
    (x.takeCfg c).plant = ({ x with pow := { x.pow with cap := BitVec.ofNat 16 (10 * c.1.capW) } } : Half).plant := by
  have hports : ∀ (y : Half) old, (y.loadPorts old).plant = y.plant := fun y old => by
    unfold Half.loadPorts
    dsimp only
    (repeat' split) <;> simp only [Half.plant_regather, Half.plant_bmca, Half.plant_loadRings] <;> rfl
  unfold Half.takeCfg
  dsimp only
  rw [hports, Half.plant_loadQos]
  rfl

/-- The last boot steps leave memory, and the half runs. -/
theorem Half.bootUp_frame (x : Half) (imgs : List (Nat × List Byte × Bool)) (ovls : List Ovl) (run : Option Half) :
    (x.bootUp imgs ovls run).mem = x.mem ∧ (x.bootUp imgs ovls run).pow.st = .run := by
  unfold Half.bootUp
  dsimp only
  generalize hw : Half.systemClient _ = w
  have hmem : w.mem = x.mem ∧ w.pow.st = .run := by
    rw [← hw]
    cases run with
    | none => exact ⟨rfl, rfl⟩
    | some r =>
      dsimp only
      split <;> exact ⟨rfl, rfl⟩
  generalize hv : w.takeCfg _ = v
  have hplant := hv ▸ w.plant_takeCfg _
  have hv : v.mem = x.mem ∧ v.pow.st = .run :=
    ⟨(congrArg (fun p => p.1) hplant :).trans hmem.1, (congrArg (fun p => p.2.1.st) hplant :).trans hmem.2⟩
  cases run <;> exact hv

/-- The Handoff link's training touches link records alone. -/
theorem State.trainHandoff_frame (s : State) (h : HalfId) :
    ((s.trainHandoff h).half h).sched = (s.half h).sched ∧ ((s.trainHandoff h).half h).mem = (s.half h).mem ∧
    ((s.trainHandoff h).half h).pow = (s.half h).pow := by
  unfold State.trainHandoff
  dsimp only
  split <;> simp

/-- Settles O55: wakes by the state that they find, and resets of subsystems by their codes. -/
theorem wakesAndSubsystemResetsComplete : Obligations.WakesAndSubsystemResetsComplete := by
  unfold Obligations.WakesAndSubsystemResetsComplete
  intro h n code s c
  dsimp only
  have hawake : (s.half h).powx.holdSlot = none → s.wakeOrLatch h = s.wake h := fun hh => if_neg (by simp [hh])
  refine ⟨⟨rfl, fun t ht => ⟨fun hle => ?_, fun hlt => ?_⟩, fun hw => ?_⟩, fun hh => if_pos hh, fun hh hno => ?_,
    fun hh hsafe hres hok => ⟨fun hst => ?_, fun hst => ?_⟩, fun sv hsv himg => ?_, fun hc hr hst hdue hsub => ?_, fun ha hmem => ⟨fun
        h45 => ?_, fun h4 h5 => ?_⟩⟩
  · rw [exec_wakeTimerExpiry]
    exact if_pos (by simp [ht, hle])
  · rw [exec_wakeTimerExpiry]
    exact if_neg (by simp [ht, hlt])
  · rw [exec_peerWake]
    exact if_pos hw
  · rw [hawake hh]
    unfold State.wake
    dsimp only
    rcases hno with hno | hno | hno | ⟨hno, hno'⟩
    · exact if_pos (by simp [hno])
    · exact if_pos (by simp [hno])
    · exact if_pos (by simp [hno])
    · rw [if_neg hno, if_neg hno', ite_self]
  · rw [hawake hh]
    exact (if_neg (by simp [hsafe, hres, hok])).trans (if_pos hst)
  · rw [hawake hh]
    exact (if_neg (by simp [hsafe, hres, hok])).trans ((if_neg (by simp [hst])).trans (if_pos hst))
  · have hok : (s.half h).svc.running.all (fun p => (s.half h).imageOk s.dev.serial p.1 p.2) = true := List.all_eq_true.2 himg
    unfold State.wakeHibernate
    dsimp only
    rw [if_neg (by simp [hok]), hsv]
    obtain ⟨hsched, hmem, hpow⟩ := State.trainHandoff_frame (s.setHalf h _) h
    rw [hsched, hmem, hpow, State.setHalf_same]
    obtain ⟨hbmem, hbst⟩ := Half.bootUp_frame (s.half h) _ _ _
    exact ⟨rfl, rfl, rfl, rfl, (congrArg Mem.cells hbmem :), hbst⟩
  · rw [exec_unitWatchdogExpiry]
    unfold execUnitWatchdogExpiry
    dsimp only
    rw [hc]
    dsimp only
    rw [if_pos (by rw [hr, Half.since_of_le hdue]; simpa using hst), hsub]
  · rw [exec_subsystemResetComplete]
    exact (if_neg (by simp [ha, hmem])).trans (if_pos (by simpa using h45))
  · rw [exec_subsystemResetComplete]
    exact (if_neg (by simp [ha, hmem])).trans (if_neg (by simp [h4, h5]))

end Sys2Proof.Machine
end

section
/-! PROOFS. The security block (spec/19_security_debug_power.md). -/

namespace Sys2Proof.Machine
open Sys2Proof.Laws.Memory

/-! ### Signed requests (spec/19_security_debug_power.md R470, R471, R481) -/

/-- A request in its long form is executed on its bytes. -/
theorem State.runRequest_long {s : State} {h : HalfId} {slot op : Nat} {run : State → List Byte → Reply}
    (hs : (s.half h).sendsLong slot op 67108864 = true) (hop : op ∈ opcodes)
    (hlen : inLen ((s.half h).msg slot) = 128 ∨ inLen ((s.half h).msg slot) = 3412) (hout : outLen ((s.half h).msg slot) = 0) :
    let m := (s.half h).msg slot
    (∀ t, run s ((s.half h).vread (msgCtx m) (inAddr m) (inLen m)) = .wait t → s.runRequest h slot op run = t.holdMsg h slot) ∧
    (∀ t st fields, run s ((s.half h).vread (msgCtx m) (inAddr m) (inLen m)) = .done t st fields →
      s.runRequest h slot op run = t.mod h (fun y => y.finish slot st fields)) := by
  have hlong := (Half.sendsLong_long hs).1
  unfold State.runRequest
  dsimp only
  rw [State.runMsg_long hs hop rfl rfl ?_, if_pos hlong]
  · exact ⟨fun t ht => by rw [ht], fun t st fields ht => by rw [ht]⟩
  · rw [if_pos hlong]
    simp only [List.forall_mem_cons, Bool.and_eq_false_imp, decide_eq_true_eq, decide_eq_false_iff_not, Decidable.not_not]
    exact ⟨fun h1 => hlen.resolve_left h1, hout, forall_mem_nil_bad⟩

/-- A chunk after which more are to come is staged. -/
theorem State.runRequest_more {s : State} {h : HalfId} {slot op : Nat} {run : State → List Byte → Reply} {k : Stage}
    (hs : (s.half h).sends slot op 0x30 = true) (hop : op ∈ opcodes)
    (hlen : pay ((s.half h).msg slot) 4 32 = 128 ∧ pay ((s.half h).msg slot) 2 16 = 4 ∨
      pay ((s.half h).msg slot) 4 32 = 3412 ∧ pay ((s.half h).msg slot) 2 16 = 86)
    (hk : takeChunk (s.half h).sec.upload slot op (pay ((s.half h).msg slot) 0 16) (pay ((s.half h).msg slot) 2 16)
      (pay ((s.half h).msg slot) 4 32) (s.half h).now (chunkData ((s.half h).msg slot)) = .more k) :
    s.runRequest h slot op run =
      (s.mod h (fun y => { y with sec := { y.sec with upload := some k } })).mod h (fun y => y.finish slot stOk []) := by
  have hshort : ¬ msgLong ((s.half h).msg slot) = true := by simp [(Half.sends_short hs).1]
  unfold State.runRequest
  dsimp only
  rw [State.runMsg_short hs hop (by decide) ?_, if_neg hshort, hk]
  rw [if_neg hshort]
  rcases hlen with ⟨h1, h2⟩ | ⟨h1, h2⟩ <;> simp [h1, h2]

/-- Requests that pass their checks, whichever part of them comes first. -/
theorem worst_append_none {l k : List Chk} : worst (l ++ k) = none ↔ worst l = none ∧ worst k = none := by
  simp only [worst_eq_none, List.forall_mem_append]

theorem exec_secLifecycle_of_long {h : HalfId} {slot : Nat} {s : State} {b : List Byte} (hs :
    (s.half h).sendsLong slot 0x0602 67108864 = true)
    (hlen : inLen ((s.half h).msg slot) = 128 ∨ inLen ((s.half h).msg slot) = 3412) (hout : outLen ((s.half h).msg slot) = 0)
    (hb : (s.half h).vread (msgCtx ((s.half h).msg slot)) (inAddr ((s.half h).msg slot)) (inLen ((s.half h).msg slot)) = b)
    (hc : worst ((s.half h).requestChecks s.dev.serial [1, 3] b ((s.half h).lifeAllows b) (decide (rq b 0 2 = 3) || decide (rqArg1 b = 2))
      (if rq b 0 2 = 1 ∧ rqArg1 b = 0 ∧ rqArg0 b = 3 then (3600, 2592000) else (0, 0))) = none)
    (harg : rqArg1 b ≠ 0 → rqArg0 b = 0) (hkey : rq b 0 2 = 3 → (s.half h).sec.devKey = some (rqKey b)) (hbusy : s.securityBusy = false)
    (hmiss : s.otherMissing h (rqMask b) = false)
    (hone : (decide (rqArg1 b = 1) || (decide (rqArg1 b = 0) && decide (rqArg0 b = 4))) = false → rqMask b = 3)
    (hpend : (s.half h).sec.pendLife = none) :
    let hold := fun (k : Nat) (y : Half) => { y with sec := { y.sec with pendLife := some (k, rqMask b, b) } }
    let t := (s.raiseSeq b).mod h (hold slot)
    exec (.secLifecycle h slot) s = .next ((if names (rqMask b) (other h) then t.mod (other h) (hold 64) else t).holdMsg h slot) := by
  rw [exec_secLifecycle]
  refine congrArg Host.Outcome.next ((State.runRequest_long hs (by decide) hlen hout).1 _ ?_)
  dsimp only
  rw [hb, worst_append_none.2 ⟨?_, ?_⟩]
  · rw [← hc]
    simp [and_assoc]
  · rw [worst_eq_none]
    simp only [List.forall_mem_cons, Bool.and_eq_false_imp, decide_eq_true_eq, decide_eq_false_iff_not, Decidable.not_not, busy100,
        Bool.or_eq_false_iff,
      Bool.not_eq_true']
    exact ⟨harg, hkey, ⟨⟨⟨hbusy, hmiss⟩, fun hno => hone (by simpa using hno)⟩, by simp [hpend]⟩, forall_mem_nil_bad⟩

theorem exec_secDebugAuth_of_long {h : HalfId} {slot : Nat} {s : State} {b : List Byte} (hs :
    (s.half h).sendsLong slot 0x0603 67108864 = true)
    (hlen : inLen ((s.half h).msg slot) = 128 ∨ inLen ((s.half h).msg slot) = 3412) (hout : outLen ((s.half h).msg slot) = 0)
    (hb : (s.half h).vread (msgCtx ((s.half h).msg slot)) (inAddr ((s.half h).msg slot)) (inLen ((s.half h).msg slot)) = b)
    (hc : worst ((s.half h).requestChecks s.dev.serial [2] b ((s.half h).debugSigner b && !(decide (rqArg0 b = 2) &&
      ([HalfId.a, .b].filter (names (rqMask b))).any (fun g => decide ((s.half g).sec.life = 2)))) false (1, 86400)) = none)
    (hlo : 1 ≤ rqArg0 b) (hhi : rqArg0 b ≤ 2) (harg : rqArg1 b = 0) (hbusy : s.securityBusy = false)
    (hmiss : s.otherMissing h (rqMask b) = false)
    (hinv : rqArg0 b = 2 → ∀ g ∈ [HalfId.a, .b].filter (names (rqMask b)), s.invasiveOk g = true) :
    exec (.secDebugAuth h slot) s = .next ((([HalfId.a, .b].filter (names (rqMask b))).foldl
      (fun u g => u.mod g (fun y => y.openDebug (rqArg0 b) (rqDur b))) (s.raiseSeq b)).mod h (fun y => y.finish slot stOk [])) := by
  rw [exec_secDebugAuth]
  refine congrArg Host.Outcome.next ((State.runRequest_long hs (by decide) hlen hout).2 _ _ _ ?_)
  dsimp only
  rw [hb, worst_append_none.2 ⟨hc, ?_⟩]
  rw [worst_eq_none]
  simp only [List.forall_mem_cons, Bool.and_eq_false_imp, decide_eq_true_eq, decide_eq_false_iff_not, Decidable.not_not, busy100,
      Bool.or_eq_false_iff]
  refine ⟨⟨⟨by omega, by omega⟩, harg⟩, ⟨hbusy, hmiss⟩, fun h2 => ?_, forall_mem_nil_bad⟩
  exact List.any_eq_false.2 fun g hg => by simp [hinv h2 g hg]

/-! ### Attestation and debug levels -/

/-- A new report takes a leaf and draws from the bucket (R478, R480). -/
theorem Half.newReport_draws (x : Half) (dev : Dev) (nonce : BitVec 256) (hb : 0 < x.sec.bucket) :
    (x.newReport dev nonce).sec.leaves = x.sec.leaves + 1 ∧ (x.newReport dev nonce).sec.bucket + 1 = x.sec.bucket ∧
    (x.newReport dev nonce).mem = x.mem ∧ (x.newReport dev nonce).sched = x.sched :=
  ⟨rfl, Nat.sub_add_cancel hb, rfl, rfl⟩

theorem exec_secAttest_of_short {h : HalfId} {slot : Nat} {s : State} (hs : (s.half h).sends slot 0x0601 0x28 = true)
    (hc : worst (attestChecks (s.half h) ((s.half h).msg slot)) = none) :
    let x := s.half h
    let m := x.msg slot
    let chunk := rq (attestReq x m) 2 2
    let nonce := rq (attestReq x m) 8 32
    let cert := if x.sec.life = 0 then x.certBody s.dev.serial else x.sec.cert
    let len := if rq (attestReq x m) 0 1 = 0 then 3796 else if x.sec.life = 0 then 128 else 3412
    let y := if rq (attestReq x m) 0 1 = 0 ∧ chunk = 0 ∧ x.cached nonce = false then x.newReport s.dev (BitVec.ofNat 256 nonce) else x
    let obj := if rq (attestReq x m) 0 1 = 0 then (y.sec.report.map (·.2)).getD [] else cert
    exec (.secAttest h slot) s = .next ((s.setHalf h y).mod h (fun z => z.finish slot stOk
      [(0x00, 16, cdiv len 40), (0x02, 16, chunk), (0x04, 32, len), (0x08, 320, bytesAt obj (40 * chunk) 40)])) := by
  have hshort : ¬ msgLong ((s.half h).msg slot) = true := by simp [(Half.sends_short hs).1]
  rw [exec_secAttest]
  unfold execSecAttest
  rw [State.runMsg_short hs (by decide) (by decide) (worst_eq_none.1 hc)]
  dsimp only
  rw [if_neg hshort]
  dsimp only
  by_cases hw : rq (attestReq (s.half h) ((s.half h).msg slot)) 0 1 = 0
  · by_cases hf : rq (attestReq (s.half h) ((s.half h).msg slot)) 2 2 = 0 ∧
      (s.half h).cached (rq (attestReq (s.half h) ((s.half h).msg slot)) 8 32) = false
    · simp [hw, hf]
    · simp [hw, hf]
  · simp [hw]

theorem exec_secAttest_of_long {h : HalfId} {slot : Nat} {s : State} (hs : (s.half h).sendsLong slot 0x0601 67108864 = true)
    (hc : worst (attestChecks (s.half h) ((s.half h).msg slot)) = none) :
    let x := s.half h
    let m := x.msg slot
    let nonce := rq (attestReq x m) 8 32
    let report := decide (rq (attestReq x m) 0 1 = 0)
    let y := if report && !x.cached nonce then x.newReport s.dev (BitVec.ofNat 256 nonce) else x
    let obj := if report then (y.sec.report.map (·.2)).getD [] else if x.sec.life = 0 then x.certBody s.dev.serial else x.sec.cert
    let len := if report then 3796 else if x.sec.life = 0 then 128 else 3412
    exec (.secAttest h slot) s = .next ((s.setHalf h (y.commitBytes (msgCtx m) (placeBytes (outAddr m)
        (layout len [(0, obj)]))).settle).mod h
      (fun z => z.finish slot stOk [(0x00, 32, len)])) := by
  have hlong := (Half.sendsLong_long hs).1
  rw [exec_secAttest]
  unfold execSecAttest
  rw [State.runMsg_long hs (by decide) rfl rfl (worst_eq_none.1 hc)]
  dsimp only
  rw [if_pos hlong]
  dsimp only
  have hchunk : rq (attestReq (s.half h) ((s.half h).msg slot)) 2 2 = 0 := by
    have hall := worst_eq_none.1 hc
    unfold attestChecks at hall
    simp only [List.forall_mem_cons, Bool.or_eq_false_iff, hlong, Bool.true_and, decide_eq_false_iff_not, Decidable.not_not] at hall
    obtain ⟨-, -, -, -, -, hlast, -⟩ := hall
    exact hlast.2
  by_cases hw : rq (attestReq (s.half h) ((s.half h).msg slot)) 0 1 = 0
  · simp [hw, hchunk]
  · simp [hw]

theorem exec_debugLevelExpiry_of_due {h : HalfId} {s : State} (ha : (s.half h).alive = true) (hd : (s.half h).sec.debug ≠ 0)
    (hdue : (s.half h).sec.debugEnd ≤ (s.half h).now) :
    exec (.debugLevelExpiry h) s = .next (State.afterDebug s (s.mod h Half.endDebug)) := by
  rw [exec_debugLevelExpiry]
  refine congrArg (fun t => Host.Outcome.next (State.afterDebug s t)) (State.mod_congr (if_pos ?_))
  rw [ha, Half.since_of_le (t := (s.half h).sec.debugEnd) (ns := 0) hdue]
  simpa using hd

/-! ### The end of INVASIVE (R488) -/

@[simp] theorem Half.sec_modLink (x : Half) (i : Nat) (f : Link → Link) : (x.modLink i f).sec = x.sec := rfl

@[simp] theorem Half.sec_linkSet (x : Half) (i : Nat) (st : LnkState) : (x.linkSet i st).sec = x.sec := by
  have hevent : (y : Half) → (y.lnkEvent i).sec = y.sec := fun y => by
    unfold Half.lnkEvent
    dsimp only
    split
    · exact congrArg (fun z => z.sec) (Half.body_deliver _ _ _)
    · rfl
  unfold Half.linkSet
  split
  · rfl
  · exact hevent _

theorem Half.sec_of_shell {x y : Half} (h : x.shell = y.shell) : x.sec = y.sec := congrArg (fun z => z.sec) h

@[simp] theorem Half.shell_endLost (x : Half) (n : Nat) : (x.endLost n).shell = x.shell := by
  unfold Half.endLost
  split
  · rw [Half.shell_record]
    rfl
  · rfl

/-- The loss of a half leaves the security block of the other. -/
theorem State.peerGone_sec (s : State) (h g : HalfId) : ((s.peerGone h).half g).sec = (s.half g).sec := by
  refine State.mod_keeps (F := fun x => x.sec) (fun x => ?_) s (other h) g
  split
  · rfl
  · refine (Half.sec_of_shell ((Half.shell_settle _).trans (Half.shell_foldl Half.shell_endLost _ _))).trans ?_
    unfold Half.handoffGone
    rw [if_neg (by decide), Half.sec_of_shell (Half.shell_discardSent _ _)]
    exact Half.sec_linkSet _ _ _

theorem State.rejoinFails_sec (s : State) (g : HalfId) : (s.rejoinFails.half g).sec = (s.half g).sec := by
  obtain ⟨-, hbody⟩ := s.dropChange_frame
  obtain ⟨-, -, -, -, -, -, -, -, -, hsec, -⟩ := Half.body_fields (hbody g)
  unfold State.rejoinFails
  split
  · rfl
  · dsimp only
    refine (State.mod_keeps (F := fun x => x.sec) ?_ _ _ _).trans ((State.mod_keeps (F := fun x => x.sec) ?_ _ _ _).trans hsec)
    · exact fun _ => rfl
    · intro x
      split <;> rfl

theorem State.trainHandoff_sec (s : State) (h g : HalfId) : ((s.trainHandoff h).half g).sec = (s.half g).sec := by
  unfold State.trainHandoff
  dsimp only
  split
  · refine (State.mod_keeps (F := fun x => x.sec) ?_ _ _ _).trans (State.mod_keeps (F := fun x => x.sec) ?_ _ _ _) <;> exact fun _ => rfl
  · rfl

/-- A reboot of a half leaves the security block of the other. -/
theorem State.rebootHalf_sec (s : State) (h : HalfId) : ((s.rebootHalf h).half (other h)).sec = (s.half (other h)).sec := by
  have hreset : ((s.resetHalf h).half (other h)).sec = (s.half (other h)).sec := by
    unfold State.resetHalf
    rw [State.peerGone_sec, State.mod_other]
  unfold State.rebootHalf State.bootHalf
  dsimp only
  generalize s.resetHalf h = t at hreset
  split
  · rw [State.rejoinFails_sec, State.trainHandoff_sec, State.mod_other, hreset]
  · rw [State.trainHandoff_sec, State.mod_other, hreset]

/-- The end of an OBSERVE level reboots no half. -/
theorem State.afterDebug_of_observe {s : State} {h : HalfId} (hd : (s.half h).sec.debug = 1) :
    State.afterDebug s (s.mod h Half.endDebug) = s.mod h Half.endDebug := by
  have hnone : ∀ g, ((s.half g).sec.debug = 2 && ((s.mod h Half.endDebug).half g).sec.debug ≠ 2 &&
      ((s.mod h Half.endDebug).half g).alive) = false := fun g => by
    by_cases hg : g = h
    · simp [hg, hd]
    · rw [eq_other_of_ne hg, State.mod_other]
      by_cases h2 : (s.half (other h)).sec.debug = 2 <;> simp [h2]
  simp only [State.afterDebug, hnone, Bool.false_eq_true, if_false]

/-- The end of INVASIVE reboots its half alone. -/
theorem State.afterDebug_of_invasive {s : State} {h : HalfId} (ha : (s.half h).alive = true) (hd : (s.half h).sec.debug = 2) :
    State.afterDebug s (s.mod h Half.endDebug) = (s.mod h Half.endDebug).rebootHalf h := by
  have hself : ∀ u : State, u = s.mod h Half.endDebug →
      ((s.half h).sec.debug = 2 && (u.half h).sec.debug ≠ 2 && (u.half h).alive) = true := fun u hu => by
    rw [hu, State.mod_same, show (s.half h).endDebug.alive = true from ha, hd]
    rfl
  have hpeer : ∀ (u : State), (u.half (other h)).sec = (s.half (other h)).sec →
      ¬ ((s.half (other h)).sec.debug = 2 && (u.half (other h)).sec.debug ≠ 2 && (u.half (other h)).alive) = true := fun u hu => by
    rw [hu]
    by_cases h2 : (s.half (other h)).sec.debug = 2 <;> simp [h2]
  unfold State.afterDebug
  dsimp only
  cases h
  · refine (if_neg (hpeer _ ?_)).trans (if_pos (hself _ rfl))
    exact (congrArg (fun u : State => (u.half .b).sec) (if_pos (hself _ rfl))).trans ((State.rebootHalf_sec _ .a).trans
        (by rw [State.mod_other]))
  · refine (if_pos (hself _ ?_)).trans (congrArg (fun u : State => u.rebootHalf .b) ?_) <;>
      exact if_neg (hpeer _ (by rw [State.mod_other]))

/-! ### Settling O56 -/

theorem exec_secDebugEnd_of_short {h : HalfId} {slot : Nat} {s : State} (hs : (s.half h).sends slot 0x0604 1 = true)
    (hmask : pay ((s.half h).msg slot) 0 8 ≤ 3) (hmiss : s.otherMissing h (pay ((s.half h).msg slot) 0 8) = false) :
    exec (.secDebugEnd h slot) s = .next (State.afterDebug s ((([HalfId.a, .b].filter (names (pay ((s.half h).msg slot) 0 8))).foldl
      (fun u g => u.mod g Half.endDebug) s).mod h (fun y => y.finish slot stOk []))) := by
  have hctx := (Half.sends_short hs).2.2 (by decide)
  rw [exec_secDebugEnd]
  refine congrArg (fun t => Host.Outcome.next (State.afterDebug s t)) (State.runMsg_done hs (by decide) (by decide) ?_ rfl)
  simp [hctx, hmask, hmiss, busy100]

/-- Settles O56: the signed messages, the attestation and the events of the security block. -/
theorem securityCommandsComplete : Obligations.SecurityCommandsComplete := by
  unfold Obligations.SecurityCommandsComplete
  refine ⟨fun h slot s => ?_, fun h s => ?_⟩ <;> dsimp only
  · refine ⟨fun ⟨hs, hlen, hout⟩ hc harg hkey hbusy hmiss hone hpend => ?_, fun ⟨hs, hlen, hout⟩ hc hlo hhi harg hbusy hmiss hinv => ?_,
      fun op hop k hs hlen hk => ⟨fun ho => ?_, fun ho => ?_⟩, fun hs hmask hmiss => ?_, fun hs hc => ⟨?_, fun hf hb => ?_⟩, fun hs hc
          => ?_⟩
    · exact exec_secLifecycle_of_long hs hlen hout rfl hc harg hkey hbusy hmiss hone hpend
    · exact exec_secDebugAuth_of_long hs hlen hout rfl hc hlo hhi harg hbusy hmiss hinv
    · subst ho
      exact congrArg Host.Outcome.next (State.runRequest_more hs (by decide) hlen hk)
    · subst ho
      exact congrArg Host.Outcome.next (State.runRequest_more hs (by decide) hlen hk)
    · exact exec_secDebugEnd_of_short hs hmask hmiss
    · exact exec_secAttest_of_short hs hc
    · rw [if_pos hf]
      exact Half.newReport_draws _ _ _ hb
    · exact exec_secAttest_of_long hs hc
  · refine ⟨fun hr => ⟨fun hk => ⟨_, rfl, ?_⟩, fun hl => ?_⟩, fun ha => ⟨fun hl hd => ?_, fun hl hd => ?_, fun hd hdue => ?_, fun hd
      hdue => ?_,
      fun hb hd => ?_⟩, fun k hk hd => ?_⟩
    · rw [State.mod_same, if_pos (by simp [hk, hr])]
      exact ⟨rfl, rfl, rfl⟩
    · exact congrArg Host.Outcome.next (State.mod_congr (if_pos (by simp [hr, hl])))
    · exact congrArg Host.Outcome.next (State.mod_congr (if_pos (by rw [ha, hl, Half.since_of_le hd]; rfl)))
    · exact congrArg Host.Outcome.next (State.mod_congr (if_pos (by rw [ha, hl, Half.since_of_le hd]; rfl)))
    · rw [exec_debugLevelExpiry_of_due ha (by simp [hd]) hdue, State.afterDebug_of_observe hd]
    · rw [exec_debugLevelExpiry_of_due ha (by simp [hd]) hdue, State.afterDebug_of_invasive ha hd]
    · exact congrArg Host.Outcome.next (State.mod_congr (if_pos (by rw [ha, Half.since_of_le hd]; simp [hb])))
    · exact congrArg Host.Outcome.next (State.mod_congr (if_pos (by rw [hk, Option.any_some, Half.since_of_le hd])))

end Sys2Proof.Machine
end

section
/-! PROOFS. Overlays, images, activation and evacuation (spec/21_configuration_and_update.md, spec/17_partners.md R435). -/

namespace Sys2Proof.Machine
open Sys2Proof.Laws.Memory

/-! ### Transfers of images (spec/21_configuration_and_update.md R519, R520, R529) -/

theorem State.runMsg_wait {s t : State} {h : HalfId} {slot op len : Nat} {f : Form} {chk : Half → Msg → List Chk}
    {act : State → Msg → Reply} (hs : (s.half h).sends slot op len = true) (hop : op ∈ opcodes) (hf : f.lens.contains len = true)
    (hc : ∀ d ∈ chk (s.half h) ((s.half h).msg slot), d.bad = false) (ha : act s ((s.half h).msg slot) = .wait t) :
    s.runMsg h slot op f chk act = t.holdMsg h slot := by
  rw [State.runMsg_short hs hop hf hc, ha]

theorem State.runMsg_wait_long {s t : State} {h : HalfId} {slot op maxIn : Nat} {f : Form} {chk : Half → Msg → List Chk}
    {act : State → Msg → Reply} (hs : (s.half h).sendsLong slot op maxIn = true) (hop : op ∈ opcodes) (hl : f.long = true)
    (hm : f.maxIn = maxIn) (hc : ∀ d ∈ chk (s.half h) ((s.half h).msg slot), d.bad = false) (ha : act s ((s.half h).msg slot) = .wait t) :
    s.runMsg h slot op f chk act = t.holdMsg h slot := by
  rw [State.runMsg_long hs hop hl hm hc, ha]

theorem State.runMsg_fail_long {s t : State} {h : HalfId} {slot op maxIn : Nat} {f : Form} {chk : Half → Msg → List Chk}
    {act : State → Msg → Reply} {c : Chk} (hs : (s.half h).sendsLong slot op maxIn = true) (hop : op ∈ opcodes) (hl : f.long = true)
    (hm : f.maxIn = maxIn) (hc : ∀ d ∈ chk (s.half h) ((s.half h).msg slot), d.bad = false) (ha : act s
        ((s.half h).msg slot) = .fail t c) :
    s.runMsg h slot op f chk act = t.mod h (fun y => y.finishBad slot c) := by
  rw [State.runMsg_long hs hop hl hm hc, ha]

theorem worst_append_of_none {l k : List Chk} (h : worst l = none) : worst (l ++ k) = worst k := by
  rw [worst_eq_none] at h
  induction l with
  | nil => rfl
  | cons c l ih =>
    obtain ⟨hc, hl⟩ := List.forall_mem_cons.1 h
    exact (worst_cons_pass hc).trans (ih hl)

theorem worst_append_of_some {l : List Chk} {d : Chk} (h : worst l = some d) (k : List Chk) : ∃ c, worst (l ++ k) = some c := by
  refine Option.ne_none_iff_exists'.1 fun hnone => ?_
  rw [(worst_append_none.1 hnone).1] at h
  cases h

/-- The buffers of a long transfer pass when IN_LEN is the image's and OUT_LEN is zero. -/
theorem longImage_pass {x : Half} {m : Msg} (hout : outLen m = 0) (hin : inLen m = 0x1000 + imgLen (x.vread (msgCtx m) (inAddr m) 0x20)) :
    ∀ d ∈ longImage x m, d.bad = false := by
  unfold longImage
  split
  · simp only [List.forall_mem_cons, decide_eq_false_iff_not, Decidable.not_not]
    exact ⟨hin, hout, forall_mem_nil_bad⟩
  · exact forall_mem_nil_bad

/-- A transfer in its long form is executed at once. -/
theorem State.runImage_long {s : State} {h : HalfId} {slot op : Nat} {m : Msg} {run : State → List Byte → Reply} (hl : msgLong m = true) :
    s.runImage h slot op m run = run s ((s.half h).vread (msgCtx m) (inAddr m) (inLen m)) := if_pos hl

/-- A chunk after which more are to come is staged. -/
theorem State.runImage_more {s : State} {h : HalfId} {slot op : Nat} {m : Msg} {run : State → List Byte → Reply} {k : Stage}
    (hl : msgLong m = false)
    (hk : takeChunk (s.half h).svc.stage slot op (pay m 0 32) (pay m 4 32) 0 (s.half h).now (chunkData m) = .more k)
    (htotal : 0 < pay m 0 32 → pay m 4 32 = imgChunks (imgLen k.data)) :
    s.runImage h slot op m run = .done (s.mod h (fun y => { y with svc := { y.svc with stage := some k } })) stOk [] := by
  unfold State.runImage
  rw [if_neg (by simp [hl])]
  dsimp only
  rw [hk]
  exact if_neg (by simpa using htotal)

/-- What keeps an image from being written at all (R529). -/
def State.unstageable (s : State) (h : HalfId) (i : List Byte) : List Chk :=
  [{ bad := imgKind i = 0x11, st := stUnsupported },
   { bad := imgKind i ≠ 0x11 && !(slotKinds.contains (imgKind i)), st := stMalformed, off := 0x10 },
   busy100 (s.changing || s.substituting),
   { bad := (s.half h).activating (imgKind i), st := stBusy, retry := some 1000000 }]

/-- An image is written when its kind has slots and nothing that moves slots runs. -/
theorem State.worst_unstageable {s : State} {h : HalfId} {i : List Byte} :
    worst (s.unstageable h i) = none ↔ imgKind i ≠ 0x11 ∧ slotKinds.contains (imgKind i) = true ∧ s.changing = false ∧
      s.substituting = false ∧ (s.half h).activating (imgKind i) = false := by
  rw [worst_eq_none]
  unfold State.unstageable busy100
  simp only [List.forall_mem_cons, decide_eq_false_iff_not, Bool.and_eq_false_imp, decide_eq_true_eq, Bool.not_eq_false',
      Bool.or_eq_false_iff]
  exact ⟨fun ⟨hk, hs, ⟨hc, hb⟩, ha, _⟩ => ⟨hk, hs hk, hc, hb, ha⟩, fun ⟨hk, hs, hc, hb, ha⟩ => ⟨hk, fun _ => hs, ⟨hc, hb⟩, ha,
      forall_mem_nil_bad⟩⟩

theorem exec_updStage_of_long {h : HalfId} {slot : Nat} {s : State} {i : List Byte} (hs :
    (s.half h).sendsLong slot 0x0401 0x10001000 = true)
    (hout : outLen ((s.half h).msg slot) = 0)
    (hin : inLen ((s.half h).msg slot) =
      0x1000 + imgLen ((s.half h).vread (msgCtx ((s.half h).msg slot)) (inAddr ((s.half h).msg slot)) 0x20))
    (hi : (s.half h).vread (msgCtx ((s.half h).msg slot)) (inAddr ((s.half h).msg slot)) (inLen ((s.half h).msg slot)) = i) :
    let checks := (s.half h).imageChecks s.dev.serial (imgKind i) 0x10000000 i
    (worst (s.unstageable h i) = none → worst checks = none → exec (.updStage h slot) s =
      .next (s.mod h (fun y => (y.writeSlot (imgKind i) i true).finish slot stOk []))) ∧
    (∀ c, worst (s.unstageable h i) = none → worst checks = some c → exec (.updStage h slot) s =
      .next (s.mod h (fun y => (y.writeSlot (imgKind i) i false).finishBad slot c))) ∧
    (∀ d, worst (s.unstageable h i) = some d → ∃ c, exec (.updStage h slot) s = .next (s.mod h (fun y => y.finishBad slot c))) := by
  have hlong := (Half.sendsLong_long hs).1
  have hpass := longImage_pass hout hin
  rw [exec_updStage]
  unfold execUpdStage
  dsimp only
  refine ⟨fun hf hc => congrArg Host.Outcome.next ?_, fun c hf hc => congrArg Host.Outcome.next ?_, fun d hf => ?_⟩
  · refine State.runMsg_done_long_mod hs (by decide) rfl rfl hpass ?_
    rw [State.runImage_long hlong, hi]
    rw [State.unstageable] at hf
    rw [worst_append_none.2 ⟨hf, hc⟩]
  · refine (State.runMsg_fail_long hs (by decide) rfl rfl hpass ?_).trans (State.mod_mod _ _ _ _)
    rw [State.runImage_long hlong, hi]
    rw [State.unstageable] at hf
    rw [worst_append_of_none hf, hc]
    dsimp only
    rw [hf]
    exact congrArg (Reply.fail · c) (if_neg (by simp))
  · obtain ⟨c, hc⟩ := worst_append_of_some hf ((s.half h).imageChecks s.dev.serial (imgKind i) 0x10000000 i)
    refine ⟨c, congrArg Host.Outcome.next (State.runMsg_fail_long hs (by decide) rfl rfl hpass ?_)⟩
    rw [State.runImage_long hlong, hi]
    rw [State.unstageable] at hf hc
    rw [hc, hf]
    exact congrArg (Reply.fail · c) (if_pos rfl)

/-! ### Settling O57 -/

theorem exec_ovlSubmit_of_removal {h : HalfId} {slot : Nat} {s : State} (hs : (s.half h).sends slot 0x0301 2 = true)
    (hop : pay ((s.half h).msg slot) 0 8 = 1) (hslot : pay ((s.half h).msg slot) 1 8 ≤ 7)
    (hc : worst (s.heldChecks h (pay ((s.half h).msg slot) 1 8)) = none) :
    exec (.ovlSubmit h slot) s =
      .next ((s.mod h (fun y => y.hold (pay ((s.half h).msg slot) 1 8) none (some slot))).holdMsg h slot) := by
  obtain ⟨hshort, hlen, -⟩ := Half.sends_short hs
  rw [exec_ovlSubmit]
  refine congrArg Host.Outcome.next (State.runMsg_wait hs (by decide) (by decide) ?_ (if_pos (by simp [hshort, hlen])))
  rw [if_neg (by simp [hshort]), if_pos hlen, List.forall_mem_append]
  refine ⟨?_, worst_eq_none.1 hc⟩
  simp [hop, hslot]

theorem exec_ovlSubmit_of_long {h : HalfId} {slot : Nat} {s : State} {i : List Byte} (hs :
    (s.half h).sendsLong slot 0x0301 67108864 = true)
    (hout : outLen ((s.half h).msg slot) = 0)
    (hin : inLen ((s.half h).msg slot) =
      0x1000 + imgLen ((s.half h).vread (msgCtx ((s.half h).msg slot)) (inAddr ((s.half h).msg slot)) 0x20))
    (hi : (s.half h).vread (msgCtx ((s.half h).msg slot)) (inAddr ((s.half h).msg slot)) (inLen ((s.half h).msg slot)) = i)
    (hc : worst ((s.half h).ovlImageChecks s.dev.serial i ++ [s.otherBase h i] ++ s.heldChecks h (ovlSlot (imgPayload i))) = none) :
    exec (.ovlSubmit h slot) s =
      .next ((s.mod h (fun y => y.hold (ovlSlot (imgPayload i)) (some i) (some slot))).holdMsg h slot) := by
  have hlong := (Half.sendsLong_long hs).1
  rw [exec_ovlSubmit]
  refine congrArg Host.Outcome.next (State.runMsg_wait_long hs (by decide) rfl rfl ?_ ((if_neg (by simp [hlong])).trans ?_))
  · rw [if_pos hlong]
    exact longImage_pass hout hin
  · rw [State.runImage_long hlong, hi]
    dsimp only
    rw [hc]

/-- A chunk of either transfer after which more are to come is staged. -/
theorem exec_ovlSubmit_of_more {h : HalfId} {slot : Nat} {s : State} {k : Stage} (hs : (s.half h).sends slot 0x0301 0x30 = true)
    (hk : takeChunk (s.half h).svc.stage slot 0x0301 (pay ((s.half h).msg slot) 0 32) (pay ((s.half h).msg slot) 4 32) 0 (s.half h).now
      (chunkData ((s.half h).msg slot)) = .more k)
    (htotal : 0 < pay ((s.half h).msg slot) 0 32 → pay ((s.half h).msg slot) 4 32 = imgChunks (imgLen k.data)) :
    exec (.ovlSubmit h slot) s = .next
      ((s.mod h (fun y => { y with svc := { y.svc with stage := some k } })).mod h (fun y => y.finish slot stOk [])) := by
  obtain ⟨hshort, hlen, -⟩ := Half.sends_short hs
  rw [exec_ovlSubmit]
  refine congrArg Host.Outcome.next (State.runMsg_done hs (by decide) (by decide) ?_
    ((if_neg (by simp [hlen])).trans (State.runImage_more hshort hk htotal)))
  rw [if_neg (by simp [hshort]), if_neg (by simp [hlen])]
  exact forall_mem_nil_bad

theorem exec_updStage_of_more {h : HalfId} {slot : Nat} {s : State} {k : Stage} (hs : (s.half h).sends slot 0x0401 0x30 = true)
    (hk : takeChunk (s.half h).svc.stage slot 0x0401 (pay ((s.half h).msg slot) 0 32) (pay ((s.half h).msg slot) 4 32) 0 (s.half h).now
      (chunkData ((s.half h).msg slot)) = .more k)
    (htotal : 0 < pay ((s.half h).msg slot) 0 32 → pay ((s.half h).msg slot) 4 32 = imgChunks (imgLen k.data)) :
    exec (.updStage h slot) s = .next
      ((s.mod h (fun y => { y with svc := { y.svc with stage := some k } })).mod h (fun y => y.finish slot stOk [])) := by
  have hshort := (Half.sends_short hs).1
  rw [exec_updStage]
  refine congrArg Host.Outcome.next (State.runMsg_done hs (by decide) (by decide) ?_ (State.runImage_more hshort hk htotal))
  rw [longImage, if_neg (by simp [hshort])]
  exact forall_mem_nil_bad

/-- Whether the other half's Captain confirms the first entry that awaits it. -/
def State.confirmChecks (s : State) (h : HalfId) (e : Held) : List Chk :=
  e.image.elim [] ((s.half (other h)).ovlImageChecks s.dev.serial) ++
    [{ bad := (s.half (other h)).svc.held.any (fun k => k.slot = e.slot), st := stBusy, retry := some 1000000 }]

theorem exec_overlayConfirmReceive_of_found {h : HalfId} {s : State} {e : Held} (hp : s.paired = true) (ha : (s.half h).alive = true)
    (ho : (s.half (other h)).alive = true) (hu : (s.half h).handoffUp = true)
    (he : (s.half h).svc.held.find? (fun e => e.confirmed.isNone) = some e) :
    (∀ c, worst (s.confirmChecks h e) = some c → exec (.overlayConfirmReceive h) s = .next (s.mod h (fun y => y.dropHeld e c))) ∧
    (worst (s.confirmChecks h e) = none → exec (.overlayConfirmReceive h) s = .next (s.mod h (fun y => { y with svc := { y.svc with
      held := y.svc.held.map (fun (k : Held) => if k.slot = e.slot then { k with confirmed := some y.now } else k) } }))) := by
  rw [exec_overlayConfirmReceive]
  unfold execOverlayConfirmReceive State.confirmChecks
  dsimp only
  rw [if_neg (by simp [hp, ha, ho, hu]), he]
  dsimp only
  cases e.image with
  | none =>
    rw [Option.elim_none, List.nil_append]
    exact ⟨fun c hc => by rw [hc], fun hc => by rw [hc]⟩
  | some i =>
    rw [Option.elim_some]
    exact ⟨fun c hc => by rw [hc], fun hc => by rw [hc]⟩

/-- Settles O57: what is submitted is held, what is staged is written or not, and the other half confirms. -/
theorem overlayAndImageMessagesComplete : Obligations.OverlayAndImageMessagesComplete := by
  unfold Obligations.OverlayAndImageMessagesComplete
  intro h slot s
  dsimp only
  refine ⟨exec_ovlSubmit_of_removal, fun hs ⟨hout, hin⟩ hc => exec_ovlSubmit_of_long hs hout hin rfl hc,
    fun hs ⟨hout, hin⟩ hch hsub hslot hkind hact => ?_, fun hs ⟨hout, hin⟩ hno => ?_, fun op hop k hs hk htotal => ⟨fun ho => ?_, fun ho
        => ?_⟩,
    fun k hk hd => ?_, fun hs hslot => ?_, fun e hp ha ho hu he => ?_⟩
  · obtain ⟨hgood, hbad, -⟩ := exec_updStage_of_long hs hout hin rfl
    have hfree := State.worst_unstageable.2 ⟨hkind, hslot, hch, hsub, hact⟩
    exact ⟨hgood hfree, fun c => hbad c hfree⟩
  · obtain ⟨-, -, hskip⟩ := exec_updStage_of_long hs hout hin rfl
    have hbusy : worst (s.unstageable h ((s.half h).vread (msgCtx ((s.half h).msg slot)) (inAddr ((s.half h).msg slot))
        (inLen ((s.half h).msg slot)))) ≠ none := by
      rw [Ne, State.worst_unstageable]
      rintro ⟨hk, hs, hc, hb, ha⟩
      rw [hs, hc, hb, ha] at hno
      simp [hk] at hno
    obtain ⟨d, hd⟩ := Option.ne_none_iff_exists'.1 hbusy
    exact hskip d hd
  · subst ho
    exact exec_ovlSubmit_of_more hs hk htotal
  · subst ho
    exact exec_updStage_of_more hs hk htotal
  · exact congrArg Host.Outcome.next (State.mod_congr (if_pos (by rw [hk, Option.any_some, Half.since_of_le hd])))
  · rw [exec_ovlStatus]
    exact congrArg Host.Outcome.next (State.runMsg_done_mod hs (by decide) (by decide) (by simp [hslot]) (by rw [State.mod_self]))
  · have hconfirm := exec_overlayConfirmReceive_of_found hp ha ho hu he
    unfold State.confirmChecks at hconfirm
    cases himg : e.image with
    | none =>
      rw [himg] at hconfirm
      exact hconfirm
    | some i =>
      rw [himg] at hconfirm
      exact hconfirm

/-! ### Activation and evacuation (spec/21_configuration_and_update.md R530, spec/17_partners.md R435, R436) -/

/-- The checks of an activation that can take effect now. -/
theorem exec_updActivate_of_checked {h : HalfId} {slot : Nat} {s : State} (hs : (s.half h).sends slot 0x0402 2 = true)
    (hkind : slotKinds.contains (pay ((s.half h).msg slot) 0 16) = true)
    (hgood : ((s.half h).goodSlot s.dev.serial (pay ((s.half h).msg slot) 0 16)
      (!decide (pay ((s.half h).msg slot) 0 16 ∈ (s.half h).svc.selB))).isSome = true)
    (hch : s.changing = false) (hsub : s.substituting = false) (hact : (s.half h).activating (pay ((s.half h).msg slot) 0 16) = false)
    (hheld : heldKinds.contains (pay ((s.half h).msg slot) 0 16) = true → (s.half h).powx.held = true) :
    let kind := pay ((s.half h).msg slot) 0 16
    (kind = 4 → exec (.updActivate h slot) s = .next ((s.mod h (fun y =>
      let z := (y.switchSlot 4).waitBoundary slot true
      { z with svc := { z.svc with updPair := some { kind := 4, slot := some slot } } })).holdMsg h slot)) ∧
    (kind = 5 → (s.half h).pow.st ≠ .doze → exec (.updActivate h slot) s = .next ((s.mod h (fun y =>
      let z := (y.switchSlot 5).waitBoundary slot true
      { z with svc := { z.svc with upd := some { kind := 5, slot := some slot } } })).holdMsg h slot)) ∧
    (kind = 5 → (s.half h).pow.st = .doze → exec (.updActivate h slot) s =
      .next (s.mod h (fun y => (y.switchSlot 5).finish slot stOk []))) ∧
    (kind ≠ 4 → kind ≠ 5 → exec (.updActivate h slot) s = .next (s.mod h (fun y => (y.toggleSlot kind).finish slot stOk []))) := by
  rw [exec_updActivate]
  unfold execUpdActivate
  rw [State.runMsg_short hs (by decide) (by decide) ?_]
  · dsimp only
    refine ⟨fun h4 => ?_, fun h5 hd => ?_, fun h5 hd => ?_, fun h4 h5 => ?_⟩
    · rw [if_pos h4]
    · rw [if_neg (by omega), if_pos h5, if_neg hd]
    · rw [if_neg (by omega), if_pos h5, if_pos hd]
      exact congrArg Host.Outcome.next (State.mod_mod _ _ _ _)
    · rw [if_neg h4, if_neg h5]
      exact congrArg Host.Outcome.next (State.mod_mod _ _ _ _)
  · simp only [List.forall_mem_cons, busy100, Bool.or_eq_false_iff, Bool.and_eq_false_imp, Bool.not_eq_false', Option.isNone_eq_false_iff]
    exact ⟨hkind, hgood, ⟨hch, hsub⟩, ⟨hact, hheld⟩, forall_mem_nil_bad⟩

theorem exec_evacuate_of_checked {h : HalfId} {slot copied : Nat} {receiver : Bool} {gm : Option (BitVec 64)} {s : State} {b : List Byte}
    (hs : (s.half h).sendsLong slot 0x0405 67108864 = true) (hout : outLen ((s.half h).msg slot) = 0)
    (hb : (s.half h).vread (msgCtx ((s.half h).msg slot)) (inAddr ((s.half h).msg slot)) (inLen ((s.half h).msg slot)) = b)
    (hn : bytesAt b 2 2 ≤ 256) (hin : inLen ((s.half h).msg slot) = 64 + 32 * bytesAt b 2 2) (hok : (s.half h).evacOk b = true)
    (hchain : decide (bytesAt b 0 1 % 2 = 1) = true → s.dev.chain = h ∧ s.dev.evacuated = false)
    (hready : s.evacReady h (decide (bytesAt b 0 1 % 2 = 1)) receiver gm = true) :
    let x := s.half h
    let lost := (evacRegions b).any (fun r => (x.firstBad r.1 [(r.2.2.1, r.2.2.2)]).isSome)
    let u := s.mod h (fun y => y.announce 78)
    let bad := fun (st : Nat) => Host.Outcome.next ((u.mod h Half.took).mod h (fun y =>
      y.finishBad slot { bad := true, st := evacStatus x.seed st }))
    (lost = true → exec (.evacuate h slot receiver gm copied) s = bad stDataLost) ∧
    (lost = false → copied ≠ stOk → exec (.evacuate h slot receiver gm copied) s = bad copied) ∧
    (lost = false → copied = stOk → decide (bytesAt b 0 1 % 2 = 1) = false → exec (.evacuate h slot receiver gm copied) s =
      .next (u.mod h (fun y => y.finish slot stOk []))) ∧
    (lost = false → copied = stOk → decide (bytesAt b 0 1 % 2 = 1) = true → exec (.evacuate h slot receiver gm copied) s =
      .next (({ u with dev := { u.dev with
        evac := some { half := h, slot := slot, chain := true
                       seen := (x.ump.checkpoints.head?).map (·.frame) } } } : State).holdMsg h slot)) := by
  rw [exec_evacuate]
  unfold execEvacuate
  rw [State.runMsg_long hs (by decide) rfl rfl ?_]
  · dsimp only
    rw [hb]
    refine ⟨fun hl => ?_, fun hl hc => ?_, fun hl hc hno => ?_, fun hl hc hyes => ?_⟩
    · rw [if_pos hl]
    · rw [if_neg (by simp [hl]), if_pos hc]
    · rw [if_neg (by simp [hl]), if_neg (Decidable.not_not.2 hc), if_neg (of_decide_eq_false hno)]
    · rw [if_neg (by simp [hl]), if_neg (Decidable.not_not.2 hc), if_pos (of_decide_eq_true hyes)]
  · dsimp only
    rw [hb]
    simp only [List.forall_mem_cons, Bool.or_eq_false_iff, Bool.and_eq_false_imp, Bool.not_eq_false', decide_eq_false_iff_not,
        Decidable.not_not]
    refine ⟨⟨by omega, hin⟩, hout, fun _ => hok, fun hc => ?_, hready, forall_mem_nil_bad⟩
    exact hchain hc

/-- A status of a copy that a mailbox carries is reported as it is, and that of lost data as one of the failures that it carries
    (R436). -/
theorem evacStatus_cases (seed : Nat) : (∀ st ∈ [stDiscarded, stMalformed, stDenied, stBusy], evacStatus seed st = st) ∧
    evacStatus seed stDataLost ∈ [stMalformed, stTimeout, stDenied, stBusy, stUnsupported] := by
  refine ⟨fun st hst => if_pos hst, ?_⟩
  unfold evacStatus
  rw [if_neg (by decide)]
  have hlt : Config.freeNat seed 8 % 5 < [stMalformed, stTimeout, stDenied, stBusy, stUnsupported].length := Nat.mod_lt _ (by decide)
  rw [List.getElem?_eq_getElem hlt]
  exact List.getElem_mem hlt

/-- Settles O58: activations by kind, and the steps of an evacuation. -/
theorem activationAndEvacuationComplete : Obligations.ActivationAndEvacuationComplete := by
  unfold Obligations.ActivationAndEvacuationComplete
  intro h slot copied receiver gm commit s
  dsimp only
  refine ⟨fun hs hkind hgood hch hsub hact hheld => exec_updActivate_of_checked hs hkind hgood hch hsub hact hheld,
    fun hs hout hn hin hok hchain hready => exec_evacuate_of_checked hs hout rfl hn hin hok hchain hready,
    fun e he hh ha hadm hstep hsent hst => ?_, evacStatus_cases, fun ha hadm hrec hlink href => ⟨?_, fun i => ?_⟩⟩
  · rw [exec_evacuateAcceptReceive]
    unfold execEvacuateAcceptReceive
    dsimp only
    rw [he]
    exact if_pos (by simp [hh, ha, hadm, hstep, hsent, hst])
  · exact if_neg (by simp [ha, hadm, hrec, hlink, href])
  · exact if_neg (by simp [ha, hadm, hrec, hlink, href])

end Sys2Proof.Machine
end

section
/-! PROOFS. The control space and the TAP (spec/01_two_halves.md R18, R23, spec/19_security_debug_power.md R485). -/

namespace Sys2Proof.Machine
open Sys2Proof.Laws.Memory

/-! ### Stores to the control space (spec/01_two_halves.md R22, R23) -/

/-- A store by a core or pair of a running half reaches its control space. -/
theorem exec_registerWrite_of_running {h : HalfId} {ag : Agent} {s : State} (ha : (s.half h).alive = true) (hag : ∀ a, ag ≠ .tool a)
    (off size v : Nat) : exec (.registerWrite h ag off size v) s = .next (s.mod h (fun y => y.ctrlStore ag off size v)) := by
  rw [exec_registerWrite]
  refine congrArg Host.Outcome.next (State.mod_congr (if_pos ?_))
  cases ag with
  | tool a => exact absurd rfl (hag a)
  | _ => simp [Half.storeReaches, Half.toolIgnored, ha]

theorem isTool_eq_false {ag : Agent} (hag : ∀ a, ag ≠ .tool a) : isTool ag = false := by
  cases ag with
  | tool a => exact absurd rfl (hag a)
  | _ => rfl

section
variable {x : Half} {ag : Agent} {off size v o : Nat}

/-- A store that R23 does not allow is dropped and counted. -/
theorem Half.ctrlStore_refused (h : aligned off size = false ∨ assigned off = false) :
    x.ctrlStore ag off size v = x.ctrlVio ag 1 off := by
  refine if_pos ?_
  rcases h with h | h <;> simp [h]

/-- A store to a block: which of its own rules it follows. -/
theorem Half.ctrlStore_block {b : Nat} (hal : aligned off size = true) (has : assigned off = true) (hb : off / 0x100000 = b)
    (ho : off % 0x100000 = o) :
    x.ctrlStore ag off size v =
      if b = 1 then x.mbxStore ag o size v
      else if b = 2 then x.umpStore o size v
      else if b = 3 then x.qosStore ag o size v
      else if b = 4 then x.timStore o size v
      else if b = 5 then x.thmStore ag o size v
      else if b = 7 then x.dblStore ag o size v
      else if b = 0x30 then x.lnkStore o size v
      else x := by
  subst hb ho
  exact if_neg (by simp [hal, has])

/-- A store of a whole word puts it in. -/
theorem accMerge_word (old : BitVec 64) (ho : o % 8 = 0) : accMerge old o 8 v = BitVec.ofNat 64 v := by
  have hmask : accMask o 8 = BitVec.allOnes 64 := by
    unfold accMask
    rw [ho]
    rfl
  unfold accMerge
  rw [hmask, ho]
  exact BitVec.eq_of_toNat_eq (by simp)

theorem accOnes_word (ho : o % 8 = 0) : accOnes o 8 v = BitVec.ofNat 64 v := accMerge_word 0 ho

theorem ofNat_low {n : Nat} (hn : n ≤ 64) : (BitVec.ofNat 64 v).extractLsb' 0 n = BitVec.ofNat n v := by
  apply BitVec.eq_of_toNat_eq
  simp [Nat.mod_mod_of_dvd _ (Nat.pow_dvd_pow 2 hn)]

/-- A store to read-only space is ignored. -/
theorem Half.ctrlStore_readOnly :
    ∀ o ∈ [0x140010, 0x200000, 0x200008, 0x200020, 0x400000, 0x400008, 0x400010, 0x400018, 0x400020, 0x400028,
    0x400030, 0x400038, 0x400040, 0x500000, 0x500008, 0x500010, 0x500018, 0x500030, 0x500038], x.ctrlStore ag o 8 v = x := by
  simp [Half.ctrlStore, aligned, assigned, Half.mbxStore, Half.umpStore, Half.timStore, Half.thmStore]

theorem Half.rearm_foldl {α : Type} (p : α → Bool) (f : α → Nat) (l : List α) (x : Half) :
    (l.foldl (fun y a => if p a then y.rearm (f a) else y) x).mbx = x.mbx ∧
    (l.foldl (fun y a => if p a then y.rearm (f a) else y) x).mem = x.mem := by
  induction l generalizing x with
  | nil => exact ⟨rfl, rfl⟩
  | cons a l ih =>
    obtain ⟨hmbx, hmem⟩ := ih (if p a then x.rearm (f a) else x)
    refine ⟨hmbx.trans ?_, hmem.trans ?_⟩ <;> split <;> rfl

/-- A store of MBX_IRQ_STATUS clears the bits that it names. -/
theorem Half.ctrlStore_irqStatus :
    (x.ctrlStore ag 0x140000 8 v).mbx = { x.mbx with irqStatus := x.mbx.irqStatus &&& ~~~(BitVec.ofNat 64 v) } ∧
    (x.ctrlStore ag 0x140000 8 v).mem = x.mem := by
  rw [Half.ctrlStore_block (b := 1) (o := 0x40000) (by decide) (by decide) (by decide) (by decide), if_pos rfl, ← accOnes_word
      (o := 0x40000) rfl]
  exact Half.rearm_foldl (fun i => (accOnes 0x40000 8 v).getLsbD i) (fun i => 1 + i) (List.range 60) _

/-- The status and enable registers, a store of which names the bits that it clears or sets. -/
theorem Half.ctrlStore_bits :
    x.ctrlStore ag 0x140008 8 v = { x with mbx := { x.mbx with irqEnable := BitVec.ofNat 64 v } } ∧
    x.ctrlStore ag 0x200010 8 v = ({ x with ump := { x.ump with events := x.ump.events &&& ~~~(BitVec.ofNat 15 v) } } : Half).rearm 69 ∧
    x.ctrlStore ag 0x200018 8 v = { x with ump := { x.ump with irqEnable := BitVec.ofNat 15 v } } ∧
    x.ctrlStore ag 0x400048 8 v = { x with tim := { x.tim with events := x.tim.events &&& ~~~(BitVec.ofNat 6 v) } } ∧
    x.ctrlStore ag 0x500020 8 v = ({ x with pow := { x.pow with events := x.pow.events &&& ~~~(BitVec.ofNat 10 v) } } : Half).rearm 66 ∧
    x.ctrlStore ag 0x500028 8 v = { x with pow := { x.pow with irqEnable := BitVec.ofNat 10 v } } ∧
    x.ctrlStore ag 0x3002000 8 v =
      ({ x with links := { x.links with irqStatus := x.links.irqStatus &&& ~~~(BitVec.ofNat 19 v) } } : Half).rearm 79 ∧
    x.ctrlStore ag 0x3002008 8 v = { x with links := { x.links with irqEnable := BitVec.ofNat 19 v } } := by
  refine ⟨?_, ?_, ?_, ?_, ?_, ?_, ?_, ?_⟩ <;>
    simp [Half.ctrlStore, aligned, assigned, Half.mbxStore, Half.umpStore, Half.timStore, Half.thmStore, Half.lnkStore, accMerge_word,
      accOnes_word, ofNat_low]

end

/-! ### Settling O59 -/

section
variable {x : Half} {ag : Agent} {off size v slot d c : Nat}

/-- Stores to the page of a slot that are those of its own commands. -/
theorem Half.ctrlStore_slot (hslot : slot < 64) :
    x.ctrlStore ag (0x100080 + slot * 0x1000) 8 v =
      (if reaches ag slot then x.ownerStore ag slot (v.testBit 8) (BitVec.ofNat 8 v) else x.slotRefused ag slot 0x80) ∧
    (d < 8 → x.ctrlStore ag (0x100000 + slot * 0x1000 + 8 * d) 8 v =
      if reaches ag slot then x.inStore slot (8 * d) 8 v else x.slotRefused ag slot (8 * d)) := by
  constructor
  · rw [Half.ctrlStore_block (b := 1) (o := slot * 0x1000 + 0x80) (by simp [aligned]; omega) (by simp [assigned]; omega) (by omega)
      (by omega), if_pos rfl]
    unfold Half.mbxStore
    rw [if_pos (by omega), show (slot * 0x1000 + 0x80) / 0x1000 = slot by omega, show (slot * 0x1000 + 0x80) % 0x1000 = 0x80 by omega]
    unfold Half.slotStore
    by_cases hr : reaches ag slot = true <;> simp [hr]
  · intro hd
    rw [Half.ctrlStore_block (b := 1) (o := slot * 0x1000 + 8 * d) (by simp [aligned]; omega) (by simp [assigned]; omega) (by omega)
        (by omega), if_pos rfl]
    unfold Half.mbxStore
    rw [if_pos (by omega), show (slot * 0x1000 + 8 * d) / 0x1000 = slot by omega, show (slot * 0x1000 + 8 * d) % 0x1000 = 8 * d by omega]
    unfold Half.slotStore
    by_cases hr : reaches ag slot = true
    · rw [if_neg (by simp [hr]), if_pos (by omega), if_pos hr]
    · simp [hr]

theorem Half.ownerStore_release (x : Half) (ag : Agent) (slot : Nat) (cl cl' : BitVec 8) :
    x.ownerStore ag slot false cl = x.ownerStore ag slot false cl' := rfl

/-- A store to a word of MBX_IN takes the low 64 bits. -/
theorem Half.inStore_word (x : Half) (slot off v : Nat) : x.inStore slot off 8 (BitVec.ofNat 64 v).toNat = x.inStore slot off 8 v := by
  unfold Half.inStore
  rw [show (BitVec.ofNat 64 v).toNat % 2 ^ (8 * 8) = v % 2 ^ (8 * 8) by simp]

theorem Half.ctrlStore_doorbell (hd : d < 4096) :
    x.ctrlStore ag (0x700000 + d * 0x100) 8 v = x.doorbellStore ag d (BitVec.ofNat 64 v) ∧
    x.ctrlStore ag (0x700000 + d * 0x100) 4 v = x.ctrlVio ag 3 (0x700000 + d * 0x100) := by
  have hblock : ∀ n, n = 4 ∨ n = 8 → x.ctrlStore ag (0x700000 + d * 0x100) n v = x.dblStore ag (d * 0x100) n v := fun n hn => by
    rw [Half.ctrlStore_block (b := 7) (o := d * 0x100) (by rcases hn with rfl | rfl <;> simp [aligned] <;> omega)
        (by simp [assigned]; omega) (by omega) (by omega)]
    rfl
  constructor
  · rw [hblock 8 (.inr rfl)]
    exact (if_pos (by simp)).trans (by rw [Nat.mul_div_cancel d (by decide)])
  · rw [hblock 4 (.inl rfl)]
    exact (if_neg (by simp)).trans (if_pos (by omega))

theorem Half.ctrlStore_cluster (hc : c < 4) : x.ctrlStore ag (0x500040 + 8 * c) 8 v = x.clusterStore ag c (BitVec.ofNat 16 v) := by
  rw [Half.ctrlStore_block (b := 5) (o := 0x40 + 8 * c) (by simp [aligned]) (by simp [assigned]; omega) (by omega) (by omega)]
  refine (if_neg (by decide)).trans ((if_neg (by decide)).trans ((if_neg (by decide)).trans ((if_neg (by decide)).trans
      ((if_pos rfl).trans ?_))))
  refine (if_neg (by omega)).trans ((if_neg (by omega)).trans ((if_pos (by simp; omega)).trans ?_))
  rw [show (0x40 + 8 * c - 0x40) / 8 = c by omega]

/-- A store to the regulator is that of its own command. -/
theorem Half.ctrlStore_qos (ho : off < 0x100000) :
    x.ctrlStore ag (0x300000 + off) size v =
      if !aligned off size then x.ctrlVio ag 1 (0x300000 + off) else x.qosStore ag off size v := by
  have hal : aligned (0x300000 + off) size = aligned off size := by
    unfold aligned
    by_cases h4 : size = 4
    · subst h4
      simp [Nat.add_mod]
    · by_cases h8 : size = 8
      · subst h8
        simp [Nat.add_mod]
      · simp [h4, h8]
  by_cases ha : aligned off size = true
  · rw [Half.ctrlStore_block (b := 3) (o := off) (hal.trans ha) (by simp [assigned]; omega) (by omega) (by omega), ha]
    rfl
  · rw [Half.ctrlStore_refused (.inl (hal.trans (by simpa using ha))), if_pos (by simp [ha])]

/-- A clock within its range is the one that the cluster is to run at. -/
theorem Half.clusterStore_inRange {mhz : BitVec 16} (hlo : 600 ≤ mhz.toNat) (hhi : mhz.toNat ≤ 2400) :
    (x.clusterStore ag c mhz).pow.clusters.map (·.2) = (x.pow.clusters.modify c (fun p => (p.1, mhz))).map (·.2) ∧
    (x.clusterStore ag c mhz).sched.cmds = x.sched.cmds ∧ (x.clusterStore ag c mhz).mem = x.mem := by
  have hstore : x.clusterStore ag c mhz =
      ({ x with pow := { x.pow with clusters := x.pow.clusters.modify c (fun p => (p.1, mhz)) } } : Half).applyClocks :=
    if_neg (by simp; omega)
  rw [hstore]
  refine ⟨?_, rfl, rfl⟩
  unfold Half.applyClocks
  simp only [List.map_map]
  generalize x.pow.clusters.modify c _ = l
  have hl := congrArg (List.map (·.2)) (List.zipIdx_map_fst 0 l)
  rw [List.map_map] at hl
  exact hl

end

theorem exec_thmClusterMhzWrite_of_running {h : HalfId} {ag : Agent} {c : Nat} {mhz : BitVec 16} {s : State} (ha :
    (s.half h).alive = true)
    (hag : ∀ a, ag ≠ .tool a) (hc : c < 4) :
    exec (.thmClusterMhzWrite h ag c mhz) s = .next (s.mod h (fun y => y.clusterStore ag c mhz)) := by
  rw [exec_thmClusterMhzWrite]
  refine congrArg Host.Outcome.next (State.mod_congr (if_pos ?_))
  cases ag with
  | tool a => exact absurd rfl (hag a)
  | _ => simp [Half.storeReaches, Half.toolIgnored, ha, hc]

/-- Settles O59: what a store of the control space does is what the block that it names does. -/
theorem registerStoresFollowTheirFields : Obligations.RegisterStoresFollowTheirFields := by
  unfold Obligations.RegisterStoresFollowTheirFields
  intro h ag off size v slot d c s
  dsimp only
  refine ⟨fun a hag hp => ?_, fun ha hag => ?_⟩
  · subst hag
    rw [exec_registerWrite]
    exact congrArg Host.Outcome.next (State.mod_id _ _ _ (if_neg (by simp [Half.storeReaches, hp])))
  have hst := exec_registerWrite_of_running ha hag
  have hsame : ∀ {o n}, (s.half h).ctrlStore ag o n v = s.half h → exec (.registerWrite h ag o n v) s = .next s := fun {o n} ho => by
    rw [hst, State.mod_id _ _ _ ho]
  obtain ⟨hmbxE, humpS, humpE, htim, hpowS, hpowE, hlnkS, hlnkE⟩ := Half.ctrlStore_bits (x := s.half h) (ag := ag) (v := v)
  refine ⟨fun hbad => ?_, fun has hblock hal => ?_, fun o ho => ?_, ⟨_, hst _ _ _, ?_⟩, ⟨_, hst _ _ _, ?_⟩, ⟨_, hst _ _ _, ?_⟩, ⟨_, hst
      _ _ _, ?_⟩,
    ⟨_, hst _ _ _, ?_⟩, ⟨_, hst _ _ _, ?_⟩, ⟨_, hst _ _ _, ?_⟩, ⟨_, hst _ _ _, ?_⟩, ⟨_, hst _ _ _, ?_⟩, fun hslot htool => ⟨fun hv =>
        ?_, fun hv => ?_, fun hd => ?_⟩,
    fun ho => ?_, fun hd => ?_, fun hd => ?_, fun hc => ?_, fun hc mhz => ?_⟩
  · rw [hst]
    exact congrArg Host.Outcome.next (State.mod_congr (Half.ctrlStore_refused hbad))
  · refine hsame ?_
    rw [Half.ctrlStore_block hal has rfl rfl]
    iterate 7 rw [if_neg (by omega)]
  · exact hsame (Half.ctrlStore_readOnly o ho)
  · rw [State.mod_same]
    obtain ⟨hmbx, hmem⟩ := Half.ctrlStore_irqStatus (x := s.half h) (ag := ag) (v := v)
    exact ⟨congrArg (fun b => b.irqStatus) hmbx, congrArg (fun b => b.slots) hmbx, hmem⟩
  · rw [State.mod_same, hmbxE]
    exact ⟨rfl, rfl⟩
  · rw [State.mod_same, humpS]
    rfl
  · rw [State.mod_same, humpE]
  · rw [State.mod_same, htim]
  · rw [State.mod_same, hpowS]
    rfl
  · rw [State.mod_same, hpowE]
  · rw [State.mod_same, hlnkS]
    rfl
  · rw [State.mod_same, hlnkE]
  · rw [hst, exec_mbxOwnerClaim]
    refine congrArg Host.Outcome.next (State.mod_congr ?_)
    rw [(Half.ctrlStore_slot (d := 0) hslot).1, hv]
    exact (if_neg (by simp [ha, htool])).symm
  · rw [hst, exec_mbxOwnerRelease]
    refine congrArg Host.Outcome.next (State.mod_congr ?_)
    rw [(Half.ctrlStore_slot (d := 0) hslot).1, hv, Half.ownerStore_release _ _ _ _ 0]
    exact (if_neg (by simp [ha, htool])).symm
  · rw [hst, exec_mbxInWrite]
    refine congrArg Host.Outcome.next (State.mod_congr ?_)
    rw [(Half.ctrlStore_slot hslot).2 hd]
    refine Eq.trans ?_ (if_neg (by simp [ha, htool]; omega)).symm
    rw [Nat.mul_comm d]
    exact (congrArg (ite _ · _) (Half.inStore_word _ _ _ _)).symm
  · rw [hst, exec_qosRegisterWrite]
    refine congrArg Host.Outcome.next (State.mod_congr ?_)
    rw [Half.ctrlStore_qos ho]
    exact (if_neg (by simp [ha, isTool_eq_false hag, ho])).symm
  · rw [hst, exec_doorbellStore]
    refine congrArg Host.Outcome.next (State.mod_congr ?_)
    rw [(Half.ctrlStore_doorbell hd).1]
    exact (if_pos (by simp [ha, isTool_eq_false hag])).symm
  · rw [hst]
    exact congrArg Host.Outcome.next (State.mod_congr (Half.ctrlStore_doorbell hd).2)
  · rw [hst, exec_thmClusterMhzWrite_of_running ha hag hc]
    exact congrArg Host.Outcome.next (State.mod_congr (Half.ctrlStore_cluster hc))
  · rw [exec_thmClusterMhzWrite_of_running ha hag hc]
    refine ⟨fun hlo hhi => ⟨_, rfl, ?_⟩, fun hout => congrArg Host.Outcome.next (State.mod_congr (if_pos ?_))⟩
    · rw [State.mod_same]
      exact Half.clusterStore_inRange hlo hhi
    · rcases hout with hlow | hhigh
      · simp [hlow]
      · simp [hhigh]

/-! ### Remote accesses and the TAP (spec/01_two_halves.md R18, spec/19_security_debug_power.md R485) -/

/-- A load of the control space that is allowed answers, and memory stays. -/
theorem State.ctrlLoad_frame {s : State} {h : HalfId} {off size : Nat} (hal : aligned off size = true) (has : assigned off = true)
    (htool : toolPage off = false) :
    (s.ctrlLoad h off size).resp = .data (accLoad (s.ctrlWord h (off / 8 * 8)) off size) ∧
    ∀ g, ((s.ctrlLoad h off size).half g).mem = (s.half g).mem := by
  unfold State.ctrlLoad
  rw [if_neg (by simp [hal, has, htool])]
  refine ⟨rfl, fun g => ?_⟩
  dsimp only
  split
  · refine (congrArg (fun x => x.mem) (State.half_with _ _ _ _ g)).trans (State.mod_keeps (F := fun x => x.mem) ?_ _ _ _)
    exact fun _ => rfl
  · exact congrArg (fun x => x.mem) (State.half_with _ _ _ _ g)

section
variable {h : HalfId} {s : State} {core client off size : Nat} {store : Option Nat}

theorem exec_remoteControlAccess_of_cut (hr : (s.half h).coreRuns core = true) (hcut : s.farCut h = true) :
    exec (.remoteControlAccess h core client off size store) s =
      .next { (s.mod h (fun y => y.coreVio (.core core client) 1 off (ctrlBase (other h) + off))) with
        resp := if store.isSome then .dropped else .busError } := by
  rw [exec_remoteControlAccess]
  exact (if_neg (by simp [hr])).trans (if_pos hcut)

theorem exec_remoteControlAccess_store {v : Nat} (hr : (s.half h).coreRuns core = true) (hcut : s.farCut h = false) :
    exec (.remoteControlAccess h core client off size (some v)) s =
      .next { ((s.mod h Half.crosses).mod (other h) (fun y => y.ctrlStore (.core core client) off size v)) with resp := .ok } := by
  rw [exec_remoteControlAccess]
  exact (if_neg (by simp [hr])).trans (if_neg (by simp [hcut]))

theorem exec_remoteControlAccess_load (hr : (s.half h).coreRuns core = true) (hcut : s.farCut h = false) :
    exec (.remoteControlAccess h core client off size none) s =
      .next (((s.mod h Half.crosses).mod (other h) Half.crosses).ctrlLoad (other h) off size) := by
  rw [exec_remoteControlAccess]
  exact (if_neg (by simp [hr])).trans (if_neg (by simp [hcut]))

/-- On a running half an instruction that the model does not refuse acts as its reach allows. -/
theorem exec_tapInstruction_of_awake {op : TapOp} (ha : (s.half h).alive = true) (hp : op = .priv → (s.half h).sec.debug ≠ 2) :
    exec (.tapInstruction h op) s = .next (s.tapAwake h op) := by
  have hoff : (s.half h).pow.st ≠ .off := fun hoff => by simp [Half.alive, hoff] at ha
  rw [exec_tapInstruction]
  exact (if_neg (by simp [hoff])).trans ((if_neg (by simp [ha])).trans (if_neg (by simpa using hp)))

/-- An instruction whose answer the spec does not give answers some data. -/
theorem State.tapFree_frame (s : State) (h : HalfId) :
    (s.tapFree h).resp = .data (Config.freeNat (s.half h).seed 64) ∧ ((s.tapFree h).half h).mem = (s.half h).mem :=
  ⟨rfl, (congrArg (fun x => x.mem) (State.half_with _ _ _ _ h)).trans
    (State.mod_keeps (F := fun x => x.mem) (f := Half.took) (fun _ => rfl) _ _ _)⟩

/-- Within INVASIVE an instruction that halts, reads or writes has its effect. -/
theorem exec_tapInstruction_of_invasive (ha : (s.half h).alive = true) (hd : (s.half h).sec.debug = 2) {op : TapOp}
    (hop : op ∉ [TapOp.idcode, .bypass, .sample, .extest, .observe, .priv]) :
    exec (.tapInstruction h op) s = .next (s.tapInvasive h op) := by
  rw [exec_tapInstruction_of_awake ha (fun hp => absurd (by simp [hp]) hop)]
  refine congrArg Host.Outcome.next ?_
  cases op with
  | captain | core | pair | read | write | load | store => exact if_pos hd
  | idcode | bypass | sample | extest | observe | priv => exact absurd (by simp) hop

theorem exec_tapInstruction_of_closed (ha : (s.half h).alive = true) (hd : (s.half h).sec.debug ≠ 2) {op : TapOp}
    (hop : op ∉ [TapOp.idcode, .bypass, .sample, .extest, .observe]) :
    exec (.tapInstruction h op) s = .next { s with resp := .none } := by
  rw [exec_tapInstruction_of_awake ha (fun _ => hd)]
  refine congrArg Host.Outcome.next ?_
  cases op with
  | captain | core | pair | read | write | load | store | priv => exact if_neg hd
  | idcode | bypass | sample | extest | observe => exact absurd (by simp) hop

end

/-- Settles O60: the reach of a remote access and of the TAP. -/
theorem remoteAccessesAndTapFollowTheirReach : Obligations.RemoteAccessesAndTapFollowTheirReach := by
  unfold Obligations.RemoteAccessesAndTapFollowTheirReach
  intro h core client off size n ctx va halt v data s
  dsimp only
  refine ⟨fun hr => ⟨fun hcut => ⟨?_, ?_⟩, fun hcut => ⟨?_, fun hal has htool => ⟨_, exec_remoteControlAccess_load hr hcut, ?_⟩⟩⟩, fun
      hoff hsafe op => ?_,
    fun ha => ⟨?_, ?_, ⟨_, _, exec_tapInstruction_of_awake ha
        (by simp), s.tapFree_frame h⟩, ?_, fun hd => ?_, fun hd => ?_, fun hd op hop => ?_, fun hd => ?_⟩⟩
  · exact exec_remoteControlAccess_of_cut hr hcut
  · exact exec_remoteControlAccess_of_cut hr hcut
  · exact exec_remoteControlAccess_store hr hcut
  · obtain ⟨hresp, hmem⟩ := State.ctrlLoad_frame (s := (s.mod h Half.crosses).mod (other h) Half.crosses) (h := other h) hal has htool
    have hcross : ∀ g, (((s.mod h Half.crosses).mod (other h) Half.crosses).half g).mem = (s.half g).mem := fun g => by
      refine (State.mod_keeps (F := fun x => x.mem) ?_ _ _ _).trans (State.mod_keeps
          (F := fun x => x.mem) ?_ _ _ _) <;> exact fun _ => rfl
    exact ⟨hresp, (hmem _).trans (hcross _), (hmem _).trans (hcross _)⟩
  · rw [exec_tapInstruction]
    exact if_pos (by simp [hoff, hsafe])
  · exact exec_tapInstruction_of_awake ha (by simp)
  · exact exec_tapInstruction_of_awake ha (by simp)
  · rw [exec_tapInstruction_of_awake ha (by simp)]
    simp [State.tapAwake]
  · rw [exec_tapInstruction_of_awake ha (by simp)]
    exact congrArg Host.Outcome.next (if_pos hd)
  · refine ⟨_, s.tapFree h, ?_, s.tapFree_frame h⟩
    rw [exec_tapInstruction_of_awake ha (by simp)]
    exact congrArg Host.Outcome.next (if_neg hd)
  · refine exec_tapInstruction_of_closed ha hd ?_
    simp only [List.mem_cons, List.not_mem_nil, or_false] at hop
    rcases hop with rfl | rfl | rfl | rfl | rfl | rfl | rfl | rfl <;> simp
  · have hinv : ∀ {op}, op ∉ [TapOp.idcode, .bypass, .sample, .extest, .observe, .priv] →
        exec (.tapInstruction h op) s = .next (s.tapInvasive h op) := exec_tapInstruction_of_invasive ha hd
    refine ⟨?_, hinv (by simp), ⟨_, hinv (by simp), ?_⟩, ⟨_, hinv (by simp), ?_⟩, fun hm => ?_, fun hm => ?_, fun hm => ?_, fun hm => ?_,
      hinv (by simp), fun hbad => ?_, fun hal has => ?_⟩
    · have hoff : (s.half h).pow.st ≠ .off := fun hoff => by simp [Half.alive, hoff] at ha
      rw [exec_tapInstruction]
      exact (if_neg (by simp [hoff])).trans ((if_neg (by simp [ha])).trans (if_pos (by simp [hd])))
    · simp [State.tapInvasive, Half.modApp]
    · simp [State.tapInvasive, Half.modPair]
    · rw [hinv (by simp)]
      exact congrArg Host.Outcome.next (if_pos hm)
    · rw [hinv (by simp)]
      exact congrArg Host.Outcome.next (if_pos hm)
    · rw [hinv (by simp)]
      exact congrArg Host.Outcome.next (if_neg (by simp [hm]))
    · rw [hinv (by simp)]
      exact congrArg Host.Outcome.next (if_neg (by simp [hm]))
    · rw [hinv (by simp)]
      refine congrArg Host.Outcome.next (if_neg ?_)
      rcases hbad with hbad | hbad <;> simp [hbad]
    · rw [hinv (by simp)]
      exact congrArg Host.Outcome.next (if_pos (by simp [hal, has]))

end Sys2Proof.Machine
end
